-- ==== Sys2Proof/Word.lean ====
section
/-! DEFINITION. The word types of the Xozegar Z4 and their plainest arithmetic (01 R12, 02 R23 to R25, 03 R43). -/
namespace Sys2Proof

/-- One byte. -/
abbrev Byte := BitVec 8
/-- A scalar, 64 bits (06 R111). -/
abbrev Word := BitVec 64
/-- A pair, 128 bits: a capability or an interval (06 R111, 08 R158). -/
abbrev Pair := BitVec 128
/-- A course or a temporary, 512 bits (02 R25, 03 R43). -/
abbrev Course := BitVec 512
/-- A node, exit, input or header record (06 R107). -/
abbrev Record := BitVec 96
/-- A tag word (02 R23). -/
abbrev TagWord := BitVec 36
/-- A stream-time stamp (02 R24). -/
abbrev Stamp := BitVec 48
/-- A block pointer, VA[71:6] (06 R107). -/
abbrev BlockPtr := BitVec 66
/-- A virtual address (10 R204). -/
abbrev VAddr := BitVec 72

/-- Bits [lo + n - 1 : lo] (01 R12). -/
abbrev slice {w : Nat} (x : BitVec w) (lo n : Nat) : BitVec n := x.extractLsb' lo n

/-- Bit i as a truth value. -/
abbrev bit {w : Nat} (x : BitVec w) (i : Nat) : Bool := x.getLsbD i

/-- Sign extension of the low n bits to w bits (01 R14). -/
abbrev sextTo {n : Nat} (w : Nat) (x : BitVec n) : BitVec w := x.signExtend w

/-- Zero extension or cut to w bits (01 R14). -/
abbrev zextTo {n : Nat} (w : Nat) (x : BitVec n) : BitVec w := x.setWidth w

end Sys2Proof
end

