-- ==== Sys2Proof/Syntax.lean ====
section
/-! DEFINITION. Every instruction and event of spec/opcode_table.json as syntax (06 R111 to R118; 95). -/
namespace Sys2Proof

/-- TY, the operand type (06 R111); 0xF is reserved and no value of this type. -/
inductive Ty where
  | i64 | n64 | i32 | n32 | i16 | n16 | i8 | n8 | f32 | f16 | b16 | t8 | t6 | cap | e8
  deriving DecidableEq, Repr, Inhabited

/-- SH, the operand shape (06 R111). -/
inductive Shape where
  | scalar | course | pair
  deriving DecidableEq, Repr, Inhabited

/-- A source selector (01 R6). A ring source's number and offset stand in AX. -/
inductive Src where
  | port | temp (k : Fin 8) | lit | zero | ring | stamp | tag
  deriving DecidableEq, Repr, Inhabited

/-- PQ, the predicate (01 R8). -/
inductive Pred where
  | none | onTrue | onFalse
  deriving DecidableEq, Repr, Inhabited

/-- A node port (01 R7). -/
inductive NodePort where
  | a | b | p
  deriving DecidableEq, Repr, Inhabited

/-- A destination (01 R7). -/
inductive Dest where
  | none | node (n : Fin 128) (q : NodePort) | temp (k : Fin 8) | out (k : Fin 16)
  deriving DecidableEq, Repr, Inhabited

/-- The fields of a node record but for its opcode (06 R111). -/
structure Rec where
  fn  : BitVec 4
  ty  : Ty
  sh  : Shape
  a   : Src
  b   : Src
  pq  : Pred
  d0  : Dest
  d1  : Dest
  ax  : BitVec 13
  lit : BitVec 32
  deriving DecidableEq, Repr, Inhabited

/-- Where activations run (02 R20): a logical element (bay x 8 + element, 05 R95), the Newel of a die, or the demand
unit of a context (the model gives each context one). -/
inductive UnitId where
  | element (n : Nat) | newel (die : Nat) | demand (c : Nat)
  deriving DecidableEq, Repr, Inhabited

/-- A memory port by kind and index (20 R347). -/
structure PortId where
  kind  : Nat
  index : Nat
  deriving DecidableEq, Repr, Inhabited

/-- An edge of a graph: a frame edge by its place in the image, or a ring by its number (04 R86). -/
inductive EdgeRef where
  | frame (i : Nat) | ring (q : Nat)
  deriving DecidableEq, Repr, Inhabited

/-- What an agent outside the package answers to an access of space 3 or 4 (18 R327, R334): an error, with the code a
peer reports, or the bytes of data with the kind of their page. -/
structure Ext where
  err   : Bool
  code  : Nat
  data  : List Byte
  typed : Bool
  deriving DecidableEq, Repr, Inhabited

/-- A flight-link flit (18 R330): the fields of its header and its 64 bytes of payload, and whether its link CRC, whose function no
rule gives, checks at the receiver (R331; log 7). -/
structure Flit where
  crcOk   : Bool
  vc      : BitVec 8
  dst     : BitVec 22
  src     : BitVec 22
  kind    : BitVec 4
  seq     : BitVec 8
  payload : Course
  deriving DecidableEq, Repr, Inhabited

/-- The 8-byte header of a flit (18 R330). -/
def Flit.header (f : Flit) : BitVec 64 := f.vc ++ f.dst ++ f.src ++ f.kind ++ f.seq

/-- One collective chunk as its header and data flits give it (18 R335): elems holds, for each element, its wire code, and
scales the scale byte of each 32-element block (03 R68). -/
structure Chunk where
  group  : Nat
  op     : Nat
  n      : Nat
  count  : Nat
  wire   : Nat
  src    : Nat
  srcDev : Nat
  index  : Nat
  sums   : Bool
  scales : List Byte
  elems  : List (BitVec 32)
  deriving DecidableEq, Repr, Inhabited

/-- What a peer asks for (18 R334): a load; a store of bytes, of a whole course, of one that only a typed page takes, of masked
elements, of a scalar, of a pair, of what only an untyped page takes; an atomic, of a course where one is given; a release; an append of lanes to
courses; an update of a length record. -/
inductive PeerOp where
  | load (n : Nat)
  | bytes (l : List Byte)
  | course (c : Course)
  | narrow (c : Course)
  | masked (ty : Ty) (mask : BitVec 80) (c : Course)
  | scalar (ty : Ty) (v : Word)
  | pair (p : Pair) (tagged : Bool)
  | area (l : List Byte)
  | packed (l : List Byte)
  | atomic (fn : Nat) (ty : Ty) (b e : Word) (course : Option Course)
  | release
  | append (pos : Nat) (vs : List (BitVec 32))
  | length (layer n p : Nat)
  deriving DecidableEq, Repr, Inhabited

/-- A space 3 request of another device as it arrives on vc 0 (18 R334). -/
structure PeerReq where
  src : Nat
  off : Nat
  op  : PeerOp
  deriving DecidableEq, Repr, Inhabited

/-- A residency request (20 R357): an image or a save area at a capability, a launch word, the issuer's ASID. -/
structure Residency where
  resume : Bool
  cap    : Pair
  launch : Word
  asid   : BitVec 16
  deriving DecidableEq, Repr, Inhabited

/-- What the host side and the firmware answer while a mailbox request runs (18 R329): a read error, the words that its system graph writes to the page tables in HBM to map the image, by physical address, and the image. -/
structure MailboxRead where
  err     : Bool
  maps    : List (Nat × BitVec 64)
  image   : List Byte
  deriving DecidableEq, Repr, Inhabited

/-- What bring-up finds and writes (23 R394, R397): the firmware check, the platform's device ID, where the firmware
places the ASID table, whether the clock locks, and the routing tables. -/
structure Boot where
  verified : Bool
  lkId     : BitVec 22
  asidTab  : Nat
  lock     : Bool
  group    : List Nat
  locals  : List Nat
  deriving DecidableEq, Repr, Inhabited

/-- What one control tick measures (22 R377 to R379): the package draw of the last microsecond in 1/16 W, and the task draw now in W. -/
structure Draw where
  w16  : Nat
  task : Nat
  deriving DecidableEq, Repr, Inhabited

/-- One row of spec/opcode_table.json each: the 80 device events (95), then the 196 node-record forms (06 R117). -/
inductive Instr where
  /-- R144. Does nothing. -/
  | nop (r : Rec)
  /-- R144. Fires exit n when A arrives. -/
  | exitOp (r : Rec)
  /-- R144. Fires exit t or f according to B[0]. -/
  | exitp (r : Rec)
  /-- R145. Fires the exit named by A, faulting at commit if out of range. -/
  | exitx (r : Rec)
  /-- R144. Delivers A to its destinations. -/
  | pass (r : Rec)
  /-- R144. Delivers A only when B[0] matches the variant. -/
  | gate (r : Rec)
  /-- R144. Delivers A to D0 or D1 according to B[0]. -/
  | steer (r : Rec)
  /-- R146. Fires on the first token on port a or b and delivers it. -/
  | mergeOp (r : Rec)
  /-- R147. Delivers the literal extended to 64 bits. -/
  | litOp (r : Rec)
  /-- R147. Delivers one field of the activation's tag. -/
  | tget (r : Rec)
  /-- R148. Sets the emitted tag word from B at commit and delivers A. -/
  | tset (r : Rec)
  /-- R149. Redirects the chain to a callee block, pushing the exit successor. -/
  | callb (r : Rec)
  /-- R149. Redirects the chain to the popped link-stack entry. -/
  | retb (r : Rec)
  /-- R151. Raises a software TRAP fault with the given code. -/
  | trap (r : Rec)
  /-- R151. Raises a breakpoint fault to the Newel. -/
  | brk (r : Rec)
  /-- R153. Integer add, wrapping or saturating. -/
  | add (r : Rec)
  /-- R153. Integer subtract, wrapping or saturating. -/
  | sub (r : Rec)
  /-- R153. Integer multiply, wrapping or saturating. -/
  | mul (r : Rec)
  /-- R153. High half of the exact product. -/
  | mulh (r : Rec)
  /-- R153. Integer multiply-add with a temporary addend. -/
  | mad (r : Rec)
  /-- R155. Integer divide truncating towards zero, with boundary cases. -/
  | div (r : Rec)
  /-- R155. Integer remainder, with boundary cases. -/
  | rem (r : Rec)
  /-- R153. Integer negate. -/
  | neg (r : Rec)
  /-- R153. Integer absolute value. -/
  | abs (r : Rec)
  /-- R153. Integer minimum. -/
  | min (r : Rec)
  /-- R153. Integer maximum. -/
  | max (r : Rec)
  /-- R153. Shift left, wrapping or saturating. -/
  | shl (r : Rec)
  /-- R156. Logical or arithmetic shift right. -/
  | shr (r : Rec)
  /-- R157. Bitwise and. -/
  | andOp (r : Rec)
  /-- R157. Bitwise or. -/
  | orOp (r : Rec)
  /-- R157. Bitwise exclusive or. -/
  | xorOp (r : Rec)
  /-- R157. Bitwise not. -/
  | notOp (r : Rec)
  /-- R157. Counts 1 bits. -/
  | popc (r : Rec)
  /-- R157. Counts leading zeros. -/
  | clz (r : Rec)
  /-- R157. Reverses bits. -/
  | brev (r : Rec)
  /-- R157. Extracts a bit field. -/
  | bext (r : Rec)
  /-- R157. Inserts a bit field. -/
  | bins (r : Rec)
  /-- R157. Rotates within w bits. -/
  | rot (r : Rec)
  /-- R157. Integer compare delivering 1 or 0. -/
  | cmp (r : Rec)
  /-- R157. Selects A or B by bit 0 of tK. -/
  | selp (r : Rec)
  /-- R157. Clamps A between B and tK. -/
  | clamp (r : Rec)
  /-- R165. Delivers one field of a capability. -/
  | cgetf (r : Rec)
  /-- R166. Narrows a capability's bounds exactly or rounded. -/
  | csetb (r : Rec)
  /-- R165. Moves the cursor by B, clearing the tag if unrepresentable. -/
  | cinc (r : Rec)
  /-- R165. Sets the cursor to B. -/
  | csetc (r : Rec)
  /-- R165. Masks the permissions. -/
  | cperm (r : Rec)
  /-- R167. Seals A with the type from authority B. -/
  | cseal (r : Rec)
  /-- R167. Unseals A under authority B. -/
  | cunseal (r : Rec)
  /-- R165. Tests or clears the capability tag. -/
  | ctag (r : Rec)
  /-- R165. Delivers the signed cursor difference. -/
  | cdiff (r : Rec)
  /-- R168. Sets the tag on valid capability bits. -/
  | cderiv (r : Rec)
  /-- R171. Scalar float add. -/
  | fadd (r : Rec)
  /-- R171. Scalar float subtract. -/
  | fsub (r : Rec)
  /-- R171. Scalar float multiply. -/
  | fmul (r : Rec)
  /-- R171. Fused multiply-add with one rounding. -/
  | ffma (r : Rec)
  /-- R171. Scalar float divide. -/
  | fdiv (r : Rec)
  /-- R171. Scalar square root. -/
  | fsqrt (r : Rec)
  /-- R171. Reciprocal square root. -/
  | frsq (r : Rec)
  /-- R171. Float minimum. -/
  | fmin (r : Rec)
  /-- R171. Float maximum. -/
  | fmax (r : Rec)
  /-- R173. Float compare delivering 1 or 0. -/
  | fcmp (r : Rec)
  /-- R174. Delivers a one-hot class mask. -/
  | fcls (r : Rec)
  /-- R175. Converts between float formats and E8. -/
  | fcvt (r : Rec)
  /-- R176. Converts between integers and floats. -/
  | icvt (r : Rec)
  /-- R177. Rounds to an integral value. -/
  | frnd (r : Rec)
  /-- R183. Course add. -/
  | vadd (r : Rec)
  /-- R183. Course subtract. -/
  | vsub (r : Rec)
  /-- R183. Course multiply. -/
  | vmul (r : Rec)
  /-- R183. Course multiply-add. -/
  | vfma (r : Rec)
  /-- R183. Course minimum. -/
  | vmin (r : Rec)
  /-- R183. Course maximum. -/
  | vmax (r : Rec)
  /-- R184. Scales a course by a scalar. -/
  | vscl (r : Rec)
  /-- R185. Lane compare delivering a truth course. -/
  | vcmp (r : Rec)
  /-- R185. Lane select by a mask course. -/
  | vsel (r : Rec)
  /-- R183. Lane bitwise and, or, xor. -/
  | vbit (r : Rec)
  /-- R186. Shifts lanes down or up. -/
  | vshf (r : Rec)
  /-- R188. Sums lanes to a scalar. -/
  | vsum (r : Rec)
  /-- R188. Dot product to a scalar. -/
  | vdot (r : Rec)
  /-- R188. Greatest lane as a scalar. -/
  | vrmax (r : Rec)
  /-- R189. Permutes lanes by an I8 index course. -/
  | vperm (r : Rec)
  /-- R189. Broadcasts a scalar to every lane. -/
  | vbcst (r : Rec)
  /-- R189. Extracts one lane. -/
  | vext (r : Rec)
  /-- R189. Inserts a value into one lane. -/
  | vins (r : Rec)
  /-- R190. Converts ring courses between formats into another ring. -/
  | vcvt (r : Rec)
  /-- R191. Quantises a course by a scale factor. -/
  | vqnt (r : Rec)
  /-- R192. Lane exponential. -/
  | vexp (r : Rec)
  /-- R192. Lane natural logarithm. -/
  | vln (r : Rec)
  /-- R192. Lane reciprocal. -/
  | vrcp (r : Rec)
  /-- R192. Lane reciprocal square root. -/
  | vrsq (r : Rec)
  /-- R192. Lane activation function. -/
  | vact (r : Rec)
  /-- R194. Forward Haar transform of a ring tile. -/
  | hfwd (r : Rec)
  /-- R195. Inverse Haar transform of a ring tile. -/
  | hinv (r : Rec)
  /-- R196. Thresholds detail lanes below CX.THR. -/
  | hthr (r : Rec)
  /-- R197. Reconstructs one time step of a tile. -/
  | hrec (r : Rec)
  /-- R199. Reads a course header. -/
  | hget (r : Rec)
  /-- R199. Retags a course's L, k and Q. -/
  | htag (r : Rec)
  /-- R198. Adds a bias to approximation courses only. -/
  | hbias (r : Rec)
  /-- R200. Delivers the time span of a coefficient. -/
  | hspan (r : Rec)
  /-- R200. Counts non-zero lanes. -/
  | hcnt (r : Rec)
  /-- R227. Reads a ring entry at a run-time offset. -/
  | rrd (r : Rec)
  /-- R227. Writes a ring entry. -/
  | rwr (r : Rec)
  /-- R227. Advances a ring's read cursor. -/
  | radv (r : Rec)
  /-- R227. Advances a ring's write cursor. -/
  | wadv (r : Rec)
  /-- R227. Reports filled and free ring slots. -/
  | rfill (r : Rec)
  /-- R229. Creates an empty frame at commit. -/
  | falloc (r : Rec)
  /-- R229. Removes an incomplete frame at commit. -/
  | ffree (r : Rec)
  /-- R229. Loads a frame slot and its presence bit. -/
  | flds (r : Rec)
  /-- R229. Stores into a frame slot as an arriving token at commit. -/
  | fsts (r : Rec)
  /-- R230. Writes an output port under tag word B. -/
  | sendt (r : Rec)
  /-- R231. Allocates a new iteration tag, waiting at the live-tag limit. -/
  | tagn (r : Rec)
  /-- R231. Retires a TAGN-allocated tag at commit. -/
  | tagr (r : Rec)
  /-- R233. Posts a demand on a sink. -/
  | dmd (r : Rec)
  /-- R234. Reads one bound of an interval. -/
  | dget (r : Rec)
  /-- R234. Transforms or packs an interval. -/
  | dxfm (r : Rec)
  /-- R235. Delivers the operator's state time. -/
  | stime (r : Rec)
  /-- R235. Sets the emitted stamp at commit. -/
  | stset (r : Rec)
  /-- R236. Snapshots operator state into a landing slot. -/
  | land (r : Rec)
  /-- R237. Finds the greatest landing at or below A. -/
  | lfind (r : Rec)
  /-- R237. Restores state from a landing. -/
  | lrest (r : Rec)
  /-- R237. Delivers the run-mode bits. -/
  | silent (r : Rec)
  /-- R239. Marks an interval delivered on an output port's edges. -/
  | ddone (r : Rec)
  /-- R242. Loads a value through a capability. -/
  | ld (r : Rec)
  /-- R242. Stores a value through a capability at commit. -/
  | st (r : Rec)
  /-- R244. Loads a narrow course decoded to F32. -/
  | ldc (r : Rec)
  /-- R244. Encodes F32 ring entries into one narrow course store. -/
  | stc (r : Rec)
  /-- R245. Runs a generator stream loading courses into a ring. -/
  | ldq (r : Rec)
  /-- R245. Runs a generator stream storing ring courses. -/
  | stq (r : Rec)
  /-- R247. Asks the home slice to hold a course. -/
  | pref (r : Rec)
  /-- R246. Gathers lanes by an index course. -/
  | ldx (r : Rec)
  /-- R246. Scatters lanes by an index course. -/
  | stx (r : Rec)
  /-- R248. Structure-memory load. -/
  | lds (r : Rec)
  /-- R248. Structure-memory store. -/
  | sts (r : Rec)
  /-- R249. Orders accesses to the point of coherence of a scope. -/
  | fence (r : Rec)
  /-- R250. Acquires a synchronisation object, waiting for its count. -/
  | acq (r : Rec)
  /-- R250. Releases a synchronisation object at commit. -/
  | rel (r : Rec)
  /-- R312. Atomic integer operation on memory. -/
  | aop (r : Rec)
  /-- R312. Atomic compare and swap. -/
  | acas (r : Rec)
  /-- R312. Atomic float add. -/
  | afadd (r : Rec)
  /-- R314. Writes an output port with a combining token. -/
  | cmb (r : Rec)
  /-- R314. Delivers a combining token into a frame. -/
  | cmbi (r : Rec)
  /-- R312. Atomic course reduction into a typed course. -/
  | ared (r : Rec)
  /-- R270. Binds a weight tag to a B description in the task queue. -/
  | mldb (r : Rec)
  /-- R264. Enqueues a matrix tile task. -/
  | mtask (r : Rec)
  /-- R271. Reads one accumulator node row. -/
  | mrow (r : Rec)
  /-- R271. Adds a course into a node row at commit. -/
  | macc (r : Rec)
  /-- R272. Appends a release count to a node. -/
  | meor (r : Rec)
  /-- R273. Spills a snapshot of a node. -/
  | mspl (r : Rec)
  /-- R273. Restores a node from a spill image. -/
  | mrst (r : Rec)
  /-- R273. Configures and zeroes a node. -/
  | mzro (r : Rec)
  /-- R274. Sets the default plane count. -/
  | mpln (r : Rec)
  /-- R274. Queries a node's state. -/
  | mqry (r : Rec)
  /-- R274. Cancels task records by tag or all. -/
  | mcut (r : Rec)
  /-- R321. Starts a copy engine operation. -/
  | cpy (r : Rec)
  /-- R321. Starts a quantising tile copy to T8. -/
  | cpyq (r : Rec)
  /-- R319. Waits until all masked copy tags are set. -/
  | twall (r : Rec)
  /-- R319. Waits until any masked copy tag is set. -/
  | twany (r : Rec)
  /-- R319. Delivers the lowest ready masked tag. -/
  | tffr (r : Rec)
  /-- R319. Clears idle masked tag bits at commit. -/
  | tclr (r : Rec)
  /-- R316. Sets a barrier's expectations. -/
  | bari (r : Rec)
  /-- R316. Contributes an arrival and bytes to a barrier. -/
  | barv (r : Rec)
  /-- R318. Waits for a barrier phase flip. -/
  | barw (r : Rec)
  /-- R316. Delivers a barrier's state word. -/
  | barq (r : Rec)
  /-- R323. Starts an all-gather collective. -/
  | collGather (r : Rec)
  /-- R323. Starts a reduce-scatter collective. -/
  | collRsum (r : Rec)
  /-- R323. Starts an all-reduce collective. -/
  | collAsum (r : Rec)
  /-- R323. Starts a broadcast collective. -/
  | collBcast (r : Rec)
  /-- R322. Exports course maps of compressed granules. -/
  | cxpt (r : Rec)
  /-- R288. Intersects two fibre rings, delivering one match or stop. -/
  | xsect (r : Rec)
  /-- R289. Reads a fibre block into a fibre ring. -/
  | fibrd (r : Rec)
  /-- R290. Writes fibre tokens from a ring as a block. -/
  | fibwr (r : Rec)
  /-- R291. Classifies a fibre coordinate word. -/
  | stopn (r : Rec)
  /-- R293. Accumulates a value into a sparse accumulator. -/
  | spacc (r : Rec)
  /-- R294. Flushes a sparse accumulator to a fibre ring. -/
  | spfl (r : Rec)
  /-- R295. Translates a sequence position into a capability. -/
  | pxlt (r : Rec)
  /-- R296. Appends a position into KV courses, rescaling as needed. -/
  | kvapp (r : Rec)
  /-- R300. Reads and advances sequence length marks. -/
  | kvlen (r : Rec)
  /-- R302. Merges two softmax partial triples. -/
  | smxm (r : Rec)
  /-- R303. Finishes a softmax by dividing by s. -/
  | smxf (r : Rec)
  /-- R276. Declares a power window in the hall. -/
  | phase (r : Rec)
  /-- R276. Closes the context's power window in the hall. -/
  | phend (r : Rec)
  /-- R379. Takes ballast groups for a 1 µs burst. -/
  | ball (r : Rec)
  /-- R363. Reads a control register. -/
  | crd (r : Rec)
  /-- R363. Writes a control register at commit. -/
  | cwr (r : Rec)
  /-- R358. Invalidates translations for a page range. -/
  | tlbi (r : Rec)
  /-- R359. Waits for committed TLBIs to drain. -/
  | tlbs (r : Rec)
  /-- R362. Returns from a Newel interrupt, resuming the saved successor. -/
  | iret (r : Rec)
  /-- R74. Sets a context's base priority at commit. -/
  | prio (r : Rec)
  /-- R72. Loads a graph image as a context. -/
  | ctxlLoad (r : Rec)
  /-- R72. Resumes a context from a save area. -/
  | ctxlResume (r : Rec)
  /-- R75. Starts eviction of a context to a save area. -/
  | ctxe (r : Rec)
  /-- R349. Resumes or cancels the request held at a port. -/
  | retryPort (r : Rec)
  /-- R349. Resumes or cancels a parked frame. -/
  | retryFrame (r : Rec)
  /-- R385. Waits until a masked event is pending. -/
  | wfe (r : Rec)
  /-- R386. Queues a software event at a Newel. -/
  | evsig (r : Rec)
  /-- R360. Starts migration of a page to a new leaf. -/
  | migr (r : Rec)
  /-- R376. Sets the software throttle of a hall or all halls. -/
  | thrt (r : Rec)
  /-- R129. At an opportunity on a free element the scheduler applies suppression, level, birth epoch and round-robin, and begins one ready activation. Subject: u. -/
  | schedulerChoice
  /-- R120. An element or Newel fetches a block image through translation and decodes every record, raising a block-decode fault on the first failed check. Subject: u, ext. -/
  | blockFetch
  /-- R124. The next-block predictor speculatively fetches and decodes a successor block without reporting faults. Subject: u, ptr, ext. -/
  | predictorFetch
  /-- R34. When no record executes, none is ready and no token is in transit, the element applies the exit, port, ring and chain checks and either faults or enters the commit stage. Subject: u. -/
  | activationEnd
  /-- R403. When the last commit-stage wait and check is satisfied, the activation releases its stores, tokens, cursor moves, flags and frame at once. Subject: u. -/
  | commitMoment
  /-- R26. A tagged token arriving at a block's matching interface allocates or fills a frame slot, and a complete frame becomes a candidate. Subject: c, e. -/
  | tokenMatch
  /-- R135. A token waiting on a back-pressured track is matched once commits have freed frame space. Subject: c, e. -/
  | backpressuredTokenRetry
  /-- R313. A combining token merges into its frame slot, setting presence when the count reaches n or faulting on a mismatch. Subject: c, e. -/
  | combiningTokenArrival
  /-- R82. A token reaching a sink is delivered and its bitmap bit set, or discarded and counted as a duplicate. Subject: c, e. -/
  | sinkTokenArrival
  /-- R81. A sink demand waiting for the bitmap window is released once the window base has advanced far enough. Subject: c, k. -/
  | sinkDemandRelease
  /-- R79. A 16-byte host write to HD.POST.c is checked and either queued as a demand or refused with a reason recorded in HD.REF.c. Subject: off, len, data. -/
  | hostDemandPost
  /-- R78. A read of HD.REF.c returns the refusal reason and count and clears them. Subject: c. -/
  | hdRefRead
  /-- R86. An arriving interval is rounded, reduced against done and pending intervals, coalesced, and its remainder sent up the stair. Subject: c, edge. -/
  | demandReduce
  /-- R84. The demand unit fires an rtf block once for each interval reaching an operator with a block range-transfer function. Subject: c, k. -/
  | rtfBlockFire
  /-- R89. An issue counter fires its operator's entry block for the lowest pending time, allocating a live tag for a source. Subject: c, k. -/
  | issueCounterFire
  /-- R92. An unbounded operator starts serving its next interval, restoring from a landing or origin and setting its silent window, or raising a demand fault. Subject: c, k. -/
  | unboundedIntervalStart
  /-- R134. Every 4 096 steps after the overflow area drains of a graph's frames, its store limit doubles up to 0xFFFF. Subject: c. -/
  | storeLimitDouble
  /-- R136. Every 2^20 steps the resource manager reads the stall counters and marks bottleneck operators. Subject: c, k. -/
  | cloneWindowCheck
  /-- R212. A committed store is performed at its home slice or pool, checked, merged, Z-set and repacked on a compressed page. Subject: id, ext. -/
  | storePerform
  /-- R243. A load's data returns to its record, or its poisoned data faults the activation. Subject: id, ext. -/
  | loadReturn
  /-- R311. A committed atomic is performed indivisibly at its location and its old value, if any, leaves as a token. Subject: id, ext. -/
  | atomicPerform
  /-- R250. After covered stores reach the point of coherence, a REL increments its synchronisation object and waiting ACQs may return. Subject: id. -/
  | releaseIncrement
  /-- R207. A hall walker finishes a walk for a port, filling its cache or holding the request with a translation fault. Subject: id. -/
  | pageWalkComplete
  /-- R104. On each response a memory port halves or regrows its outstanding-request window for that destination class. Subject: port, k, e, id, flag. -/
  | portWindowUpdate
  /-- R361. After copying, the device writes the new leaf if unchanged, invalidates, refuses held accesses as moved and reports NW.EVT.3. Subject: k, bytes. -/
  | migrationSwitch
  /-- R218. A port receiving moved re-translates the access and re-issues it to the new home in its place. Subject: id. -/
  | movedReissue
  /-- R221. A stack's temperature crosses a band threshold, changing its refresh rate and raising the hot event on entering band 3. Subject: k, data. -/
  | hbmBandChange
  /-- R325. A CXL.mem read is performed at the home slice, returning data, a packed image or poison. Subject: off, len. -/
  | hostMemRead
  /-- R325. A CXL.mem write merges bytes at the home slice, is discarded, or raises the compressed-page or structure-write event. Subject: off, bytes. -/
  | hostMemWrite
  /-- R334. A space 3 request arriving on vc 0 is translated under ASID 0xFFFF and performed at the peer, its response returned on vc 1. Subject: peer, ext. -/
  | peerRequest
  /-- R366. Once its activation's stores reach coherence, a copy engine operation translates its ranges and starts issuing. Subject: id, ext. -/
  | engineOpStart
  /-- R320. When all destination bytes reach coherence the operation contributes to its barrier, lowers its tag count and ORs its flags. Subject: id. -/
  | engineOpComplete
  /-- R315. An arrival and byte count is added to a barrier, flipping its phase while expectations are met. Subject: id. -/
  | barrierContribution
  /-- R323. A collective chunk arriving on vc 2 is stored and counted, held until the local COLL commits, or discarded on mismatch. Subject: k, chunk. -/
  | collChunkArrival
  /-- R331. A flight-link receiver checks a flit's CRC and vc, requests replay on failure, and delivers or forwards it. Subject: k, flit. -/
  | flitReceive
  /-- R330. A flight-link port retrains, replacing a failing lane with its spare. Subject: k, flag. -/
  | linkRetrain
  /-- R332. A read of LK.ERR.p returns its counts and clears the RC fields in one step. Subject: k. -/
  | lkErrRead
  /-- R272. When its release count is met and no row tag runs, a node writes its rows, then resets got, lanes, tails and last-kc values. Subject: c, k, e. -/
  | nodeRelease
  /-- R265. The hall scheduler issues an eligible task record on a free macro set, judging it declared or undeclared and reloading weights as needed. Subject: k. -/
  | taskIssue
  /-- R277. A declared task start deferred to its bay's 250 ns slot begins at that instant. Subject: k. -/
  | declaredStartSlot
  /-- R266. A row tag ends and its contributions are applied to the node as one unit, advancing done. Subject: k, ext. -/
  | rowTagApply
  /-- R276. A pending power window opens after its onset and releases the context's held task records. Subject: c, k. -/
  | powerWindowOpen
  /-- R276. A power window closes after its length, stopping nothing that runs. Subject: c, k. -/
  | powerWindowClose
  /-- R268. A macro hardware fault discards the row tag in progress, remaps the macro to a spare and reruns the row tag. Subject: k, e. -/
  | macroFailure
  /-- R351. A datapath error abandons the activations executing in the hall and re-fires them without charge. Subject: u. -/
  | hwDatapathError
  /-- R352. An uncorrectable pool error triggers context replay of the affected contexts. Subject: k. -/
  | poolUncorrectable
  /-- R350. An element failure brings in the spare element and triggers context replay. Subject: k, e. -/
  | elementFailure
  /-- R352. The device stops, re-places, discards and resets a context's state, invalidates unbounded state and re-posts sink intervals. Subject: c. -/
  | contextReplay
  /-- R353. A slice or stack line with an uncorrectable error is poisoned at its home slice. Subject: k. -/
  | linePoison
  /-- R354. An uncorrectable error in an undervolted hall returns it to its safe point, locks a raised floor and re-fires or replays work. Subject: k, flag. -/
  | undervoltUe
  /-- R350. A flight link lost after retry holds dependent requests as translation code 4. Subject: k. -/
  | linkLost
  /-- R76. After in-flight activations end, the context's frames and state are saved frame by frame into the save area. Subject: c. -/
  | evictionSave
  /-- R76. The last frame is saved, the slot becomes free and NW.EVT.4 is raised. Subject: c, ext. -/
  | evictionComplete
  /-- R357. The system graph serves a residency request by level, evicting the lowest-priority context or passing the reservation. Subject: resid, ext. -/
  | residencyRequest
  /-- R73. The loader finishes writing configurations and const rings and delivers the CTXL status word to the waiting activation. Subject: u, ext. -/
  | ctxlLoadDone
  /-- R358. Once the TLBI activation's earlier stores reach home, ports and walkers drop matching entries and decoded blocks. Subject: k. -/
  | tlbiInvalidate
  /-- R359. Every access translated through a dropped entry has been performed, and waiting TLBS records return. Subject: k. -/
  | tlbiDrainComplete
  /-- R371. Every 10 µs each hall's sensor is sampled and PW.THS and PW.THMAX are updated. Subject: temps. -/
  | thermalSample
  /-- R370. Every 100 ms a hall compares canary corrected errors with cetgt and raises, lowers or holds its voltage. Subject: k, e. -/
  | undervoltCheck
  /-- R370. A setting held 1 s without an uncorrectable error becomes the safe point. Subject: k. -/
  | safePointTimer
  /-- R370. Ten minutes after a floor lock it expires, returning floor to 650 mV and lock to 0. Subject: k. -/
  | floorLockExpire
  /-- R378. Each µs the controller sets ballast grants towards G within slope and stagger limits and updates CAPI. Subject: draw. -/
  | powerControlTick
  /-- R380. 40 µs after the draw first passed cap under slope bounding, ballast falls at once to G. Subject: draw. -/
  | slopeBoundExpire
  /-- R380. Every 16 µs under sustained pressure k_p rises by 2, or after pressure falls by 1. Subject: none. -/
  | kpStep
  /-- R380. After pressure ends a graph's power limit doubles every 4 096 steps up to 0xFFFF. Subject: c. -/
  | powerLimitDouble
  /-- R336. At the device's slot offset in each 128 µs period the controller may begin a rise in package draw. Subject: none. -/
  | staggerSlot
  /-- R379. A BALL burst ends after 1 µs and its groups return to the grant. Subject: k. -/
  | ballastBurstEnd
  /-- R384. Between activations a Newel takes the lowest pending enabled event, saving its successor and beginning the handler. Subject: k. -/
  | newelEventTake
  /-- R383. An event token is queued at a Newel, or discarded and lost set when the queue is full. Subject: k. -/
  | eventQueue
  /-- R393. An ageing monitor passes its limit and the keystone Newel writes a new remap entry. Subject: k, flag, e. -/
  | ageingLimitPass
  /-- R329. A host write of go to HM.GO submits the mailbox request, or sets ovr when busy. Subject: data. -/
  | hmGo
  /-- R329. The system graph ends a mailbox request, setting code, incrementing seq, clearing busy and raising MSI-X vector 0. Subject: mail. -/
  | mailboxRequestEnd
  /-- R396. A host write to HA.GO starts an attestation report, or sets ovr when busy. Subject: data. -/
  | haGo
  /-- R396. The keystone Newel finishes a signed attestation report and raises MSI-X vector 2. Subject: none. -/
  | attestReportComplete
  /-- R397. Cold or trip reset verifies firmware, trains memory and links, sets tables and opens the host windows. Subject: boot. -/
  | reset
  /-- R15. A write to a register without behaviour of its own updates its writable fields. Subject: off, len, data. -/
  | registerWrite
  /-- R125. In each step, every block with at least one waiting activation adds 1 to exactly one of its stall counters, chosen by the first applicable reason. Subject: none. -/
  | stallCounterStep
  /-- R128. Each die's epoch counter advances by one every 64 steps, and TAGN and source firings read it as the birth epoch. Subject: k. -/
  | epochCountAdvance
  /-- R392. The UCIe site retrains and repairs a failing lane with a spare, as the UCIe specification provides, visible as a training pause. Subject: k. -/
  | ucieLinkTraining
  /-- R392. A slice fails, which marks its row for replacement by the spare row, or for deconfiguration once the spare row is in use, at the next reset. Subject: k. -/
  | sliceFailure
  deriving DecidableEq, Repr, Inhabited

/-- The node-record forms, as bare names (06 R117; COLL, CTXL and RETRY have one for each row of the table). -/
inductive Op where
  | nop | exitOp | exitp | exitx | pass | gate | steer | mergeOp | litOp | tget
  | tset | callb | retb | trap | brk | add | sub | mul | mulh | mad
  | div | rem | neg | abs | min | max | shl | shr | andOp | orOp
  | xorOp | notOp | popc | clz | brev | bext | bins | rot | cmp | selp
  | clamp | cgetf | csetb | cinc | csetc | cperm | cseal | cunseal | ctag | cdiff
  | cderiv | fadd | fsub | fmul | ffma | fdiv | fsqrt | frsq | fmin | fmax
  | fcmp | fcls | fcvt | icvt | frnd | vadd | vsub | vmul | vfma | vmin
  | vmax | vscl | vcmp | vsel | vbit | vshf | vsum | vdot | vrmax | vperm
  | vbcst | vext | vins | vcvt | vqnt | vexp | vln | vrcp | vrsq | vact
  | hfwd | hinv | hthr | hrec | hget | htag | hbias | hspan | hcnt | rrd
  | rwr | radv | wadv | rfill | falloc | ffree | flds | fsts | sendt | tagn
  | tagr | dmd | dget | dxfm | stime | stset | land | lfind | lrest | silent
  | ddone | ld | st | ldc | stc | ldq | stq | pref | ldx | stx
  | lds | sts | fence | acq | rel | aop | acas | afadd | cmb | cmbi
  | ared | mldb | mtask | mrow | macc | meor | mspl | mrst | mzro | mpln
  | mqry | mcut | cpy | cpyq | twall | twany | tffr | tclr | bari | barv
  | barw | barq | collGather | collRsum | collAsum | collBcast | cxpt | xsect | fibrd | fibwr
  | stopn | spacc | spfl | pxlt | kvapp | kvlen | smxm | smxf | phase | phend
  | ball | crd | cwr | tlbi | tlbs | iret | prio | ctxlLoad | ctxlResume | ctxe
  | retryPort | retryFrame | wfe | evsig | migr | thrt
  deriving DecidableEq, Repr, Inhabited

/-- The instruction of a form and its record fields. -/
def Op.instr (o : Op) (r : Rec) : Instr :=
  match o with
  | .nop => .nop r
  | .exitOp => .exitOp r
  | .exitp => .exitp r
  | .exitx => .exitx r
  | .pass => .pass r
  | .gate => .gate r
  | .steer => .steer r
  | .mergeOp => .mergeOp r
  | .litOp => .litOp r
  | .tget => .tget r
  | .tset => .tset r
  | .callb => .callb r
  | .retb => .retb r
  | .trap => .trap r
  | .brk => .brk r
  | .add => .add r
  | .sub => .sub r
  | .mul => .mul r
  | .mulh => .mulh r
  | .mad => .mad r
  | .div => .div r
  | .rem => .rem r
  | .neg => .neg r
  | .abs => .abs r
  | .min => .min r
  | .max => .max r
  | .shl => .shl r
  | .shr => .shr r
  | .andOp => .andOp r
  | .orOp => .orOp r
  | .xorOp => .xorOp r
  | .notOp => .notOp r
  | .popc => .popc r
  | .clz => .clz r
  | .brev => .brev r
  | .bext => .bext r
  | .bins => .bins r
  | .rot => .rot r
  | .cmp => .cmp r
  | .selp => .selp r
  | .clamp => .clamp r
  | .cgetf => .cgetf r
  | .csetb => .csetb r
  | .cinc => .cinc r
  | .csetc => .csetc r
  | .cperm => .cperm r
  | .cseal => .cseal r
  | .cunseal => .cunseal r
  | .ctag => .ctag r
  | .cdiff => .cdiff r
  | .cderiv => .cderiv r
  | .fadd => .fadd r
  | .fsub => .fsub r
  | .fmul => .fmul r
  | .ffma => .ffma r
  | .fdiv => .fdiv r
  | .fsqrt => .fsqrt r
  | .frsq => .frsq r
  | .fmin => .fmin r
  | .fmax => .fmax r
  | .fcmp => .fcmp r
  | .fcls => .fcls r
  | .fcvt => .fcvt r
  | .icvt => .icvt r
  | .frnd => .frnd r
  | .vadd => .vadd r
  | .vsub => .vsub r
  | .vmul => .vmul r
  | .vfma => .vfma r
  | .vmin => .vmin r
  | .vmax => .vmax r
  | .vscl => .vscl r
  | .vcmp => .vcmp r
  | .vsel => .vsel r
  | .vbit => .vbit r
  | .vshf => .vshf r
  | .vsum => .vsum r
  | .vdot => .vdot r
  | .vrmax => .vrmax r
  | .vperm => .vperm r
  | .vbcst => .vbcst r
  | .vext => .vext r
  | .vins => .vins r
  | .vcvt => .vcvt r
  | .vqnt => .vqnt r
  | .vexp => .vexp r
  | .vln => .vln r
  | .vrcp => .vrcp r
  | .vrsq => .vrsq r
  | .vact => .vact r
  | .hfwd => .hfwd r
  | .hinv => .hinv r
  | .hthr => .hthr r
  | .hrec => .hrec r
  | .hget => .hget r
  | .htag => .htag r
  | .hbias => .hbias r
  | .hspan => .hspan r
  | .hcnt => .hcnt r
  | .rrd => .rrd r
  | .rwr => .rwr r
  | .radv => .radv r
  | .wadv => .wadv r
  | .rfill => .rfill r
  | .falloc => .falloc r
  | .ffree => .ffree r
  | .flds => .flds r
  | .fsts => .fsts r
  | .sendt => .sendt r
  | .tagn => .tagn r
  | .tagr => .tagr r
  | .dmd => .dmd r
  | .dget => .dget r
  | .dxfm => .dxfm r
  | .stime => .stime r
  | .stset => .stset r
  | .land => .land r
  | .lfind => .lfind r
  | .lrest => .lrest r
  | .silent => .silent r
  | .ddone => .ddone r
  | .ld => .ld r
  | .st => .st r
  | .ldc => .ldc r
  | .stc => .stc r
  | .ldq => .ldq r
  | .stq => .stq r
  | .pref => .pref r
  | .ldx => .ldx r
  | .stx => .stx r
  | .lds => .lds r
  | .sts => .sts r
  | .fence => .fence r
  | .acq => .acq r
  | .rel => .rel r
  | .aop => .aop r
  | .acas => .acas r
  | .afadd => .afadd r
  | .cmb => .cmb r
  | .cmbi => .cmbi r
  | .ared => .ared r
  | .mldb => .mldb r
  | .mtask => .mtask r
  | .mrow => .mrow r
  | .macc => .macc r
  | .meor => .meor r
  | .mspl => .mspl r
  | .mrst => .mrst r
  | .mzro => .mzro r
  | .mpln => .mpln r
  | .mqry => .mqry r
  | .mcut => .mcut r
  | .cpy => .cpy r
  | .cpyq => .cpyq r
  | .twall => .twall r
  | .twany => .twany r
  | .tffr => .tffr r
  | .tclr => .tclr r
  | .bari => .bari r
  | .barv => .barv r
  | .barw => .barw r
  | .barq => .barq r
  | .collGather => .collGather r
  | .collRsum => .collRsum r
  | .collAsum => .collAsum r
  | .collBcast => .collBcast r
  | .cxpt => .cxpt r
  | .xsect => .xsect r
  | .fibrd => .fibrd r
  | .fibwr => .fibwr r
  | .stopn => .stopn r
  | .spacc => .spacc r
  | .spfl => .spfl r
  | .pxlt => .pxlt r
  | .kvapp => .kvapp r
  | .kvlen => .kvlen r
  | .smxm => .smxm r
  | .smxf => .smxf r
  | .phase => .phase r
  | .phend => .phend r
  | .ball => .ball r
  | .crd => .crd r
  | .cwr => .cwr r
  | .tlbi => .tlbi r
  | .tlbs => .tlbs r
  | .iret => .iret r
  | .prio => .prio r
  | .ctxlLoad => .ctxlLoad r
  | .ctxlResume => .ctxlResume r
  | .ctxe => .ctxe r
  | .retryPort => .retryPort r
  | .retryFrame => .retryFrame r
  | .wfe => .wfe r
  | .evsig => .evsig r
  | .migr => .migr r
  | .thrt => .thrt r

/-- The form and the record fields of an instruction; none for a device event. -/
def Instr.record? (i : Instr) : Option (Op × Rec) :=
  match i with
  | .nop r => some (.nop, r)
  | .exitOp r => some (.exitOp, r)
  | .exitp r => some (.exitp, r)
  | .exitx r => some (.exitx, r)
  | .pass r => some (.pass, r)
  | .gate r => some (.gate, r)
  | .steer r => some (.steer, r)
  | .mergeOp r => some (.mergeOp, r)
  | .litOp r => some (.litOp, r)
  | .tget r => some (.tget, r)
  | .tset r => some (.tset, r)
  | .callb r => some (.callb, r)
  | .retb r => some (.retb, r)
  | .trap r => some (.trap, r)
  | .brk r => some (.brk, r)
  | .add r => some (.add, r)
  | .sub r => some (.sub, r)
  | .mul r => some (.mul, r)
  | .mulh r => some (.mulh, r)
  | .mad r => some (.mad, r)
  | .div r => some (.div, r)
  | .rem r => some (.rem, r)
  | .neg r => some (.neg, r)
  | .abs r => some (.abs, r)
  | .min r => some (.min, r)
  | .max r => some (.max, r)
  | .shl r => some (.shl, r)
  | .shr r => some (.shr, r)
  | .andOp r => some (.andOp, r)
  | .orOp r => some (.orOp, r)
  | .xorOp r => some (.xorOp, r)
  | .notOp r => some (.notOp, r)
  | .popc r => some (.popc, r)
  | .clz r => some (.clz, r)
  | .brev r => some (.brev, r)
  | .bext r => some (.bext, r)
  | .bins r => some (.bins, r)
  | .rot r => some (.rot, r)
  | .cmp r => some (.cmp, r)
  | .selp r => some (.selp, r)
  | .clamp r => some (.clamp, r)
  | .cgetf r => some (.cgetf, r)
  | .csetb r => some (.csetb, r)
  | .cinc r => some (.cinc, r)
  | .csetc r => some (.csetc, r)
  | .cperm r => some (.cperm, r)
  | .cseal r => some (.cseal, r)
  | .cunseal r => some (.cunseal, r)
  | .ctag r => some (.ctag, r)
  | .cdiff r => some (.cdiff, r)
  | .cderiv r => some (.cderiv, r)
  | .fadd r => some (.fadd, r)
  | .fsub r => some (.fsub, r)
  | .fmul r => some (.fmul, r)
  | .ffma r => some (.ffma, r)
  | .fdiv r => some (.fdiv, r)
  | .fsqrt r => some (.fsqrt, r)
  | .frsq r => some (.frsq, r)
  | .fmin r => some (.fmin, r)
  | .fmax r => some (.fmax, r)
  | .fcmp r => some (.fcmp, r)
  | .fcls r => some (.fcls, r)
  | .fcvt r => some (.fcvt, r)
  | .icvt r => some (.icvt, r)
  | .frnd r => some (.frnd, r)
  | .vadd r => some (.vadd, r)
  | .vsub r => some (.vsub, r)
  | .vmul r => some (.vmul, r)
  | .vfma r => some (.vfma, r)
  | .vmin r => some (.vmin, r)
  | .vmax r => some (.vmax, r)
  | .vscl r => some (.vscl, r)
  | .vcmp r => some (.vcmp, r)
  | .vsel r => some (.vsel, r)
  | .vbit r => some (.vbit, r)
  | .vshf r => some (.vshf, r)
  | .vsum r => some (.vsum, r)
  | .vdot r => some (.vdot, r)
  | .vrmax r => some (.vrmax, r)
  | .vperm r => some (.vperm, r)
  | .vbcst r => some (.vbcst, r)
  | .vext r => some (.vext, r)
  | .vins r => some (.vins, r)
  | .vcvt r => some (.vcvt, r)
  | .vqnt r => some (.vqnt, r)
  | .vexp r => some (.vexp, r)
  | .vln r => some (.vln, r)
  | .vrcp r => some (.vrcp, r)
  | .vrsq r => some (.vrsq, r)
  | .vact r => some (.vact, r)
  | .hfwd r => some (.hfwd, r)
  | .hinv r => some (.hinv, r)
  | .hthr r => some (.hthr, r)
  | .hrec r => some (.hrec, r)
  | .hget r => some (.hget, r)
  | .htag r => some (.htag, r)
  | .hbias r => some (.hbias, r)
  | .hspan r => some (.hspan, r)
  | .hcnt r => some (.hcnt, r)
  | .rrd r => some (.rrd, r)
  | .rwr r => some (.rwr, r)
  | .radv r => some (.radv, r)
  | .wadv r => some (.wadv, r)
  | .rfill r => some (.rfill, r)
  | .falloc r => some (.falloc, r)
  | .ffree r => some (.ffree, r)
  | .flds r => some (.flds, r)
  | .fsts r => some (.fsts, r)
  | .sendt r => some (.sendt, r)
  | .tagn r => some (.tagn, r)
  | .tagr r => some (.tagr, r)
  | .dmd r => some (.dmd, r)
  | .dget r => some (.dget, r)
  | .dxfm r => some (.dxfm, r)
  | .stime r => some (.stime, r)
  | .stset r => some (.stset, r)
  | .land r => some (.land, r)
  | .lfind r => some (.lfind, r)
  | .lrest r => some (.lrest, r)
  | .silent r => some (.silent, r)
  | .ddone r => some (.ddone, r)
  | .ld r => some (.ld, r)
  | .st r => some (.st, r)
  | .ldc r => some (.ldc, r)
  | .stc r => some (.stc, r)
  | .ldq r => some (.ldq, r)
  | .stq r => some (.stq, r)
  | .pref r => some (.pref, r)
  | .ldx r => some (.ldx, r)
  | .stx r => some (.stx, r)
  | .lds r => some (.lds, r)
  | .sts r => some (.sts, r)
  | .fence r => some (.fence, r)
  | .acq r => some (.acq, r)
  | .rel r => some (.rel, r)
  | .aop r => some (.aop, r)
  | .acas r => some (.acas, r)
  | .afadd r => some (.afadd, r)
  | .cmb r => some (.cmb, r)
  | .cmbi r => some (.cmbi, r)
  | .ared r => some (.ared, r)
  | .mldb r => some (.mldb, r)
  | .mtask r => some (.mtask, r)
  | .mrow r => some (.mrow, r)
  | .macc r => some (.macc, r)
  | .meor r => some (.meor, r)
  | .mspl r => some (.mspl, r)
  | .mrst r => some (.mrst, r)
  | .mzro r => some (.mzro, r)
  | .mpln r => some (.mpln, r)
  | .mqry r => some (.mqry, r)
  | .mcut r => some (.mcut, r)
  | .cpy r => some (.cpy, r)
  | .cpyq r => some (.cpyq, r)
  | .twall r => some (.twall, r)
  | .twany r => some (.twany, r)
  | .tffr r => some (.tffr, r)
  | .tclr r => some (.tclr, r)
  | .bari r => some (.bari, r)
  | .barv r => some (.barv, r)
  | .barw r => some (.barw, r)
  | .barq r => some (.barq, r)
  | .collGather r => some (.collGather, r)
  | .collRsum r => some (.collRsum, r)
  | .collAsum r => some (.collAsum, r)
  | .collBcast r => some (.collBcast, r)
  | .cxpt r => some (.cxpt, r)
  | .xsect r => some (.xsect, r)
  | .fibrd r => some (.fibrd, r)
  | .fibwr r => some (.fibwr, r)
  | .stopn r => some (.stopn, r)
  | .spacc r => some (.spacc, r)
  | .spfl r => some (.spfl, r)
  | .pxlt r => some (.pxlt, r)
  | .kvapp r => some (.kvapp, r)
  | .kvlen r => some (.kvlen, r)
  | .smxm r => some (.smxm, r)
  | .smxf r => some (.smxf, r)
  | .phase r => some (.phase, r)
  | .phend r => some (.phend, r)
  | .ball r => some (.ball, r)
  | .crd r => some (.crd, r)
  | .cwr r => some (.cwr, r)
  | .tlbi r => some (.tlbi, r)
  | .tlbs r => some (.tlbs, r)
  | .iret r => some (.iret, r)
  | .prio r => some (.prio, r)
  | .ctxlLoad r => some (.ctxlLoad, r)
  | .ctxlResume r => some (.ctxlResume, r)
  | .ctxe r => some (.ctxe, r)
  | .retryPort r => some (.retryPort, r)
  | .retryFrame r => some (.retryFrame, r)
  | .wfe r => some (.wfe, r)
  | .evsig r => some (.evsig, r)
  | .migr r => some (.migr, r)
  | .thrt r => some (.thrt, r)
  | .schedulerChoice => none
  | .blockFetch => none
  | .predictorFetch => none
  | .activationEnd => none
  | .commitMoment => none
  | .tokenMatch => none
  | .backpressuredTokenRetry => none
  | .combiningTokenArrival => none
  | .sinkTokenArrival => none
  | .sinkDemandRelease => none
  | .hostDemandPost => none
  | .hdRefRead => none
  | .demandReduce => none
  | .rtfBlockFire => none
  | .issueCounterFire => none
  | .unboundedIntervalStart => none
  | .storeLimitDouble => none
  | .cloneWindowCheck => none
  | .storePerform => none
  | .loadReturn => none
  | .atomicPerform => none
  | .releaseIncrement => none
  | .pageWalkComplete => none
  | .portWindowUpdate => none
  | .migrationSwitch => none
  | .movedReissue => none
  | .hbmBandChange => none
  | .hostMemRead => none
  | .hostMemWrite => none
  | .peerRequest => none
  | .engineOpStart => none
  | .engineOpComplete => none
  | .barrierContribution => none
  | .collChunkArrival => none
  | .flitReceive => none
  | .linkRetrain => none
  | .lkErrRead => none
  | .nodeRelease => none
  | .taskIssue => none
  | .declaredStartSlot => none
  | .rowTagApply => none
  | .powerWindowOpen => none
  | .powerWindowClose => none
  | .macroFailure => none
  | .hwDatapathError => none
  | .poolUncorrectable => none
  | .elementFailure => none
  | .contextReplay => none
  | .linePoison => none
  | .undervoltUe => none
  | .linkLost => none
  | .evictionSave => none
  | .evictionComplete => none
  | .residencyRequest => none
  | .ctxlLoadDone => none
  | .tlbiInvalidate => none
  | .tlbiDrainComplete => none
  | .thermalSample => none
  | .undervoltCheck => none
  | .safePointTimer => none
  | .floorLockExpire => none
  | .powerControlTick => none
  | .slopeBoundExpire => none
  | .kpStep => none
  | .powerLimitDouble => none
  | .staggerSlot => none
  | .ballastBurstEnd => none
  | .newelEventTake => none
  | .eventQueue => none
  | .ageingLimitPass => none
  | .hmGo => none
  | .mailboxRequestEnd => none
  | .haGo => none
  | .attestReportComplete => none
  | .reset => none
  | .registerWrite => none
  | .stallCounterStep => none
  | .epochCountAdvance => none
  | .ucieLinkTraining => none
  | .sliceFailure => none

/-- What a device event is about: an event reads the fields that its row of Instr names as its subject, and no other. -/
structure Subject where
  u     : UnitId
  c     : Nat
  e     : Nat
  k     : Nat
  id    : Nat
  off   : Nat
  len   : Nat
  flag  : Bool
  edge  : EdgeRef
  ptr   : BlockPtr
  port  : PortId
  data  : BitVec 256
  bytes : List Byte
  temps : List (BitVec 16)
  ext   : Ext
  flit  : Flit
  chunk : Chunk
  peer  : PeerReq
  resid : Residency
  mail  : MailboxRead
  boot  : Boot
  draw  : Draw
  deriving DecidableEq, Repr, Inhabited

/-- What moves next: a device event with its subject, or the firing of record j of the activation that unit u executes
(02 R33). -/
inductive MoveKind where
  | event (i : Instr) (x : Subject) | fire (u : UnitId) (j : Nat)
  deriving DecidableEq, Repr, Inhabited

/-- A coming move with the steps and the nanoseconds that pass before it (00 R2; log 1, log 6). -/
structure Move where
  steps : Nat
  ns    : Nat
  kind  : MoveKind
  deriving DecidableEq, Repr, Inhabited

end Sys2Proof
end

