-- ==== Sys2Proof/Decode.lean ====
section
/-! DEFINITION. Node records decoded and encoded (06 R111 to R121). Decoding is total: a record that is no valid
instruction gives the fault code of R120. -/
namespace Sys2Proof

/-- What an entry says of a destination field (06 R112). -/
inductive DestRule where
  | absent | required | optional | portOnly
  deriving DecidableEq, Repr, Inhabited

/-- An instruction entry: bit f of fns is set when FN = f is assigned; bit t of scalar, course or pair when TY = t is
admitted at that SH; bit s of selA or selB when that selector is admitted; ax and lit name the bits the entry defines. -/
structure Form where
  fns    : BitVec 16
  scalar : BitVec 16
  course : BitVec 16
  pair   : BitVec 16
  selA   : BitVec 16
  selB   : BitVec 16
  d0     : DestRule
  d1     : DestRule
  ax     : BitVec 13
  lit    : BitVec 32
  deriving DecidableEq, Repr, Inhabited

/-- The entry of each form: which FN, TY at each SH, selectors, destinations, AX and LIT bits it admits or defines
(06 R112, R117, R118; each form's entry in 04, 08, 09, 11, 13, 15, 17, 20 and 22). -/
def Op.form (o : Op) : Form :=
  match o with
  | .nop => ⟨0x1, 0x1, 0x0, 0x0, 0x400, 0x400, .absent, .absent, 0x0, 0x0⟩
  | .exitOp => ⟨0x1, 0x1, 0x0, 0x0, 0x3FFF, 0x200, .absent, .absent, 0x0, 0x7⟩
  | .exitp => ⟨0x1, 0x1, 0x0, 0x0, 0x3FFF, 0x3DFF, .absent, .absent, 0x0, 0x3F⟩
  | .exitx => ⟨0x1, 0x2, 0x0, 0x0, 0x3FFF, 0x400, .absent, .absent, 0x0, 0x0⟩
  | .pass => ⟨0x1, 0x1, 0x1, 0x2000, 0x3FFF, 0x400, .required, .optional, 0x0, 0x0⟩
  | .gate => ⟨0x3, 0x1, 0x1, 0x2000, 0x3FFF, 0x3FFF, .required, .optional, 0x0, 0x0⟩
  | .steer => ⟨0x1, 0x1, 0x1, 0x2000, 0x3FFF, 0x3FFF, .required, .required, 0x0, 0x0⟩
  | .mergeOp => ⟨0x1, 0x1, 0x1, 0x2000, 0x1, 0x1, .required, .optional, 0x0, 0x0⟩
  | .litOp => ⟨0x1, 0x1FF, 0x0, 0x0, 0x200, 0x400, .required, .optional, 0x0, 0x0⟩
  | .tget => ⟨0x1, 0x2, 0x0, 0x0, 0x401, 0x200, .required, .optional, 0x0, 0x3⟩
  | .tset => ⟨0x1, 0x2, 0x0, 0x0, 0x3FFF, 0x3FFF, .required, .optional, 0x0, 0x0⟩
  | .callb => ⟨0x1, 0x0, 0x0, 0x2000, 0x3FFF, 0x400, .absent, .absent, 0x0, 0x0⟩
  | .retb => ⟨0x1, 0x1, 0x0, 0x0, 0x3FFF, 0x400, .absent, .absent, 0x0, 0x0⟩
  | .trap => ⟨0x1, 0x1, 0x0, 0x0, 0x3FFF, 0x200, .absent, .absent, 0x0, 0xFFFF⟩
  | .brk => ⟨0x1, 0x1, 0x0, 0x0, 0x3FFF, 0x200, .absent, .absent, 0x0, 0xFFFF⟩
  | .add => ⟨0x3, 0xFF, 0x0, 0x0, 0x3FFF, 0x3FFF, .required, .optional, 0x0, 0x0⟩
  | .sub => ⟨0x3, 0xFF, 0x0, 0x0, 0x3FFF, 0x3FFF, .required, .optional, 0x0, 0x0⟩
  | .mul => ⟨0x3, 0xFF, 0x0, 0x0, 0x3FFF, 0x3FFF, .required, .optional, 0x0, 0x0⟩
  | .mulh => ⟨0x1, 0xFF, 0x0, 0x0, 0x3FFF, 0x3FFF, .required, .optional, 0x0, 0x0⟩
  | .mad => ⟨0x3, 0xFF, 0x0, 0x0, 0x37FF, 0x37FF, .required, .optional, 0x7, 0x0⟩
  | .div => ⟨0x1, 0xFF, 0x0, 0x0, 0x3FFF, 0x3FFF, .required, .optional, 0x0, 0x0⟩
  | .rem => ⟨0x1, 0xFF, 0x0, 0x0, 0x3FFF, 0x3FFF, .required, .optional, 0x0, 0x0⟩
  | .neg => ⟨0x3, 0xFF, 0x0, 0x0, 0x3FFF, 0x400, .required, .optional, 0x0, 0x0⟩
  | .abs => ⟨0x3, 0xFF, 0x0, 0x0, 0x3FFF, 0x400, .required, .optional, 0x0, 0x0⟩
  | .min => ⟨0x1, 0xFF, 0x0, 0x0, 0x3FFF, 0x3FFF, .required, .optional, 0x0, 0x0⟩
  | .max => ⟨0x1, 0xFF, 0x0, 0x0, 0x3FFF, 0x3FFF, .required, .optional, 0x0, 0x0⟩
  | .shl => ⟨0x3, 0xFF, 0x0, 0x0, 0x3FFF, 0x3FFF, .required, .optional, 0x0, 0x0⟩
  | .shr => ⟨0x3, 0xFF, 0x0, 0x0, 0x3FFF, 0x3FFF, .required, .optional, 0x0, 0x0⟩
  | .andOp => ⟨0x1, 0xFF, 0x0, 0x0, 0x3FFF, 0x3FFF, .required, .optional, 0x0, 0x0⟩
  | .orOp => ⟨0x1, 0xFF, 0x0, 0x0, 0x3FFF, 0x3FFF, .required, .optional, 0x0, 0x0⟩
  | .xorOp => ⟨0x1, 0xFF, 0x0, 0x0, 0x3FFF, 0x3FFF, .required, .optional, 0x0, 0x0⟩
  | .notOp => ⟨0x1, 0xFF, 0x0, 0x0, 0x3FFF, 0x400, .required, .optional, 0x0, 0x0⟩
  | .popc => ⟨0x1, 0xFF, 0x0, 0x0, 0x3FFF, 0x400, .required, .optional, 0x0, 0x0⟩
  | .clz => ⟨0x1, 0xFF, 0x0, 0x0, 0x3FFF, 0x400, .required, .optional, 0x0, 0x0⟩
  | .brev => ⟨0x1, 0xFF, 0x0, 0x0, 0x3FFF, 0x400, .required, .optional, 0x0, 0x0⟩
  | .bext => ⟨0x1, 0xFF, 0x0, 0x0, 0x3FFF, 0x200, .required, .optional, 0x0, 0x3F3F⟩
  | .bins => ⟨0x1, 0xFF, 0x0, 0x0, 0x3FFF, 0x3FFF, .required, .optional, 0x0, 0x3F3F⟩
  | .rot => ⟨0x3, 0xFF, 0x0, 0x0, 0x3FFF, 0x3FFF, .required, .optional, 0x0, 0x0⟩
  | .cmp => ⟨0x3F, 0xFF, 0x0, 0x0, 0x3FFF, 0x3FFF, .required, .optional, 0x0, 0x0⟩
  | .selp => ⟨0x1, 0x7FF, 0x0, 0x0, 0x37FF, 0x37FF, .required, .optional, 0x7, 0x0⟩
  | .clamp => ⟨0x1, 0xFF, 0x0, 0x0, 0x37FF, 0x37FF, .required, .optional, 0x7, 0x0⟩
  | .cgetf => ⟨0xFF, 0x0, 0x0, 0x2000, 0x3FFF, 0x400, .required, .optional, 0x0, 0x0⟩
  | .csetb => ⟨0x3, 0x0, 0x0, 0x2000, 0x3FFF, 0x3FFF, .required, .optional, 0x0, 0x0⟩
  | .cinc => ⟨0x1, 0x0, 0x0, 0x2000, 0x3FFF, 0x3FFF, .required, .optional, 0x0, 0x0⟩
  | .csetc => ⟨0x1, 0x0, 0x0, 0x2000, 0x3FFF, 0x3FFF, .required, .optional, 0x0, 0x0⟩
  | .cperm => ⟨0x1, 0x0, 0x0, 0x2000, 0x3FFF, 0x3FFF, .required, .optional, 0x0, 0x0⟩
  | .cseal => ⟨0x1, 0x0, 0x0, 0x2000, 0x3FFF, 0x3FFF, .required, .optional, 0x0, 0x0⟩
  | .cunseal => ⟨0x1, 0x0, 0x0, 0x2000, 0x3FFF, 0x3FFF, .required, .optional, 0x0, 0x0⟩
  | .ctag => ⟨0x3, 0x0, 0x0, 0x2000, 0x3FFF, 0x400, .required, .optional, 0x0, 0x0⟩
  | .cdiff => ⟨0x1, 0x0, 0x0, 0x2000, 0x3FFF, 0x3FFF, .required, .optional, 0x0, 0x0⟩
  | .cderiv => ⟨0x1, 0x0, 0x0, 0x2000, 0x3FFF, 0x400, .required, .optional, 0x0, 0x0⟩
  | .fadd => ⟨0xFFF, 0x700, 0x0, 0x0, 0x3FFF, 0x3FFF, .required, .optional, 0x0, 0x0⟩
  | .fsub => ⟨0xFFF, 0x700, 0x0, 0x0, 0x3FFF, 0x3FFF, .required, .optional, 0x0, 0x0⟩
  | .fmul => ⟨0xFFF, 0x700, 0x0, 0x0, 0x3FFF, 0x3FFF, .required, .optional, 0x0, 0x0⟩
  | .ffma => ⟨0xFFF, 0x700, 0x0, 0x0, 0x37FF, 0x37FF, .required, .optional, 0x7, 0x0⟩
  | .fdiv => ⟨0xFFF, 0x700, 0x0, 0x0, 0x3FFF, 0x3FFF, .required, .optional, 0x0, 0x0⟩
  | .fsqrt => ⟨0xFFF, 0x700, 0x0, 0x0, 0x3FFF, 0x400, .required, .optional, 0x0, 0x0⟩
  | .frsq => ⟨0x111, 0x700, 0x0, 0x0, 0x3FFF, 0x400, .required, .optional, 0x0, 0x0⟩
  | .fmin => ⟨0x111, 0x700, 0x0, 0x0, 0x3FFF, 0x3FFF, .required, .optional, 0x0, 0x0⟩
  | .fmax => ⟨0x111, 0x700, 0x0, 0x0, 0x3FFF, 0x3FFF, .required, .optional, 0x0, 0x0⟩
  | .fcmp => ⟨0x7F, 0x700, 0x0, 0x0, 0x3FFF, 0x3FFF, .required, .optional, 0x0, 0x0⟩
  | .fcls => ⟨0x1, 0x700, 0x0, 0x0, 0x3FFF, 0x400, .required, .optional, 0x0, 0x0⟩
  | .fcvt => ⟨0xF, 0x7FFF, 0x0, 0x0, 0x3FFF, 0x400, .required, .optional, 0x0, 0xF⟩
  | .icvt => ⟨0xF, 0x7FFF, 0x0, 0x0, 0x3FFF, 0x400, .required, .optional, 0x0, 0xF⟩
  | .frnd => ⟨0xF, 0x700, 0x0, 0x0, 0x3FFF, 0x400, .required, .optional, 0x0, 0x0⟩
  | .vadd => ⟨0x3, 0x0, 0x1FFF, 0x0, 0x9FF, 0xFFF, .required, .optional, 0x0, 0x0⟩
  | .vsub => ⟨0x3, 0x0, 0x1FFF, 0x0, 0x9FF, 0xFFF, .required, .optional, 0x0, 0x0⟩
  | .vmul => ⟨0x3, 0x0, 0x1FFF, 0x0, 0x9FF, 0xFFF, .required, .optional, 0x0, 0x0⟩
  | .vfma => ⟨0x3, 0x0, 0x1FFF, 0x0, 0x1FF, 0x7FF, .required, .optional, 0x7, 0x0⟩
  | .vmin => ⟨0x1, 0x0, 0x1FFF, 0x0, 0x9FF, 0xFFF, .required, .optional, 0x0, 0x0⟩
  | .vmax => ⟨0x1, 0x0, 0x1FFF, 0x0, 0x9FF, 0xFFF, .required, .optional, 0x0, 0x0⟩
  | .vscl => ⟨0x1, 0x0, 0x1FFF, 0x0, 0x9FF, 0xFFF, .required, .optional, 0x0, 0x0⟩
  | .vcmp => ⟨0x3F, 0x0, 0x1FFF, 0x0, 0x9FF, 0xFFF, .required, .optional, 0x0, 0x0⟩
  | .vsel => ⟨0x1, 0x0, 0x1FFF, 0x0, 0x1FF, 0x7FF, .required, .optional, 0x7, 0x0⟩
  | .vbit => ⟨0x7, 0x0, 0xFF, 0x0, 0x9FF, 0xFFF, .required, .optional, 0x0, 0x0⟩
  | .vshf => ⟨0x3, 0x0, 0x1FFF, 0x0, 0x9FF, 0x200, .required, .optional, 0x0, 0x7F⟩
  | .vsum => ⟨0x1, 0x0, 0x1FFF, 0x0, 0x9FF, 0x400, .required, .optional, 0x0, 0x0⟩
  | .vdot => ⟨0x1, 0x0, 0x1FFF, 0x0, 0x9FF, 0x9FF, .required, .optional, 0x0, 0x0⟩
  | .vrmax => ⟨0x1, 0x0, 0x1FFF, 0x0, 0x9FF, 0x400, .required, .optional, 0x0, 0x0⟩
  | .vperm => ⟨0x1, 0x0, 0xFFF, 0x0, 0x9FF, 0x9FF, .required, .optional, 0x0, 0x0⟩
  | .vbcst => ⟨0x1, 0x0, 0x1FFF, 0x0, 0xFFF, 0x400, .required, .optional, 0x0, 0x0⟩
  | .vext => ⟨0x1, 0x0, 0x1FFF, 0x0, 0x9FF, 0x400, .required, .optional, 0x0, 0x7F⟩
  | .vins => ⟨0x1, 0x0, 0x1FFF, 0x0, 0x9FF, 0xDFF, .required, .optional, 0x0, 0x7F⟩
  | .vcvt => ⟨0xF, 0x0, 0x1FFC, 0x0, 0x800, 0x400, .optional, .absent, 0x0, 0x1FFF⟩
  | .vqnt => ⟨0x1F, 0x0, 0x1F00, 0x0, 0x9FF, 0xFFF, .required, .optional, 0x0, 0x0⟩
  | .vexp => ⟨0x1, 0x0, 0x1F00, 0x0, 0x9FF, 0x400, .required, .optional, 0x0, 0x0⟩
  | .vln => ⟨0x1, 0x0, 0x1F00, 0x0, 0x9FF, 0x400, .required, .optional, 0x0, 0x0⟩
  | .vrcp => ⟨0x1, 0x0, 0x1F00, 0x0, 0x9FF, 0x400, .required, .optional, 0x0, 0x0⟩
  | .vrsq => ⟨0x1, 0x0, 0x1F00, 0x0, 0x9FF, 0x400, .required, .optional, 0x0, 0x0⟩
  | .vact => ⟨0x1F, 0x0, 0x1F00, 0x0, 0x9FF, 0x400, .required, .optional, 0x0, 0x0⟩
  | .hfwd => ⟨0x1, 0x0, 0x1F00, 0x0, 0x800, 0x400, .optional, .absent, 0x0, 0xFFFF⟩
  | .hinv => ⟨0x1, 0x0, 0x1F00, 0x0, 0x800, 0x400, .optional, .absent, 0x0, 0xFFFF⟩
  | .hthr => ⟨0x1, 0x0, 0x1F00, 0x0, 0x9FF, 0x400, .required, .optional, 0x0, 0x7⟩
  | .hrec => ⟨0x1, 0x0, 0x1F00, 0x0, 0x800, 0x400, .required, .optional, 0x0, 0x77F⟩
  | .hget => ⟨0x1, 0x0, 0x2, 0x0, 0x9FF, 0x400, .required, .optional, 0x0, 0x0⟩
  | .htag => ⟨0x1, 0x0, 0x1FFF, 0x0, 0x9FF, 0xFFF, .required, .optional, 0x0, 0x0⟩
  | .hbias => ⟨0x1, 0x0, 0x1F00, 0x0, 0x1FF, 0x7FF, .required, .optional, 0x7, 0x0⟩
  | .hspan => ⟨0x1, 0x0, 0x2, 0x0, 0x9FF, 0x400, .required, .optional, 0x0, 0x7⟩
  | .hcnt => ⟨0x1, 0x0, 0x1FFF, 0x0, 0x9FF, 0x400, .required, .optional, 0x0, 0x0⟩
  | .rrd => ⟨0x1, 0x47FF, 0x1FFF, 0x2000, 0x37FF, 0x400, .required, .optional, 0x0, 0xF⟩
  | .rwr => ⟨0x1, 0x47FF, 0x1FFF, 0x2000, 0x35FF, 0x37FF, .optional, .absent, 0x0, 0xF⟩
  | .radv => ⟨0x1, 0x2, 0x0, 0x0, 0x37FF, 0x400, .optional, .absent, 0x0, 0x3FF⟩
  | .wadv => ⟨0x1, 0x2, 0x0, 0x0, 0x37FF, 0x400, .optional, .absent, 0x0, 0x3FF⟩
  | .rfill => ⟨0x1, 0x2, 0x0, 0x0, 0x37FF, 0x400, .required, .optional, 0x0, 0xF⟩
  | .falloc => ⟨0x1, 0x2, 0x0, 0x0, 0x3DFF, 0x3DFF, .absent, .absent, 0x0, 0xFFF⟩
  | .ffree => ⟨0x1, 0x2, 0x0, 0x0, 0x3DFF, 0x3DFF, .absent, .absent, 0x0, 0xFFF⟩
  | .flds => ⟨0x1, 0x47FF, 0x1FFF, 0x2000, 0x3DFF, 0x3DFF, .required, .optional, 0x0, 0x1FFFF⟩
  | .fsts => ⟨0x1, 0x47FF, 0x1FFF, 0x2000, 0x3DFF, 0x3DFF, .absent, .absent, 0x0, 0x1FFFF⟩
  | .sendt => ⟨0x1, 0x1, 0x1, 0x2000, 0x3FFF, 0x3FFF, .absent, .absent, 0x0, 0xF⟩
  | .tagn => ⟨0x1, 0x2, 0x0, 0x0, 0x3FFF, 0x400, .required, .optional, 0x0, 0x0⟩
  | .tagr => ⟨0x1, 0x2, 0x0, 0x0, 0x3FFF, 0x400, .absent, .absent, 0x0, 0x0⟩
  | .dmd => ⟨0x1, 0x1, 0x0, 0x0, 0x3DFF, 0x3DFF, .optional, .absent, 0x0, 0x7F⟩
  | .dget => ⟨0x3, 0x0, 0x0, 0x1, 0x3FFF, 0x400, .optional, .optional, 0x0, 0x0⟩
  | .dxfm => ⟨0x1, 0x0, 0x0, 0x1, 0x3FFF, 0x3FFF, .optional, .optional, 0x0, 0x1FFFFF⟩
  | .stime => ⟨0x1, 0x1, 0x0, 0x0, 0x3FFF, 0x400, .optional, .optional, 0x0, 0x0⟩
  | .stset => ⟨0x1, 0x1, 0x0, 0x0, 0x3FFF, 0x3FFF, .optional, .optional, 0x0, 0x0⟩
  | .land => ⟨0x1, 0x0, 0x0, 0x2000, 0x3FFF, 0x3FFF, .absent, .absent, 0x0, 0xFFF⟩
  | .lfind => ⟨0x1, 0x1, 0x0, 0x0, 0x3FFF, 0x400, .optional, .optional, 0x0, 0x0⟩
  | .lrest => ⟨0x1, 0x0, 0x0, 0x2000, 0x3FFF, 0x3FFF, .absent, .absent, 0x0, 0xFFF⟩
  | .silent => ⟨0x1, 0x2, 0x0, 0x0, 0x3FFF, 0x400, .optional, .optional, 0x0, 0x0⟩
  | .ddone => ⟨0x1, 0x1, 0x0, 0x0, 0x3DFF, 0x3DFF, .absent, .absent, 0x0, 0xF⟩
  | .ld => ⟨0x1, 0x47FF, 0x1FFF, 0x2000, 0x3FFF, 0x200, .optional, .optional, 0x0, 0xFFFFFFFF⟩
  | .st => ⟨0x1, 0x47FF, 0x1FFF, 0x2000, 0x35FF, 0x37FF, .absent, .absent, 0xF, 0xFFFFFFFF⟩
  | .ldc => ⟨0x1, 0x0, 0x100, 0x0, 0x37FF, 0x200, .optional, .optional, 0x7, 0xFFFFFFFF⟩
  | .stc => ⟨0x1, 0x0, 0x1E00, 0x0, 0x800, 0x3FFF, .absent, .absent, 0x0, 0xFFFFFFFF⟩
  | .ldq => ⟨0x1, 0x0, 0x1FFF, 0x0, 0x37FF, 0x400, .absent, .absent, 0x7, 0xF⟩
  | .stq => ⟨0x1, 0x0, 0x1FFF, 0x0, 0x400, 0x37FF, .absent, .absent, 0x7, 0xF⟩
  | .pref => ⟨0x1, 0x1, 0x0, 0x0, 0x3FFF, 0x200, .absent, .absent, 0x0, 0xFFFFFFFF⟩
  | .ldx => ⟨0x1, 0x0, 0x10F, 0x0, 0x3FFF, 0x3FFF, .optional, .optional, 0x0, 0x0⟩
  | .stx => ⟨0x1, 0x0, 0x10F, 0x0, 0x37FF, 0x37FF, .absent, .absent, 0x7, 0x0⟩
  | .lds => ⟨0x1, 0x3, 0x0, 0x0, 0x3FFF, 0x200, .optional, .optional, 0x0, 0xFFFFFFFF⟩
  | .sts => ⟨0x1, 0x3, 0x0, 0x0, 0x3DFF, 0x3FFF, .absent, .absent, 0x0, 0xFFFFFFFF⟩
  | .fence => ⟨0x1, 0x2, 0x0, 0x0, 0x37FF, 0x400, .optional, .absent, 0x7, 0x0⟩
  | .acq => ⟨0x1, 0x2, 0x0, 0x0, 0x37FF, 0x37FF, .optional, .optional, 0x7, 0x0⟩
  | .rel => ⟨0x1, 0x2, 0x0, 0x0, 0x37FF, 0x400, .absent, .absent, 0x7, 0x0⟩
  | .aop => ⟨0x7F, 0xF, 0x0, 0x0, 0x3DFF, 0x3DFF, .portOnly, .absent, 0x0, 0xFFFFFFFF⟩
  | .acas => ⟨0x1, 0xF, 0x0, 0x0, 0x35FF, 0x35FF, .portOnly, .absent, 0x7, 0xFFFFFFFF⟩
  | .afadd => ⟨0x1, 0x100, 0x0, 0x0, 0x3DFF, 0x3DFF, .portOnly, .absent, 0x0, 0xFFFFFFFF⟩
  | .cmb => ⟨0x73F, 0x7FF, 0x7FF, 0x0, 0x37FF, 0x400, .absent, .absent, 0x0, 0xFFFF⟩
  | .cmbi => ⟨0x73F, 0x7FF, 0x7FF, 0x0, 0x35FF, 0x35FF, .absent, .absent, 0xFFF, 0x1FFFF⟩
  | .ared => ⟨0x73F, 0x0, 0x70F, 0x0, 0x3DFF, 0x3FFF, .absent, .absent, 0x0, 0xFFFFFFFF⟩
  | .mldb => ⟨0x3, 0x0, 0x1F00, 0x0, 0x3FFF, 0x3FFF, .absent, .absent, 0x0, 0x3FFFFF⟩
  | .mtask => ⟨0x1, 0x0, 0x4, 0x0, 0x37FF, 0x400, .absent, .absent, 0x7, 0x0⟩
  | .mrow => ⟨0x1, 0x0, 0x100, 0x0, 0x3FFF, 0x400, .required, .optional, 0x0, 0x1FFFFFF⟩
  | .macc => ⟨0x1, 0x0, 0x100, 0x0, 0x3FFF, 0x400, .absent, .absent, 0x0, 0x1FFFFFF⟩
  | .meor => ⟨0x1, 0x0, 0x2, 0x0, 0x3FFF, 0x3FFF, .absent, .absent, 0x0, 0x1FFF⟩
  | .mspl => ⟨0x1, 0x0, 0x2, 0x0, 0x3FFF, 0x400, .absent, .absent, 0x0, 0x1FFF⟩
  | .mrst => ⟨0x1, 0x0, 0x2, 0x0, 0x3FFF, 0x400, .absent, .absent, 0x0, 0x3F⟩
  | .mzro => ⟨0x1, 0x0, 0x2, 0x0, 0x3FFF, 0x400, .optional, .absent, 0x0, 0x3FFFFFF⟩
  | .mpln => ⟨0x1, 0x0, 0x2, 0x0, 0x3FFF, 0x400, .optional, .absent, 0x0, 0xF⟩
  | .mqry => ⟨0x1, 0x0, 0x2, 0x0, 0x3FFF, 0x400, .required, .optional, 0x0, 0x3F⟩
  | .mcut => ⟨0x1, 0x0, 0x2, 0x0, 0x3FFF, 0x400, .optional, .absent, 0x0, 0x1FF⟩
  | .cpy => ⟨0x1, 0x0, 0x0, 0x2, 0x5FF, 0x5FF, .absent, .absent, 0x7, 0x3FFF⟩
  | .cpyq => ⟨0x3, 0x0, 0x0, 0x800, 0x5FF, 0x5FF, .absent, .absent, 0x7, 0x3FFF⟩
  | .twall => ⟨0x1, 0x2, 0x0, 0x0, 0x3FFF, 0x3FFF, .optional, .optional, 0x0, 0x0⟩
  | .twany => ⟨0x1, 0x2, 0x0, 0x0, 0x3FFF, 0x3FFF, .optional, .optional, 0x0, 0x0⟩
  | .tffr => ⟨0x1, 0x2, 0x0, 0x0, 0x3FFF, 0x3FFF, .required, .optional, 0x0, 0x0⟩
  | .tclr => ⟨0x1, 0x2, 0x0, 0x0, 0x3FFF, 0x3FFF, .absent, .absent, 0x0, 0x0⟩
  | .bari => ⟨0x1, 0x2, 0x0, 0x0, 0x3DFF, 0x3DFF, .absent, .absent, 0x0, 0x7F⟩
  | .barv => ⟨0x1, 0x2, 0x0, 0x0, 0x3FFF, 0x3DFF, .absent, .absent, 0x0, 0xFFFF⟩
  | .barw => ⟨0x1, 0x2, 0x0, 0x0, 0x3FFF, 0x3DFF, .optional, .optional, 0x0, 0x7F⟩
  | .barq => ⟨0x1, 0x2, 0x0, 0x0, 0x3FFF, 0x400, .required, .optional, 0x0, 0x7F⟩
  | .collGather => ⟨0x1, 0x0, 0x0, 0x100, 0x5FF, 0x5FF, .absent, .absent, 0x7, 0x3FFF⟩
  | .collRsum => ⟨0x2, 0x0, 0x0, 0x100, 0x5FF, 0x5FF, .absent, .absent, 0x7, 0x3FFF⟩
  | .collAsum => ⟨0x4, 0x0, 0x0, 0x100, 0x5FF, 0x5FF, .absent, .absent, 0x7, 0x3FFF⟩
  | .collBcast => ⟨0x8, 0x0, 0x0, 0x100, 0x5FF, 0x5FF, .absent, .absent, 0x7, 0x3FFF⟩
  | .cxpt => ⟨0x1, 0x0, 0x0, 0x2, 0x5FF, 0x5FF, .absent, .absent, 0x7, 0x3FFF⟩
  | .xsect => ⟨0x1, 0x0, 0x0, 0x2, 0x37FF, 0x400, .required, .optional, 0x0, 0xFF⟩
  | .fibrd => ⟨0x1, 0x2, 0x0, 0x0, 0x37FF, 0x200, .optional, .absent, 0xF, 0xFFFFFFFF⟩
  | .fibwr => ⟨0x1, 0x2, 0x0, 0x0, 0x37FF, 0x37FF, .optional, .absent, 0xF, 0xFFFFFFFF⟩
  | .stopn => ⟨0x1, 0x2, 0x0, 0x0, 0x3FFF, 0x400, .required, .optional, 0x0, 0x0⟩
  | .spacc => ⟨0x1, 0x700, 0x0, 0x0, 0x3FFF, 0x3FFF, .absent, .absent, 0x0, 0x3⟩
  | .spfl => ⟨0x1, 0x700, 0x0, 0x0, 0x37FF, 0x400, .optional, .absent, 0xF, 0x1F⟩
  | .pxlt => ⟨0x1, 0x0, 0x0, 0x2000, 0x37FF, 0x37FF, .required, .optional, 0x7, 0xFF⟩
  | .kvapp => ⟨0x1, 0x0, 0x100, 0x0, 0x37FF, 0x37FF, .absent, .absent, 0x7, 0xF⟩
  | .kvlen => ⟨0x1, 0x1, 0x0, 0x0, 0x3FFF, 0x3FFF, .optional, .optional, 0x0, 0x3F⟩
  | .smxm => ⟨0x1, 0x0, 0x100, 0x0, 0x5FF, 0x5FF, .required, .optional, 0x3F, 0x0⟩
  | .smxf => ⟨0x1, 0x0, 0x100, 0x0, 0xDFF, 0x3FFF, .required, .optional, 0x0, 0x0⟩
  | .phase => ⟨0x1, 0x2, 0x0, 0x0, 0x3FFF, 0x400, .optional, .absent, 0x0, 0x3FFFFFFF⟩
  | .phend => ⟨0x1, 0x2, 0x0, 0x0, 0x3FFF, 0x400, .optional, .absent, 0x0, 0x0⟩
  | .ball => ⟨0x1, 0x2, 0x0, 0x0, 0x3FFF, 0x400, .optional, .absent, 0x0, 0x7⟩
  | .crd => ⟨0x1, 0x2, 0x0, 0x0, 0x3FFF, 0x400, .required, .optional, 0x0, 0x7FFFF⟩
  | .cwr => ⟨0x1, 0x2, 0x0, 0x0, 0x3FFF, 0x400, .optional, .absent, 0x0, 0x7FFFF⟩
  | .tlbi => ⟨0x1, 0x2, 0x0, 0x0, 0x3FFF, 0x3FFF, .optional, .absent, 0x0, 0x1FFFF⟩
  | .tlbs => ⟨0x1, 0x2, 0x0, 0x0, 0x3FFF, 0x400, .optional, .absent, 0x0, 0x0⟩
  | .iret => ⟨0x1, 0x2, 0x0, 0x0, 0x3FFF, 0x400, .absent, .absent, 0x0, 0x0⟩
  | .prio => ⟨0x1, 0x2, 0x0, 0x0, 0x3FFF, 0x200, .optional, .absent, 0x0, 0xFFFFFFFF⟩
  | .ctxlLoad => ⟨0x1, 0x0, 0x0, 0x2000, 0x3FFF, 0x3FFF, .required, .optional, 0x0, 0x0⟩
  | .ctxlResume => ⟨0x2, 0x0, 0x0, 0x2000, 0x3FFF, 0x400, .required, .optional, 0x0, 0x0⟩
  | .ctxe => ⟨0x1, 0x0, 0x0, 0x2000, 0x3FFF, 0x200, .required, .optional, 0x0, 0xFFFFFFFF⟩
  | .retryPort => ⟨0x1, 0x2, 0x0, 0x0, 0x3FFF, 0x400, .optional, .absent, 0x0, 0x3FFF7⟩
  | .retryFrame => ⟨0x1, 0x2, 0x0, 0x0, 0x3FFF, 0x400, .optional, .absent, 0x0, 0x3FFF7⟩
  | .wfe => ⟨0x1, 0x2, 0x0, 0x0, 0x3FFF, 0x3FFF, .required, .optional, 0x0, 0x0⟩
  | .evsig => ⟨0x1, 0x2, 0x0, 0x0, 0x3FFF, 0x400, .absent, .absent, 0x0, 0x7F⟩
  | .migr => ⟨0x1, 0x0, 0x0, 0x2000, 0x3FFF, 0x3FFF, .optional, .absent, 0x0, 0x1FFFF⟩
  | .thrt => ⟨0x1, 0x2, 0x0, 0x0, 0x3FFF, 0x3FFF, .optional, .absent, 0x0, 0x0⟩

/-- The opcode of each form (06 R117). -/
def Op.code (o : Op) : BitVec 8 :=
  match o with
  | .nop => 0x00
  | .exitOp => 0x01
  | .exitp => 0x02
  | .exitx => 0x03
  | .pass => 0x04
  | .gate => 0x05
  | .steer => 0x06
  | .mergeOp => 0x07
  | .litOp => 0x08
  | .tget => 0x09
  | .tset => 0x0A
  | .callb => 0x0B
  | .retb => 0x0C
  | .trap => 0x0D
  | .brk => 0x0E
  | .add => 0x10
  | .sub => 0x11
  | .mul => 0x12
  | .mulh => 0x13
  | .mad => 0x14
  | .div => 0x15
  | .rem => 0x16
  | .neg => 0x17
  | .abs => 0x18
  | .min => 0x19
  | .max => 0x1A
  | .shl => 0x1B
  | .shr => 0x1C
  | .andOp => 0x20
  | .orOp => 0x21
  | .xorOp => 0x22
  | .notOp => 0x23
  | .popc => 0x24
  | .clz => 0x25
  | .brev => 0x26
  | .bext => 0x27
  | .bins => 0x28
  | .rot => 0x29
  | .cmp => 0x2A
  | .selp => 0x2B
  | .clamp => 0x2C
  | .cgetf => 0x30
  | .csetb => 0x31
  | .cinc => 0x32
  | .csetc => 0x33
  | .cperm => 0x34
  | .cseal => 0x35
  | .cunseal => 0x36
  | .ctag => 0x37
  | .cdiff => 0x38
  | .cderiv => 0x39
  | .fadd => 0x40
  | .fsub => 0x41
  | .fmul => 0x42
  | .ffma => 0x43
  | .fdiv => 0x44
  | .fsqrt => 0x45
  | .frsq => 0x46
  | .fmin => 0x47
  | .fmax => 0x48
  | .fcmp => 0x49
  | .fcls => 0x4A
  | .fcvt => 0x4B
  | .icvt => 0x4C
  | .frnd => 0x4D
  | .vadd => 0x50
  | .vsub => 0x51
  | .vmul => 0x52
  | .vfma => 0x53
  | .vmin => 0x54
  | .vmax => 0x55
  | .vscl => 0x56
  | .vcmp => 0x57
  | .vsel => 0x58
  | .vbit => 0x59
  | .vshf => 0x5A
  | .vsum => 0x60
  | .vdot => 0x61
  | .vrmax => 0x62
  | .vperm => 0x63
  | .vbcst => 0x64
  | .vext => 0x65
  | .vins => 0x66
  | .vcvt => 0x67
  | .vqnt => 0x68
  | .vexp => 0x69
  | .vln => 0x6A
  | .vrcp => 0x6B
  | .vrsq => 0x6C
  | .vact => 0x6D
  | .hfwd => 0x70
  | .hinv => 0x71
  | .hthr => 0x72
  | .hrec => 0x73
  | .hget => 0x74
  | .htag => 0x75
  | .hbias => 0x76
  | .hspan => 0x77
  | .hcnt => 0x78
  | .rrd => 0x80
  | .rwr => 0x81
  | .radv => 0x82
  | .wadv => 0x83
  | .rfill => 0x84
  | .falloc => 0x85
  | .ffree => 0x86
  | .flds => 0x87
  | .fsts => 0x88
  | .sendt => 0x89
  | .tagn => 0x8A
  | .tagr => 0x8B
  | .dmd => 0x90
  | .dget => 0x91
  | .dxfm => 0x92
  | .stime => 0x93
  | .stset => 0x94
  | .land => 0x95
  | .lfind => 0x96
  | .lrest => 0x97
  | .silent => 0x98
  | .ddone => 0x99
  | .ld => 0xA0
  | .st => 0xA1
  | .ldc => 0xA2
  | .stc => 0xA3
  | .ldq => 0xA4
  | .stq => 0xA5
  | .pref => 0xA6
  | .ldx => 0xA7
  | .stx => 0xA8
  | .lds => 0xA9
  | .sts => 0xAA
  | .fence => 0xAB
  | .acq => 0xAC
  | .rel => 0xAD
  | .aop => 0xB0
  | .acas => 0xB1
  | .afadd => 0xB2
  | .cmb => 0xB3
  | .cmbi => 0xB4
  | .ared => 0xB5
  | .mldb => 0xC0
  | .mtask => 0xC1
  | .mrow => 0xC2
  | .macc => 0xC3
  | .meor => 0xC4
  | .mspl => 0xC5
  | .mrst => 0xC6
  | .mzro => 0xC7
  | .mpln => 0xC8
  | .mqry => 0xC9
  | .mcut => 0xCA
  | .cpy => 0xD0
  | .cpyq => 0xD1
  | .twall => 0xD2
  | .twany => 0xD3
  | .tffr => 0xD4
  | .tclr => 0xD5
  | .bari => 0xD6
  | .barv => 0xD7
  | .barw => 0xD8
  | .barq => 0xD9
  | .collGather => 0xDA
  | .collRsum => 0xDA
  | .collAsum => 0xDA
  | .collBcast => 0xDA
  | .cxpt => 0xDB
  | .xsect => 0xE0
  | .fibrd => 0xE1
  | .fibwr => 0xE2
  | .stopn => 0xE3
  | .spacc => 0xE4
  | .spfl => 0xE5
  | .pxlt => 0xE6
  | .kvapp => 0xE7
  | .kvlen => 0xE8
  | .smxm => 0xE9
  | .smxf => 0xEA
  | .phase => 0xF0
  | .phend => 0xF1
  | .ball => 0xF2
  | .crd => 0xF3
  | .cwr => 0xF4
  | .tlbi => 0xF5
  | .tlbs => 0xF6
  | .iret => 0xF7
  | .prio => 0xF8
  | .ctxlLoad => 0xF9
  | .ctxlResume => 0xF9
  | .ctxe => 0xFA
  | .retryPort => 0xFB
  | .retryFrame => 0xFB
  | .wfe => 0xFC
  | .evsig => 0xFD
  | .migr => 0xFE
  | .thrt => 0xFF

/-- The form that an opcode names, with FN choosing among COLL and CTXL and LIT[1:0] among RETRY (06 R117, R118; 20 R349).
An unassigned FN of COLL or CTXL gives the first form, whose own check of FN then fails. -/
def Op.ofCode (c : BitVec 8) (fn : BitVec 4) (lit : BitVec 32) : Option Op :=
  match c.toNat with
  | 0x00 => some .nop
  | 0x01 => some .exitOp
  | 0x02 => some .exitp
  | 0x03 => some .exitx
  | 0x04 => some .pass
  | 0x05 => some .gate
  | 0x06 => some .steer
  | 0x07 => some .mergeOp
  | 0x08 => some .litOp
  | 0x09 => some .tget
  | 0x0A => some .tset
  | 0x0B => some .callb
  | 0x0C => some .retb
  | 0x0D => some .trap
  | 0x0E => some .brk
  | 0x10 => some .add
  | 0x11 => some .sub
  | 0x12 => some .mul
  | 0x13 => some .mulh
  | 0x14 => some .mad
  | 0x15 => some .div
  | 0x16 => some .rem
  | 0x17 => some .neg
  | 0x18 => some .abs
  | 0x19 => some .min
  | 0x1A => some .max
  | 0x1B => some .shl
  | 0x1C => some .shr
  | 0x20 => some .andOp
  | 0x21 => some .orOp
  | 0x22 => some .xorOp
  | 0x23 => some .notOp
  | 0x24 => some .popc
  | 0x25 => some .clz
  | 0x26 => some .brev
  | 0x27 => some .bext
  | 0x28 => some .bins
  | 0x29 => some .rot
  | 0x2A => some .cmp
  | 0x2B => some .selp
  | 0x2C => some .clamp
  | 0x30 => some .cgetf
  | 0x31 => some .csetb
  | 0x32 => some .cinc
  | 0x33 => some .csetc
  | 0x34 => some .cperm
  | 0x35 => some .cseal
  | 0x36 => some .cunseal
  | 0x37 => some .ctag
  | 0x38 => some .cdiff
  | 0x39 => some .cderiv
  | 0x40 => some .fadd
  | 0x41 => some .fsub
  | 0x42 => some .fmul
  | 0x43 => some .ffma
  | 0x44 => some .fdiv
  | 0x45 => some .fsqrt
  | 0x46 => some .frsq
  | 0x47 => some .fmin
  | 0x48 => some .fmax
  | 0x49 => some .fcmp
  | 0x4A => some .fcls
  | 0x4B => some .fcvt
  | 0x4C => some .icvt
  | 0x4D => some .frnd
  | 0x50 => some .vadd
  | 0x51 => some .vsub
  | 0x52 => some .vmul
  | 0x53 => some .vfma
  | 0x54 => some .vmin
  | 0x55 => some .vmax
  | 0x56 => some .vscl
  | 0x57 => some .vcmp
  | 0x58 => some .vsel
  | 0x59 => some .vbit
  | 0x5A => some .vshf
  | 0x60 => some .vsum
  | 0x61 => some .vdot
  | 0x62 => some .vrmax
  | 0x63 => some .vperm
  | 0x64 => some .vbcst
  | 0x65 => some .vext
  | 0x66 => some .vins
  | 0x67 => some .vcvt
  | 0x68 => some .vqnt
  | 0x69 => some .vexp
  | 0x6A => some .vln
  | 0x6B => some .vrcp
  | 0x6C => some .vrsq
  | 0x6D => some .vact
  | 0x70 => some .hfwd
  | 0x71 => some .hinv
  | 0x72 => some .hthr
  | 0x73 => some .hrec
  | 0x74 => some .hget
  | 0x75 => some .htag
  | 0x76 => some .hbias
  | 0x77 => some .hspan
  | 0x78 => some .hcnt
  | 0x80 => some .rrd
  | 0x81 => some .rwr
  | 0x82 => some .radv
  | 0x83 => some .wadv
  | 0x84 => some .rfill
  | 0x85 => some .falloc
  | 0x86 => some .ffree
  | 0x87 => some .flds
  | 0x88 => some .fsts
  | 0x89 => some .sendt
  | 0x8A => some .tagn
  | 0x8B => some .tagr
  | 0x90 => some .dmd
  | 0x91 => some .dget
  | 0x92 => some .dxfm
  | 0x93 => some .stime
  | 0x94 => some .stset
  | 0x95 => some .land
  | 0x96 => some .lfind
  | 0x97 => some .lrest
  | 0x98 => some .silent
  | 0x99 => some .ddone
  | 0xA0 => some .ld
  | 0xA1 => some .st
  | 0xA2 => some .ldc
  | 0xA3 => some .stc
  | 0xA4 => some .ldq
  | 0xA5 => some .stq
  | 0xA6 => some .pref
  | 0xA7 => some .ldx
  | 0xA8 => some .stx
  | 0xA9 => some .lds
  | 0xAA => some .sts
  | 0xAB => some .fence
  | 0xAC => some .acq
  | 0xAD => some .rel
  | 0xB0 => some .aop
  | 0xB1 => some .acas
  | 0xB2 => some .afadd
  | 0xB3 => some .cmb
  | 0xB4 => some .cmbi
  | 0xB5 => some .ared
  | 0xC0 => some .mldb
  | 0xC1 => some .mtask
  | 0xC2 => some .mrow
  | 0xC3 => some .macc
  | 0xC4 => some .meor
  | 0xC5 => some .mspl
  | 0xC6 => some .mrst
  | 0xC7 => some .mzro
  | 0xC8 => some .mpln
  | 0xC9 => some .mqry
  | 0xCA => some .mcut
  | 0xD0 => some .cpy
  | 0xD1 => some .cpyq
  | 0xD2 => some .twall
  | 0xD3 => some .twany
  | 0xD4 => some .tffr
  | 0xD5 => some .tclr
  | 0xD6 => some .bari
  | 0xD7 => some .barv
  | 0xD8 => some .barw
  | 0xD9 => some .barq
  | 0xDA => some (if fn = 1 then .collRsum else if fn = 2 then .collAsum else if fn = 3 then .collBcast else .collGather)
  | 0xDB => some .cxpt
  | 0xE0 => some .xsect
  | 0xE1 => some .fibrd
  | 0xE2 => some .fibwr
  | 0xE3 => some .stopn
  | 0xE4 => some .spacc
  | 0xE5 => some .spfl
  | 0xE6 => some .pxlt
  | 0xE7 => some .kvapp
  | 0xE8 => some .kvlen
  | 0xE9 => some .smxm
  | 0xEA => some .smxf
  | 0xF0 => some .phase
  | 0xF1 => some .phend
  | 0xF2 => some .ball
  | 0xF3 => some .crd
  | 0xF4 => some .cwr
  | 0xF5 => some .tlbi
  | 0xF6 => some .tlbs
  | 0xF7 => some .iret
  | 0xF8 => some .prio
  | 0xF9 => some (if fn = 1 then .ctxlResume else .ctxlLoad)
  | 0xFA => some .ctxe
  | 0xFB => some (if slice lit 0 2 = 1 then .retryFrame else .retryPort)
  | 0xFC => some .wfe
  | 0xFD => some .evsig
  | 0xFE => some .migr
  | 0xFF => some .thrt
  | _ => none

/-- The code of a type (06 R111). -/
def Ty.code (t : Ty) : BitVec 4 :=
  match t with
  | .i64 => 0 | .n64 => 1 | .i32 => 2 | .n32 => 3 | .i16 => 4 | .n16 => 5 | .i8 => 6 | .n8 => 7
  | .f32 => 8 | .f16 => 9 | .b16 => 10 | .t8 => 11 | .t6 => 12 | .cap => 13 | .e8 => 14

/-- The type of a code; 0xF is reserved (06 R111). -/
def Ty.ofCode (c : BitVec 4) : Option Ty :=
  match c.toNat with
  | 0 => some .i64 | 1 => some .n64 | 2 => some .i32 | 3 => some .n32 | 4 => some .i16 | 5 => some .n16
  | 6 => some .i8 | 7 => some .n8 | 8 => some .f32 | 9 => some .f16 | 10 => some .b16 | 11 => some .t8
  | 12 => some .t6 | 13 => some .cap | 14 => some .e8 | _ => none

/-- The width of an integer type (08 R152); of the others, the element width (03 R44), a capability's 128. -/
def Ty.width (t : Ty) : Nat :=
  match t with
  | .i64 | .n64 => 64 | .i32 | .n32 => 32 | .i16 | .n16 => 16 | .i8 | .n8 => 8
  | .f32 => 32 | .f16 | .b16 => 16 | .t8 => 8 | .t6 => 6 | .cap => 128 | .e8 => 8

/-- A signed integer type (03 R44). -/
def Ty.signed (t : Ty) : Bool :=
  match t with
  | .i64 | .i32 | .i16 | .i8 => true
  | _ => false

/-- An integer type, I64 to N8. -/
def Ty.isInt (t : Ty) : Bool := t.code.toNat ≤ 7

/-- The element count of the course format that a type reads (03 R44); 0 for CAP and E8. -/
def Ty.count (t : Ty) : Nat :=
  match t with
  | .i64 | .n64 => 7 | .i32 | .n32 => 15 | .i16 | .n16 => 30 | .i8 | .n8 => 60
  | .f32 => 15 | .f16 | .b16 => 30 | .t8 => 60 | .t6 => 80 | .cap | .e8 => 0

/-- The code of a shape (06 R111). -/
def Shape.code (s : Shape) : BitVec 2 :=
  match s with
  | .scalar => 0 | .course => 1 | .pair => 2

/-- The shape of a code; 0b11 is reserved (06 R111). -/
def Shape.ofCode (c : BitVec 2) : Option Shape :=
  match c.toNat with
  | 0 => some .scalar | 1 => some .course | 2 => some .pair | _ => none

/-- The code of a predicate (01 R8). -/
def Pred.code (q : Pred) : BitVec 3 :=
  match q with
  | .none => 0 | .onTrue => 1 | .onFalse => 2

/-- The predicate of a code; 0b011 to 0b111 are reserved (06 R111). -/
def Pred.ofCode (c : BitVec 3) : Option Pred :=
  match c.toNat with
  | 0 => some .none | 1 => some .onTrue | 2 => some .onFalse | _ => Option.none

/-- The code of a source selector (01 R6). -/
def Src.code (s : Src) : BitVec 4 :=
  match s with
  | .port => 0 | .temp k => BitVec.ofNat 4 (k.val + 1) | .lit => 9 | .zero => 10 | .ring => 11 | .stamp => 12 | .tag => 13

/-- The source of a selector code; 0xE and 0xF are reserved (06 R111). -/
def Src.ofCode (c : BitVec 4) : Option Src :=
  match c.toNat with
  | 0 => some .port | 1 => some (.temp 0) | 2 => some (.temp 1) | 3 => some (.temp 2) | 4 => some (.temp 3)
  | 5 => some (.temp 4) | 6 => some (.temp 5) | 7 => some (.temp 6) | 8 => some (.temp 7) | 9 => some .lit
  | 10 => some .zero | 11 => some .ring | 12 => some .stamp | 13 => some .tag | _ => none

/-- The code of a node port (01 R7). -/
def NodePort.code (x : NodePort) : BitVec 2 :=
  match x with
  | .a => 0 | .b => 1 | .p => 2

/-- The node port of a code; port 3 is malformed (06 R114). -/
def NodePort.ofCode (c : BitVec 2) : Option NodePort :=
  match c.toNat with
  | 0 => some .a | 1 => some .b | 2 => some .p | _ => none

/-- The field of a destination (01 R7). -/
def Dest.code (d : Dest) : BitVec 11 :=
  match d with
  | .none => 0
  | .node n q => 1#2 ++ BitVec.ofNat 7 n.val ++ q.code
  | .temp k => 2#2 ++ BitVec.ofNat 7 k.val ++ 0#2
  | .out k => 3#2 ++ BitVec.ofNat 7 k.val ++ 0#2

/-- The destination of a field; none where the field is malformed (06 R114). -/
def Dest.ofCode (x : BitVec 11) : Option Dest :=
  let n := (slice x 2 7).toNat
  let q := slice x 0 2
  match (slice x 9 2).toNat with
  | 0 => if x = 0 then some .none else Option.none
  | 1 => (NodePort.ofCode q).map (Dest.node (Fin.ofNat 128 n))
  | 2 => if n < 8 ∧ q = 0 then some (.temp (Fin.ofNat 8 n)) else Option.none
  | _ => if n < 16 ∧ q = 0 then some (.out (Fin.ofNat 16 n)) else Option.none

/-- The record of a form and its fields (06 R111). -/
def Op.encode (o : Op) (r : Rec) : Record :=
  o.code ++ r.fn ++ r.ty.code ++ r.sh.code ++ r.a.code ++ r.b.code ++ r.pq.code ++ r.d0.code ++ r.d1.code ++ r.ax ++ r.lit

/-- The record of an instruction; a device event has none (log 3). -/
def Instr.encode (i : Instr) : Option Record := i.record?.map fun x => x.1.encode x.2

/-- Where and for what block a record is fetched: what R120 judges a record by beside its own bits. -/
structure FetchEnv where
  newel    : Bool
  sys      : Bool
  cls      : Nat
  nodes    : Nat
  exits    : Nat
  outputs  : Nat
  ringMask : BitVec 16
  deriving DecidableEq, Repr, Inhabited

/-- The most admitting surroundings, for a record that stands alone: every port, exit and ring there, on a Newel, and class
4, which is no class of R109 and excludes no form. -/
def FetchEnv.widest : FetchEnv := ⟨true, true, 4, 128, 8, 16, 0xFFFF⟩

/-- Privileged forms: group 0xF but PHASE and PHEND, and CDERIV (06 R117). -/
def Op.privileged (o : Op) : Bool :=
  o = .cderiv || (o.code.toNat ≥ 0xF2)

/-- A control register number that is assigned (20 R364; 22 R377, R382). -/
def registerAssigned (n : Nat) : Bool :=
  (1 ≤ n && n ≤ 6) || n = 0x10 || (0x20 ≤ n && n ≤ 0x22) || (0x40 ≤ n && n ≤ 0x48) || (0x100 ≤ n && n ≤ 0x10A) ||
  (0x200 ≤ n && n ≤ 0x213) || (0x220 ≤ n && n ≤ 0x234) || (0x240 ≤ n && n ≤ 0x247) || n = 0x250 ||
  (0x300 ≤ n && n ≤ 0x31F)

/-- The rings that a form names in a field (11 R223; 09 R182; 15 R287). -/
def Op.ringFields (o : Op) (r : Rec) : List Nat :=
  match o with
  | .rrd | .rwr | .radv | .wadv | .rfill | .ldq | .stq | .vcvt | .hfwd | .hinv => [(slice r.lit 0 4).toNat]
  | .xsect => [(slice r.lit 0 4).toNat, (slice r.lit 4 4).toNat]
  | .fibrd | .fibwr | .spfl => [(slice r.ax 0 4).toNat]
  | _ => []

/-- The rings that a record's selectors name (01 R6). -/
def Rec.ringSources (r : Rec) : List Nat :=
  (if r.a = .ring then [(slice r.ax 0 4).toNat] else []) ++ (if r.b = .ring then [(slice r.ax 4 4).toNat] else [])

/-- The AX bits that a record may set: those of its entry and those of its ring selectors (06 R112). -/
def axAllowed (f : Form) (r : Rec) : BitVec 13 :=
  f.ax ||| (if r.a = .ring then 0x1F0F else 0) ||| (if r.b = .ring then 0x1FF0 else 0)

/-- The LIT bits beside its fields that the entry of a form does not fix at zero: a selector 0x9 may use them (06 R112; 11 R226; 20 R349). -/
def Op.litFree (o : Op) : BitVec 32 :=
  match o with
  | .rrd | .rwr | .rfill => 0x3F0
  | .retryPort | .retryFrame => 0x8
  | _ => 0

/-- The LIT bits that a record may set (06 R112): those of its entry, with those that its entry leaves free where a selector 0x9 uses LIT; all
of them where only a selector 0x9 uses LIT, less the bits above a 16-bit float pattern (09 R171) and above the width of a literal that LIT
delivers (08 R147); none of a group 0xC form that names none (13 R269). -/
def litAllowed (o : Op) (f : Form) (r : Rec) : BitVec 32 :=
  if f.lit ≠ 0 ∨ o = .mtask then f.lit ||| (if r.a = .lit ∨ r.b = .lit then o.litFree else 0)
  else if r.a = .lit ∨ r.b = .lit then
    (if (o = .litOp ∧ r.ty.width = 8) then 0xFF
     else if o = .litOp ∧ r.ty.width = 16 then 0xFFFF
     else if 0x40 ≤ o.code.toNat ∧ o.code.toNat ≤ 0x4D ∧ (r.ty = .f16 ∨ r.ty = .b16) then 0xFFFF
     else 0xFFFFFFFF)
  else 0

/-- The fixed fields of ST that depend on its shape: only a course store names a mask (11 R241). -/
def axShapeBad (o : Op) (r : Rec) : Bool :=
  match o with
  | .st => r.sh ≠ .course && r.ax ≠ 0
  | .retryPort => slice r.lit 0 2 = 0 && slice r.lit 4 12 ≠ 0
  | _ => false

/-- A breach of a destination rule by its field alone (06 R112, R114). A destination that the form requires and the record leaves out is one
too (log 153, DEDUCED). -/
def destBad (env : FetchEnv) (q : DestRule) (d : Dest) : Bool :=
  (match q, d with
   | .absent, .none => false
   | .absent, _ => true
   | .required, .none => true
   | .required, _ => false
   | .optional, _ => false
   | .portOnly, .none => false
   | .portOnly, .out _ => false
   | .portOnly, _ => true) ||
  (match d with
   | .node n _ => decide (env.nodes ≤ n.val)
   | .out k => decide (env.outputs ≤ k.val)
   | _ => false)

/-- The set of types that a form admits at a shape. -/
def Form.types (f : Form) (s : Shape) : BitVec 16 :=
  match s with
  | .scalar => f.scalar | .course => f.course | .pair => f.pair

/-- FN values that a TY excludes: saturation of a float or tapered course (09 R179), and a rounding of an E8 target
(09 R175). -/
def variantBad (o : Op) (r : Rec) : Bool :=
  match o with
  | .vadd | .vsub | .vmul | .vfma => r.fn = 1 && !r.ty.isInt
  | .fcvt => r.ty = .e8 && r.fn ≠ 0
  | _ => false

/-- TY values that an FN or another type field excludes (17 R312, R314; 09 R190). -/
def typeBad (o : Op) (r : Rec) : Bool :=
  match o with
  | .ared | .cmb | .cmbi => decide (8 ≤ r.fn.toNat) && r.ty.isInt || decide (r.fn.toNat < 8) && !r.ty.isInt
  | .vcvt => !(bit (0x1FFC#16) (slice r.lit 9 4).toNat)
  | _ => false

/-- A literal selector that a mode of DXFM excludes (11 R234). -/
def selectorBad (o : Op) (r : Rec) : Bool :=
  match o with
  | .dxfm => bit r.lit 20 && (r.a = .lit || r.b = .lit)
  | .ctxlResume => r.b ≠ .zero
  | _ => false

/-- A form that the block's class excludes, code 3 (11 R232; 20 R362; 22, WFE). -/
def classBad (env : FetchEnv) (o : Op) : Bool :=
  match o with
  | .dget | .dxfm => env.cls ≠ 2 && env.cls ≠ 4
  | .iret | .wfe => env.cls = 0 || env.cls = 2
  | _ => false

/-- A privilege that the place of the fetch lacks, code 6 (04 R70; 11 R232; 20 R363). -/
def privilegeBad (env : FetchEnv) (o : Op) (r : Rec) : Bool :=
  (o.privileged && !(env.newel || env.sys)) ||
  (match o with
   | .dmd => bit r.lit 6 && !(env.newel || env.sys)
   | .crd | .cwr => !env.newel && decide (0x200 ≤ (slice r.lit 0 16).toNat) && decide ((slice r.lit 0 16).toNat ≤ 0x3FF)
   | _ => false)

/-- A field of the entry outside its limits, code 14 (08 R145, R157; 09 R175, R176, R189, R193; 11 R223, R226, R232; 13 R269,
R275; 15 R287, R288; 17 R316; 20 R349, R363; 04 R74, R75; 22 R386). -/
def rangeBad (env : FetchEnv) (o : Op) (r : Rec) : Bool :=
  let f (lo n : Nat) : Nat := (slice r.lit lo n).toNat
  match o with
  | .exitOp => decide (env.exits ≤ f 0 3)
  | .exitp => decide (env.exits ≤ f 0 3) || decide (env.exits ≤ f 3 3)
  | .bext | .bins => decide (r.ty.width < f 0 6 + (f 8 6 + 1))
  | .fcvt => !(bit (0x4700#16) r.ty.code.toNat && bit (0x4700#16) (f 0 4))
  | .icvt => !((bit (0x0700#16) r.ty.code.toNat && decide (f 0 4 ≤ 7)) || (r.ty.isInt && bit (0x0700#16) (f 0 4)))
  | .vext | .vins => decide (r.ty.count ≤ f 0 7)
  | .hfwd => decide (f 12 3 < f 9 3)
  | .hinv => bit r.lit 15
  | .hrec => decide (2 ^ f 8 3 ≤ f 0 7)
  | .radv | .wadv => decide (f 4 6 = 0) || decide (32 < f 4 6)
  | .sendt | .ddone | .cmb => decide (env.outputs ≤ f 0 4)
  | .land | .lrest => decide (f 0 12 = 0) || decide (4032 < f 0 12)
  | .fence | .acq | .rel => decide (6 ≤ (slice r.ax 0 3).toNat)
  | .mldb => decide (239 < f 4 8) || decide ((if r.fn = 1 then 319 else 639) < f 12 10)
  | .mrow | .macc => decide (384 ≤ f 6 9)
  | .mzro => decide (384 ≤ f 6 9) || decide (640 ≤ f 15 10)
  | .mpln => !(f 0 4 = 4 || f 0 4 = 6 || f 0 4 = 8 || f 0 4 = 10 || f 0 4 = 12)
  | .barv => decide (448 ≤ f 7 9) && f 7 9 ≠ 0x1FF
  | .xsect => f 0 4 = f 4 4
  | .pxlt => decide (30 < f 0 4 + f 4 4)
  | .phase => f 14 16 = 0
  | .crd | .cwr => !(registerAssigned (f 0 16)) || (bit r.lit 18 && !env.newel)
  | .prio => decide (12 ≤ f 0 4) || f 6 26 ≠ 0
  | .ctxe => f 2 30 ≠ 0
  | .retryPort => f 0 2 ≠ 0
  | .retryFrame => f 0 2 ≠ 1
  | .evsig => decide (f 0 5 < 16)
  | _ => false

/-- The checks of a record's fields in the order of R120: each breach with its code. A type that the form admits at another shape only is
the shape check's, code 8 (log 154, DEDUCED). -/
def fieldChecks (env : FetchEnv) (o : Op) (r : Rec) : List (Bool × Nat) :=
  let f := o.form
  [ (classBad env o, 3),
    (!(bit f.fns r.fn.toNat) || variantBad o r, 5),
    (privilegeBad env o r, 6),
    (!(bit (f.scalar ||| f.course ||| f.pair) r.ty.code.toNat) || typeBad o r, 7),
    (!(bit (f.types r.sh) r.ty.code.toNat), 8),
    (!(bit f.selA r.a.code.toNat) || !(bit f.selB r.b.code.toNat) || selectorBad o r, 10),
    ((r.ringSources ++ o.ringFields r).any (fun q => !(bit env.ringMask q)), 11),
    (destBad env f.d0 r.d0 || destBad env f.d1 r.d1, 12),
    (r.ax &&& ~~~(axAllowed f r) ≠ 0 || (r.lit &&& ~~~(litAllowed o f r) ≠ 0) || axShapeBad o r, 13),
    (rangeBad env o r, 14) ]

/-- The code of the first breach in a list of checks; 99 where there is none. -/
def firstCode (l : List (Bool × Nat)) : Nat :=
  match l with
  | [] => 99
  | (b, k) :: t => if b then k else firstCode t

/-- The code that R120 gives a record by its parsed fields; 99 where it is a valid instruction. -/
def fieldFault (env : FetchEnv) (o : Op) (r : Rec) : Nat := firstCode (fieldChecks env o r)

/-- The fields of a record (06 R111), reserved codes read as the first value of their type. -/
def parseFields (w : Record) : Rec where
  fn  := slice w 84 4
  ty  := (Ty.ofCode (slice w 80 4)).getD .i64
  sh  := (Shape.ofCode (slice w 78 2)).getD .scalar
  a   := (Src.ofCode (slice w 74 4)).getD .port
  b   := (Src.ofCode (slice w 70 4)).getD .port
  pq  := (Pred.ofCode (slice w 67 3)).getD .none
  d0  := (Dest.ofCode (slice w 56 11)).getD .none
  d1  := (Dest.ofCode (slice w 45 11)).getD .none
  ax  := slice w 32 13
  lit := slice w 0 32

/-- The code of the first reserved value among a record's coded fields (06 R111, R120); 99 where there is none. -/
def reservedFault (w : Record) : Nat :=
  firstCode
    [ ((Ty.ofCode (slice w 80 4)).isNone, 7),
      ((Shape.ofCode (slice w 78 2)).isNone, 8),
      ((Pred.ofCode (slice w 67 3)).isNone, 9),
      ((Src.ofCode (slice w 74 4)).isNone || (Src.ofCode (slice w 70 4)).isNone, 10),
      ((Dest.ofCode (slice w 56 11)).isNone || (Dest.ofCode (slice w 45 11)).isNone, 12) ]

/-- A node record decoded: the instruction, or the code of R120 that its first failing check gives. A breach by a reserved
code is judged before the later checks, which need the field. -/
def decodeRecord (env : FetchEnv) (w : Record) : Except Nat Instr :=
  match Op.ofCode (slice w 88 8) (slice w 84 4) (slice w 0 32) with
  | none => .error 4
  | some o =>
    let r := parseFields w
    let k := min (reservedFault w) (fieldFault env o r)
    if k = 99 then .ok (o.instr r) else .error k

/-- The instruction of a record that stands alone, numbered as spec/opcode_table.json numbers bits: bit 0 is the least
significant bit of the stored record's first byte (01 R12), so the number is the record. A record has 96 bits. -/
def decodeTableWord (nbits w : Nat) : Option Instr :=
  if 96 < nbits then none
  else match decodeRecord .widest (BitVec.ofNat 96 w) with
    | .ok i => some i
    | .error _ => none

end Sys2Proof
end

