-- ==== Sys2Proof/Config.lean ====
section
/-! DEFINITION. What the part fixes, and the free values the spec leaves open (no body: no proof can see them). -/
namespace Sys2Proof.Config

/-- Bays of the package (00 R3). -/
abbrev bays : Nat := 448
/-- Halls of the package (00, how the figures fit together). -/
abbrev halls : Nat := 64
/-- Logical elements of the package (00 R3). -/
abbrev elements : Nat := 3584
/-- Flight-link ports (00 R3). -/
abbrev links : Nat := 18
/-- Granules of 4 KiB in a stack, P (10 R209). -/
abbrev granules : Nat := 16777216
/-- The interleaved range R of a stack in granules (10 R209). -/
abbrev range : Nat := 16777216 - 65536

/-- The next move where the agenda names none: which agent moves next is open (24 R399; log 1). -/
opaque freeMove : Nat → Move
/-- A free byte, by index: contents of a save area, destination of an overlapping copy (log 9, log 10). -/
opaque freeByte : Nat → Byte
/-- By how many steps, modulo 64, a die's epoch counter is ahead of the others at reset (07 R128; log 135). -/
opaque epochPhase : Nat → Nat
/-- A ring slot of a load that no record has written yet, by load, ring and slot (11 R227; log 55). -/
opaque freeSlot : Nat → Nat → Nat → Course
/-- The logical bay the loader chooses for an operator without bay=, by image, places of the resident contexts and remap tables
(05 R97; 14 R278; log 8). -/
opaque freeBay : List Byte → List (List UnitId) → List Nat → Nat → Nat
/-- The element within a bay the loader chooses for a block, by the same (05 R97; 14 R278; log 8). -/
opaque freeElement : List Byte → List (List UnitId) → List Nat → Nat → Nat
/-- The save area, and the ASID it stands under, that the keystone Newel's graph gives to a context it evicts for a residency
request, by index (20 R357; log 51). -/
opaque freeArea : Nat → BitVec 128 × BitVec 16
/-- The draw of one ballast group in W, which no rule gives (22 R378; log 52). -/
opaque groupWatts : Nat
/-- How the controller splits the ballast grant over the halls, by move and hall (22 R378; log 52). -/
opaque freeShare : Nat → Nat → Nat
/-- Which of the admitted elements a new clone takes, by index (07 R137; log 8). -/
opaque freeSite : Nat → Nat
/-- The signature of an attestation report, by index (23 R394, R396; log 13). -/
opaque freeSignature : Nat → List Byte
/-- The digest of the Newel firmware, which no rule gives (23 R394, R396; log 13). -/
opaque firmwareDigest : BitVec 512
/-- A choice that no rule fixes, by index: whether a unit uses a decoded block that it has kept (06 R122). -/
opaque freeChoice : Nat → Bool
/-- How many entries of the queue of a router are full when a packet passes it, by move and router (05 R104; log 134). -/
opaque freeFill : Nat → Nat → Nat
/-- Which of the candidates that tie on every key begins, by move (07 R129; 24 R399; log 156). -/
opaque freeTie : Nat → Nat
/-- The payload of the header flit of a chunk, whose fields R335 names without their places (18 R335; log 7). -/
opaque chunkHeader : Chunk → BitVec 512
/-- The payload kind of a flit of collective data: of a header, or of data (18 R330, R335; log 7). -/
opaque chunkKind : Bool → BitVec 4
/-- The kinds and payloads of the flits that carry a request or a response of space 3, or a message of the clock, whose layout no rule gives,
by move (18 R330, R334, R336; log 7). -/
opaque messageFlits : Nat → List (BitVec 4 × BitVec 512)
/-- The firmware allows the image of a measurement to be loaded with sys = 1 (18 R329; log 13). -/
opaque allows : BitVec 512 → Bool
/-- The link CRC of a flit's header and payload, whose function no rule gives (18 R330; log 7). -/
opaque linkCrc : BitVec 64 → BitVec 512 → BitVec 32
/-- The token of an event whose layout no rule gives, by event and two numbers: migration complete (20 R361) and eviction complete
(04 R76) (log 15). -/
opaque eventToken : Nat → Nat → Nat → Course

end Sys2Proof.Config
end

