-- ==== Sys2Proof/Machine/State.lean ====
section
/-! DEFINITION. All the state of a device (INVENTORY.md, State), as plain data, and the state after reset. -/
namespace Sys2Proof.Machine

/-- Why a step stops. Everything the spec calls a fault is a next state here: the activation or request faults as the spec
says (20 R340 to R348). -/
inductive Fault where
  /-- Raised by step alone, where the agenda names an event whose row is a node-record form, which no event source of the
  device raises. Safe: the model stops where the hardware has no such moment. -/
  | noSuchEvent
  deriving DecidableEq, Repr, Inhabited

/-- Why an instruction has no meaning. -/
inductive Refusal where
  /-- Raised by an arm of exec whose instruction has no meaning yet. Safe: the model stops. -/
  | notModelled (mnemonic : String)
  deriving DecidableEq, Repr, Inhabited

/-- The answer of a step. -/
abbrev Result (σ : Type) := Host.Outcome σ Fault Refusal

/-! ### Values and tokens -/

/-- A value as a record produces it (06 R113): its shape, its bits from bit 0, and a capability tag (08 R162). -/
structure Val where
  sh   : Shape
  bits : Course
  cap  : Bool
  deriving DecidableEq, Repr, Inhabited

/-- What a combining token asks for (17 R313). -/
structure Comb where
  fn : Nat
  ty : Ty
  sh : Shape
  n  : Nat
  deriving DecidableEq, Repr, Inhabited

/-- The requests that something follows (11 R249; 17 R310): home lists those that must be over, performed where they go or
discarded; port, those that need only have left their port (05 R99, level 0). -/
structure After where
  home : List Nat
  port : List Nat
  deriving DecidableEq, Repr, Inhabited

/-- A token on an edge (02 R24, R26): its value, tag word, stamp and birth epoch (07 R128), and the requests that it follows
(11 R249). -/
structure Token where
  val   : Val
  tag   : TagWord
  stamp : Stamp
  birth : BitVec 32
  comb  : Option Comb
  after : After
  deriving DecidableEq, Repr, Inhabited

/-- An interval [lo, hi] of stream time (04 R77). -/
structure Ival where
  lo : Int
  hi : Int
  deriving DecidableEq, Repr, Inhabited

/-- One pending interval of a demand register with its delivered count (04 R86). -/
structure Pend where
  iv  : Ival
  got : Nat
  deriving DecidableEq, Repr, Inhabited

/-- A demand register (04 R86): pending intervals, the done interval, the granule, and the intervals that have arrived and
are not yet reduced. -/
structure DReg where
  pend     : List Pend
  done     : Option Ival
  g        : Nat
  arrivals : List Ival
  deriving DecidableEq, Repr, Inhabited

/-! ### The graph image (06 R404) -/

/-- An operator entry. -/
structure OpDesc where
  entry    : Nat
  nblocks  : Nat
  rtfBlock : Option Nat
  clonable : Bool
  trap     : Bool
  state    : Nat
  origin   : Option Int
  bay      : Option Nat
  newel    : Option Nat
  m        : Nat
  a        : Int
  b        : Int
  d        : Nat
  landing  : Nat
  deriving DecidableEq, Repr, Inhabited

/-- A decoded block (06 R107, R109, R115, R116): its records as they stand. -/
structure Block where
  ptr     : BlockPtr
  cls     : Nat
  inputs  : Nat
  outputs : Nat
  rings   : BitVec 16
  nodes   : List Record
  exits   : List Record
  ins     : List Record
  deriving DecidableEq, Repr, Inhabited

/-- A block entry: where its block stands, its operator, its offset in the image, its at= address or 0, and what the loader read
of it. -/
structure BlkDesc where
  ptr : BlockPtr
  op  : Nat
  off : Nat
  at_ : Nat
  blk : Block
  deriving DecidableEq, Repr, Inhabited

/-- The consumer of a frame edge: input port i of an operator's entry block, or a sink. -/
inductive Consumer where
  | op (o i : Nat) | sink (k : Nat)
  deriving DecidableEq, Repr, Inhabited

/-- A frame edge of a resident graph: its entry, its tokens in flight in order (05 R101), whether its track is
back-pressured (07 R135), its demand register, and the stamps that passed a merge node (07 R139). -/
structure Edge where
  prod    : Nat
  oport   : Nat
  cons    : Consumer
  haar    : Nat
  tile    : Nat
  flight  : List Token
  blocked : Bool
  dreg    : DReg
  seen    : List Int
  deriving DecidableEq, Repr, Inhabited

/-- The kind of a ring (06 R404). -/
inductive RingKind where
  | stream | const | fibre
  deriving DecidableEq, Repr, Inhabited

/-- A ring (02 R29; 11 R224, R245): slot n mod depth holds entry n, absent while a generator has yet to fill it; rd, wr and
freed count entries from the load. -/
structure Ring where
  q     : Nat
  kind  : RingKind
  depth : Nat
  give  : Nat
  take  : Nat
  cons  : Nat
  prod  : Nat
  data  : Option Nat
  haar  : Nat
  tile  : Nat
  slots : List (Option Val)
  rd    : Nat
  wr    : Nat
  freed : Nat
  dreg  : DReg
  deriving DecidableEq, Repr, Inhabited

/-- A data section. -/
structure DataDesc where
  off : Nat
  len : Nat
  at_ : Option Nat
  deriving DecidableEq, Repr, Inhabited

/-- A region-table entry (17 R307). -/
structure Region where
  base  : Nat
  len   : Nat
  obj   : Nat
  level : Nat
  deriving DecidableEq, Repr, Inhabited

/-- A parsed image (06 R404): the blocks it declares, with the ring and edge entries as they start. -/
structure Image where
  base    : Nat
  length  : Nat
  launch  : Word
  bytes   : List Byte
  ops     : List OpDesc
  blocks  : List BlkDesc
  edges   : List Edge
  rings   : List Ring
  datas   : List DataDesc
  regions : List Region
  demands : List (Nat × Ival)
  deriving DecidableEq, Repr, Inhabited

/-! ### Activations -/

/-- How a waiting activation arose; of a handler's, whether it is the one that its event began (22 R384). -/
inductive WaitKind where
  | frame | chained | source | rtf (iv : Ival) | handler (n : Nat) (first : Bool)
  deriving DecidableEq, Repr, Inhabited

/-- One input slot (02 R26; 17 R313): the operand once present, and a partial combination while it is not. -/
structure Slot where
  val   : Option Val
  part  : Option (Comb × Nat × Val)
  flags : BitVec 6
  deriving DecidableEq, Repr, Inhabited

/-- An activation not yet begun: a frame, a chained successor's inputs, a source time, an interval for an rtf block, or an
event (02 R26, R36; 04 R84, R89; 07 R125; 22 R384). made is the move at which it arose, since the one at which its last operand
came. -/
structure Waiting where
  kind    : WaitKind
  ptr     : BlockPtr
  unit    : UnitId
  tag     : TagWord
  stamp   : Stamp
  birth   : BitVec 32
  slots   : List Slot
  parked  : Bool
  spilled : Bool
  beside  : List (Nat × Token × Bool)
  link    : List BlockPtr
  gain    : Nat
  refused : Nat
  made    : Nat
  since   : Nat
  silent  : Bool
  restore : Bool
  origin  : Bool
  after   : After
  deriving DecidableEq, Repr, Inhabited

/-- The state of one record of an activation (02 R33, R39). -/
inductive RecState where
  | idle | issued (id : Nat) | waiting | fired | nullified | skipped
  deriving DecidableEq, Repr, Inhabited

/-- One record's port tokens and state; first, which of the ports a (true) and b had its token first, and in which step (08 R146);
past, by port, the ring writers whose D0 tokens the port's token comes after (09 R182). -/
structure RecSlot where
  st    : RecState
  a     : Option Val
  b     : Option Val
  p     : Option Val
  first : Option (Bool × Nat)
  past  : List (NodePort × Nat)
  deriving DecidableEq, Repr, Inhabited

/-- The write of a temporary by a record (02 R25), and the ring writers whose D0 tokens it comes after (09 R182). -/
structure TempWrite where
  j    : Nat
  k    : Nat
  v    : Val
  past : List Nat
  deriving DecidableEq, Repr, Inhabited

/-- The write of an output port by a record; a SENDT names its own tag word, a CMB its combination, and an atomic writes the
port now and sends its token later (02 R34; 11 R230; 17 R311, R314). -/
structure OutWrite where
  j     : Nat
  port  : Nat
  val   : Option Val
  tag   : Option TagWord
  comb  : Option Comb
  deriving DecidableEq, Repr, Inhabited

/-- The window of one ring in an activation (11 R224): the cursors at begin, the entries filled and the slots free then. -/
structure RingView where
  q    : Nat
  h0   : Nat
  w0   : Nat
  fill : Nat
  free : Nat
  deriving DecidableEq, Repr, Inhabited

/-- A cursor move of a record: read or write cursor of ring q by n (02 R30). -/
structure CursorMove where
  j    : Nat
  q    : Nat
  read : Bool
  n    : Nat
  deriving DecidableEq, Repr, Inhabited

/-- A ring entry written by a record: entry n of ring q, counted from the load (09 R182; 11 R227). -/
structure RingWrite where
  j : Nat
  q : Nat
  n : Nat
  v : Val
  deriving DecidableEq, Repr, Inhabited

/-- A buffered store, or what a store request asks (11 R243): plain bytes, bytes that only an untyped page takes (a landing's
area, a collective's packed words), a whole course, one that only a typed page takes, masked elements of a course in a
format, a single element at its place in a typed course, or a pair with its tag. -/
inductive StoreData where
  | bytes (l : List Byte)
  | area (l : List Byte)
  | packed (l : List Byte)
  | course (c : Course)
  | narrow (c : Course)
  | masked (ty : Ty) (mask : BitVec 80) (c : Course)
  | pair (v : Pair) (tagged : Bool)
  | scalar (ty : Ty) (v : Word)
  deriving DecidableEq, Repr, Inhabited

/-- A buffered store of a record at an address of a space (10 R203). -/
structure BufStore where
  j     : Nat
  space : Nat
  addr  : Nat
  data  : StoreData
  deriving DecidableEq, Repr, Inhabited

/-- An engine operation as its record asks for it (17 R320). -/
inductive EngineKind where
  | cpy (len : Nat)
  | cpyq (col : Bool) (stride : Nat)
  | cxpt (granules : Nat)
  | coll (op n rank count wire group base : Nat) (step : Int) (root : Nat)
  deriving DecidableEq, Repr, Inhabited

/-- The row geometry of a matrix task record (13 R263). -/
structure TaskDesc where
  node   : Nat
  home   : Nat
  w      : Nat
  p      : Nat
  m      : Nat
  row0   : Nat
  col0   : Nat
  kc     : Nat
  after  : Nat
  as_    : Nat
  stride : Nat
  afmt   : Nat
  k      : Nat
  raw    : BitVec 192
  deriving DecidableEq, Repr, Inhabited

/-- A weight binding (13 R256); seq, the MLDB that made it, by its place in commit order. -/
structure Binding where
  ctx    : Nat
  bay    : Nat
  cap    : Pair
  stride : Nat
  k      : Nat
  n      : Nat
  ty     : Ty
  b16    : Bool
  seq    : Nat
  deriving DecidableEq, Repr, Inhabited

/-- Where the result of an atomic goes (17 R311): the output port, under the emitted tag word and stamp, to the edges or to the
successor that the commit at a move chained; its token follows what the tokens of the commit follow (11 R249). -/
structure AtomicOut where
  port  : Nat
  tag   : TagWord
  stamp : Stamp
  chain : Option Nat
  after : After
  deriving DecidableEq, Repr, Inhabited

/-- What a fired record does at commit (02 R21, R403). -/
inductive Effect where
  | falloc (blk : Nat) (tag : TagWord)
  | ffree (blk : Nat) (tag : TagWord)
  | fsts (blk port : Nat) (tag : TagWord) (v : Val) (comb : Option Comb)
  | tset (tag : TagWord)
  | stset (st : Stamp)
  | tagn (iter : BitVec 16)
  | tagr (iter : BitVec 16)
  | demand (ctx sink : Nat) (iv : Ival) (held : Bool)
  | landing (addr : Nat) (c : Int) (bytes : List Byte)
  | ddone (port : Nat) (iv : Ival)
  | atomic (port : Option Nat) (fn : Nat) (ty : Ty) (space addr : Nat) (b e : Word) (course : Option Course)
  | release (scope addr : Nat)
  | fence (scope : Nat)
  | mldb (w : Nat) (b : Binding)
  | mtask (acap : Pair) (tagged : Bool) (d : TaskDesc)
  | macc (node row col : Nat) (c : Course)
  | meor (node bar n : Nat) (cap : Pair)
  | mspl (node bar : Nat) (cap : Pair)
  | mrst (node : Nat) (cap : Pair) (image : Option (List Byte))
  | mzro (node rows cols : Nat) (pair : Bool)
  | mpln (p : Nat)
  | mcut (tag : Nat) (all : Bool)
  | engine (k : EngineKind) (src dst : Pair) (tag bar : Nat) (cnt : Bool)
  | bari (bar arr bytes : Nat)
  | barv (bay bar bytes : Nat)
  | tclr (mask : Word)
  | spacc (spa coord : Nat) (v : BitVec 32)
  | spfl (spa : Nat)
  | kvapp (addr n pos : Nat) (v : Course)
  | kvlen (addr layer n p : Nat)
  | genLoad (ty : Ty) (q first space : Nat) (addrs counts : List Nat)
  | genStore (ty : Ty) (q first space : Nat) (addrs counts : List Nat)
  | phase (onset intensity len : Nat)
  | phend
  | ballast (h : Nat)
  | cwr (reg ctx : Nat) (v : Word)
  | tlbi (page count asid : Nat) (all : Bool)
  | prio (ctx level : Nat)
  | loaded (ctx : Nat)
  | evict (ctx : Nat) (area : Pair)
  | retryPort (target : Option Nat) (cancel : Bool)
  | retryFrame (ctx blk : Nat) (tag : TagWord) (target : Option (UnitId × Nat × Stamp)) (cancel : Bool)
  | signal (die n : Nat) (payload : Word)
  | migrate (asid : Nat) (va : Nat) (leaf : Word) (old : Word)
  | throttle (hall : Nat) (all : Bool) (k : Nat)
  | iret
  deriving DecidableEq, Repr, Inhabited

/-- The stage of an activation (02 R21, R403); told, that its wait for room for a frame has been reported (07 R135). -/
inductive Stage where
  | running | committing (exit : Nat) (next : BlockPtr) (stack : List BlockPtr) (told : Bool)
  deriving DecidableEq, Repr, Inhabited

/-- An executing activation (02 R21 to R25; 11 R224, R243); seeded is how often CX.SEED had been written when it began, rng the generator after its draws
(03 R58; 09 R169); began, the step at which it began. -/
structure Act where
  w       : Waiting
  ctx     : Nat
  blk     : Block
  recs    : List RecSlot
  temps   : List TempWrite
  outs    : List OutWrite
  exits   : List Nat
  redirs  : List (Option BlockPtr)
  views   : List RingView
  moves   : List CursorMove
  rwrites : List RingWrite
  stores  : List BufStore
  effects : List (Nat × Effect)
  flags   : BitVec 6
  recon   : Nat
  thr     : BitVec 32
  trap    : BitVec 6
  seeded  : Nat
  rng     : BitVec 32
  stime   : Int
  began   : Nat
  stage   : Stage
  deriving DecidableEq, Repr, Inhabited

/-- An element, a Newel or a demand unit (02 R20, R22): the activation chosen and not yet fetched, the activation that
executes, the last context served at each level (07 R129), the opportunity counter and whether its last opportunity was suppressed
(22 R375), the block its predictor saw follow each pointer and exit number of a context, the block that it fetched ahead (06 R124),
and the decoded blocks it keeps for a context (06 R122). -/
structure Cell where
  chosen  : Option Waiting
  act     : Option Act
  last    : List Nat
  opp     : BitVec 4
  denied  : Bool
  predict : List ((Nat × BlockPtr × Nat) × BlockPtr)
  ahead   : Option (Nat × Block)
  kept    : List (Nat × Block)
  deriving DecidableEq, Repr, Inhabited

/-! ### Contexts -/

/-- Residency of a context slot (04 R72, R73, R76). -/
inductive Residence where
  | absent | loading | resident | evicting
  deriving DecidableEq, Repr, Inhabited

/-- One sparse accumulator (15 R292): the occupied coordinates in ascending order with their lanes. -/
structure Spa where
  id   : Nat
  vals : List (Nat × BitVec 32)
  deriving DecidableEq, Repr, Inhabited

/-- What an element or a Newel keeps for one context (03 R58 to R60; 07 R125; 13 R277; 15 R292, R298): its copy of CX.FLAGS,
CX.BURST and CX.KVRS, its generator, its stall counters by block ordinal, its sparse accumulators. -/
structure ElemCtx where
  flags : Word
  burst : BitVec 32
  kvrs  : BitVec 32
  rng   : BitVec 32
  stall : List (Nat × List (BitVec 48))
  spas  : List Spa
  deriving DecidableEq, Repr, Inhabited

/-- A live tag (07 R131): who allocated it, its birth epoch, and for a source whether its activation is still to commit. -/
structure LiveTag where
  iter  : BitVec 16
  tagn  : Bool
  birth : BitVec 32
  busy  : Bool
  deriving DecidableEq, Repr, Inhabited

/-- One sink (04 R81, R82): its pending intervals, the delivered times of its bitmap, the masks of tiles part delivered,
the duplicate count, the demands that wait for the bitmap, and what it received. -/
structure Sink where
  k       : Nat
  pend    : List Ival
  bits    : List Int
  tiles   : List (Int × BitVec 128)
  dups    : Nat
  waiting : List Ival
  got     : List Token
  deriving DecidableEq, Repr, Inhabited

/-- A clone of an operator (07 R137 to R139): its element, its demand registers by the number of the edge, and whether the split
gives it no more times. -/
structure Copy where
  unit    : UnitId
  regs    : List (Nat × DReg)
  leaving : Bool
  deriving DecidableEq, Repr, Inhabited

/-- The state of one operator (04 R89 to R93; 07 R136 to R139; 11 R236): the interval that an unbounded operator serves, the times
of its run still to be done, the times of waiting intervals that DDONE has delivered already, its silent window; the clones, and the registers of the original while there are any; whether the last
window marked it as a bottleneck that is still to have a copy. -/
structure OpState where
  issue    : List Ival
  rtfQueue : List Ival
  queue    : List Ival
  serving  : Option Ival
  undone   : List Ival
  skipped  : List Ival
  silent   : Option Ival
  valid    : Bool
  stime    : Int
  landings : List Int
  mode     : Nat
  clones   : List Copy
  own      : List (Nat × DReg)
  want     : Bool
  quiet    : Nat
  busy     : Nat
  full     : Nat
  deriving DecidableEq, Repr, Inhabited

/-- An accumulator node (13 R260, R261): the loader's allocation, its shape, its lanes other than +0, its row tails other than
0, got, the last kc of each committing bay, and its queue of release counts with their targets and the activation that asked. -/
structure Node where
  bay      : Nat
  id       : Nat
  arows    : Nat
  acols    : Nat
  apair    : Bool
  rows     : Nat
  cols     : Nat
  pair     : Bool
  lanes    : List ((Nat × Nat) × BitVec 32)
  tails    : List (Nat × BitVec 16)
  got      : Nat
  lastKc   : List (Nat × Nat)
  releases : List (Nat × Nat × Pair × BlockPtr × TagWord × Stamp)
  deriving DecidableEq, Repr, Inhabited

/-- Where a record of the task queue stands (13 R265, R267, R277). -/
inductive TaskState where
  | queued | deferred (bay : Nat) (at_ : Nat) | running (bay : Nat) (declared : Bool) (at_ : Nat)
  deriving DecidableEq, Repr, Inhabited

/-- What a record of the task queue asks (13 R262, R270). -/
inductive TaskKind where
  | load (w : Nat) (b : Binding)
  | task (acap : Pair) (tagged : Bool) (d : TaskDesc) (b : Binding)
  deriving DecidableEq, Repr, Inhabited

/-- A record of a bay's task queue (13 R263): seq is its place in the commit order of the device; after, the stores to the
bay's scratchpad that its reads observe (13 R282). -/
structure Task where
  seq   : Nat
  bay   : Nat
  kind  : TaskKind
  unit  : UnitId
  ptr   : BlockPtr
  tag   : TagWord
  stamp : Stamp
  done  : Nat
  st    : TaskState
  flags : BitVec 6
  cut   : Bool
  after : List Nat
  deriving DecidableEq, Repr, Inhabited

/-- A named barrier (17 R315) with the BARWs registered on it (R318). -/
structure Barrier where
  bay      : Nat
  id       : Nat
  expArr   : BitVec 16
  expBytes : BitVec 40
  arr      : Nat
  bytes    : Nat
  phase    : Bool
  waiters  : List (UnitId × Nat)
  deriving DecidableEq, Repr, Inhabited

/-- The copy tags of a context in a bay (17 R319). -/
structure CopyTags where
  bay    : Nat
  bitmap : Word
  counts : List Nat
  deriving DecidableEq, Repr, Inhabited

/-- A power window of a context in a hall (13 R276): times in ns; open once it has opened. -/
structure Window where
  hall    : Nat
  openAt  : Nat
  closeAt : Nat
  adm     : Nat
  open_   : Bool
  deriving DecidableEq, Repr, Inhabited

/-- Where an evicting context is saved (04 R75, R76): CTXE's capability, the die of its Newel, the ASID of its activation, and
whether the area is written. -/
structure SaveArea where
  cap     : Pair
  die     : Nat
  asid    : BitVec 16
  written : Bool
  deriving DecidableEq, Repr, Inhabited

/-- A group of the work hierarchy that shares a memory tier (02 R40), with the flight links for level 5 (05 R99). -/
inductive Group where
  | element | bay (n : Nat) | hall (n : Nat) | wing (n : Nat) | die (n : Nat) | package | system
  deriving DecidableEq, Repr, Inhabited

/-- The groups bound to the scope levels 1 to 4 of a graph (05 R99): level 1 by operator, level 4 by synchronisation object. -/
structure Scopes where
  ops   : List Group
  graph : Group
  trap  : Group
  objs  : List (Nat × Group)
  deriving DecidableEq, Repr, Inhabited

/-- A segment of a track that a route takes (05 R100): from a tile of the package in a direction (0 east, 1 west, 2 south, 3 north), of
length 1, 4 or 16. -/
structure Segment where
  tile : Nat
  dir  : Nat
  len  : Nat
  deriving DecidableEq, Repr, Inhabited

/-- One context (04 R73; 20 R364); routes holds the segments of its streams (05 R100); area is where an eviction saves it; replay, that a replay of it has begun (20 R352); offered, the
tokens offered again that find no room (02 R405; 07 R135), by block, unit and port; seeds, how often CX.SEED has been written; windowAt, the step at which the window of the
resource manager began (07 R136). -/
structure Ctx where
  status   : Residence
  sys      : Bool
  image    : Image
  place    : List UnitId
  loadSeq  : Nat
  stream   : Nat
  asid     : BitVec 16
  part     : Word
  prio     : BitVec 4
  thr      : BitVec 32
  seed     : BitVec 32
  mpln     : BitVec 4
  stsel    : BitVec 12
  tagSet   : BitVec 16
  storeLim : BitVec 16
  pwrLim   : BitVec 16
  spillAt  : Option Nat
  storeAt  : Nat
  pwrAt    : Option Nat
  pwrUp    : Nat
  live     : List LiveTag
  tagnAt   : BitVec 16
  elems    : List (UnitId × ElemCtx)
  waiting  : List Waiting
  rings    : List Ring
  edges    : List Edge
  sinks    : List Sink
  ops      : List OpState
  held     : List (Nat × Ival)
  nodes    : List Node
  weights  : List (Nat × Nat × Binding)
  tasks    : List Task
  bars     : List Barrier
  tags     : List CopyTags
  ft       : Course
  seq      : BitVec 16
  launch   : Word
  digest   : BitVec 512
  area     : Option SaveArea
  replay   : Bool
  windows  : List Window
  offered  : List (BlockPtr × UnitId × Nat × Token)
  windowAt : Nat
  scopes   : Scopes
  routes   : List Segment
  seeds    : Nat
  deriving DecidableEq, Repr, Inhabited

/-! ### Newels -/

/-- A Newel (20 R362; 22 R382 to R384): NW.EVT.0 to NW.EVT.31, queued tokens by event, taken counts, saved successors; a save
after which nothing resumes holds none. -/
structure Newel where
  evt    : List Word
  queued : List (Nat × BitVec 32 × Course)
  taken  : List (BitVec 16)
  saved  : List (Option Waiting)
  deriving DecidableEq, Repr, Inhabited

/-! ### Memory and its ports -/

/-- Structure state of an aligned word that space 2 has used (10 R219): deferred keeps its queued readers, by request. -/
inductive StructState where
  | empty | deferred (readers : List Nat) | full
  deriving DecidableEq, Repr, Inhabited

/-- What a request asks of memory (11 R240; 17 R311): loads of an activation, stores and atomics of a commit, the courses of a
generator stream, the reads of an engine operation, and the held points of an operation or task as a whole. -/
inductive ReqKind where
  | load (n : Nat) (cap : Bool)
  | gather (ty : Ty) (idx : Course)
  | acquire (b : Word)
  | image (cap : Pair) (resume : Bool) (launch : Word)
  | store (d : StoreData)
  | atomic (fn : Nat) (ty : Ty) (b e : Word) (course : Option Course) (out : Option AtomicOut)
  | release
  | kvapp (pos : Nat) (vs : List (BitVec 32))
  | kvlen (layer n p : Nat)
  | genLoad (ty : Ty) (q n : Nat)
  | genStore (ty : Ty) (q n : Nat)
  | engineRead (dspace daddr n : Nat)
  | engineMap (dspace daddr : Nat)
  | engineTile (row col : Nat)
  | engineWords (off n : Nat)
  | engineStop (id : Nat)
  | matrixStop (seq : Nat)
  | chunkStop (id rank : Nat)
  deriving DecidableEq, Repr, Inhabited

/-- Where a request stands (20 R347, R348; 10 R218): again, that it is being re-issued at its place. -/
inductive ReqState where
  | waiting | queued | held (cls code : Nat) | moved | again
  deriving DecidableEq, Repr, Inhabited

/-- A leaf as a port holds it: the page's base, its size and the leaf (10 R207). -/
structure Page where
  va   : Nat
  size : Nat
  leaf : Word
  deriving DecidableEq, Repr, Inhabited

/-- A cached leaf of a port (10 R207). -/
structure CacheEntry where
  port : PortId
  asid : BitVec 16
  page : Page
  deriving DecidableEq, Repr, Inhabited

/-- A request that has left its port: the move at which it left, and for each class of its destinations its number among the port's
requests of that class with the mark that the routers put on it (05 R104). -/
structure Sent where
  at_   : Nat
  parts : List (Nat × Nat × Bool)
  deriving DecidableEq, Repr, Inhabited

/-- A request at a port, in order of issue by id; sent, once it has left the port. strm and load tell its stream (R347), trans the translations it has taken
(20 R358), after the requests it must follow (11 R243, R249; 17 R311), loops the counters of its stream (11 R245). -/
structure Req where
  id    : Nat
  port  : PortId
  ctx   : Nat
  strm  : Nat
  load_ : Nat
  unit  : UnitId
  rec_  : Nat
  ptr   : BlockPtr
  tag   : TagWord
  stamp : Stamp
  birth : BitVec 32
  space : Nat
  addr  : Nat
  asid  : BitVec 16
  kind  : ReqKind
  st    : ReqState
  sent  : Option Sent
  trans : List Page
  after : After
  loops : List Nat
  deriving DecidableEq, Repr, Inhabited

/-- The window of outstanding requests of a port for a destination class (05 R104): out holds the number and mark of each request
whose response has yet to come. -/
structure PortWin where
  port  : PortId
  cls   : Nat
  w     : Nat
  epoch : Nat
  next  : Nat
  clean : Nat
  out   : List (Nat × Bool)
  deriving DecidableEq, Repr, Inhabited

/-- A committed TLBI (20 R358, R359): the step of its commit, what it names, the requests its stores were, whether it has taken effect, the requests
it waits to drain. -/
structure Tlbi where
  id     : Nat
  step   : Nat
  page   : Nat
  count  : Nat
  asid   : BitVec 16
  all    : Bool
  after  : List Nat
  done   : Bool
  drain  : List Nat
  deriving DecidableEq, Repr, Inhabited

/-- A migration in progress (20 R360, R361): copied counts the courses of the page that have been copied, in order (10 R217). -/
structure Migration where
  id     : Nat
  asid   : BitVec 16
  va     : Nat
  size   : Nat
  old    : Word
  new    : Word
  pte    : Nat
  die    : Nat
  copied : Nat
  deriving DecidableEq, Repr, Inhabited

/-- A barrier contribution that waits for the stores it covers (17 R315); op, the COLL operation whose chunk it counts (R323). -/
structure Contribution where
  id    : Nat
  ctx   : Nat
  load_ : Nat
  bay   : Nat
  bar   : Nat
  arr   : Nat
  bytes : Nat
  after : List Nat
  op    : Option Nat
  deriving DecidableEq, Repr, Inhabited

/-- A ring entry written by a commit that waits for the stores below a FENCE (11 R249). -/
structure RingHold where
  after : After
  ctx   : Nat
  load_ : Nat
  q     : Nat
  n     : Nat
  v     : Val
  deriving DecidableEq, Repr, Inhabited

/-- A context that CTXE saved (04 R76): its area's key, its slot and the state. -/
structure Save where
  key  : Nat
  slot : Nat
  ctx  : Ctx
  deriving DecidableEq, Repr, Inhabited

/-- An engine operation (17 R320): id, its issuer by context, stream and block, operands, the stores it follows, its flags, the bytes
it has written, the pages that it skips by number (destination or not), the source bytes that it skips by offset and length. For COLL, words
is the source as far as it has been read, sent counts the chunks that have left, chunks holds those to be summed by source, stored the
chunks stored by index (sums or not). For CPYQ, tile holds the source courses read by row and place, and sent is 1 once its courses have
left. -/
structure EngineOp where
  id      : Nat
  ctx     : Nat
  load_   : Nat
  bay     : Nat
  unit    : UnitId
  tag     : TagWord
  stamp   : Stamp
  ptr     : BlockPtr
  kind    : EngineKind
  src     : Pair
  dst     : Pair
  ctag    : Nat
  bar     : Nat
  cnt     : Bool
  after   : List Nat
  started : Bool
  flags   : BitVec 6
  bytes   : Nat
  skip    : List (Nat × Bool)
  stored  : List (Nat × Bool)
  words   : List (BitVec 32)
  sent    : Nat
  chunks  : List (Nat × List (BitVec 32))
  tile    : List ((Nat × Nat) × Course)
  lost    : List (Nat × Nat)
  deriving DecidableEq, Repr, Inhabited

/-- What left the package towards the host, a peer or a flight link (log 7). -/
inductive OutMsg where
  | space3 (dev : Nat) (off : Nat) (kind : ReqKind)
  | space4 (addr : Nat) (kind : ReqKind)
  | flit (port : Nat) (f : Flit)
  | reply (dev : Nat) (code : Nat) (typed : Bool) (data : List Byte)
  | hostRead (off : Nat) (poison : Bool) (data : List Byte)
  | hostReg (off : Nat) (data : Word)
  | local_ (f : Flit)
  | replay (port seq : Nat)
  deriving DecidableEq, Repr, Inhabited

/-- Memory with its canonical form (Ops.lean): addresses rising, no listed byte equal to what an unlisted one reads as. -/
abbrev Memory := List Host.Cell

/-- The memory side of the device. -/
structure Net where
  structs   : List (Nat × StructState)
  captags   : List Nat
  poison    : List Nat
  asidTab   : Nat
  cache     : List CacheEntry
  wins      : List PortWin
  reqs      : List Req
  nextReq   : Nat
  tlbis     : List Tlbi
  nextTlbi  : Nat
  migs      : List Migration
  contribs  : List Contribution
  nextCon   : Nat
  engines   : List EngineOp
  nextEng   : Nat
  heldChunk : List (Nat × Chunk)
  saves     : List Save
  ringHeld  : List RingHold
  nextTask  : Nat
  out       : List OutMsg
  deriving DecidableEq, Repr, Inhabited

/-! ### Fabric, power, host, links -/

/-- A hall (22 R369 to R376): throttles, sensor and zones, voltage region with whether an uncorrectable error came since its last
check and when that was in ns, ballast grant in groups of four. -/
structure Hall where
  ksw      : Nat
  khw      : Nat
  temp     : BitVec 16
  warn     : Bool
  thr      : Bool
  hard     : Bool
  uv       : Bool
  lock     : Bool
  cetgt    : BitVec 8
  floor    : BitVec 16
  safe     : BitVec 16
  mv       : BitVec 16
  heldAt   : Nat
  erred    : Bool
  checkedAt : Nat
  lockedAt : Nat
  grant    : Nat
  failed   : Bool
  deriving DecidableEq, Repr, Inhabited

/-- A column of a B tile as the macros hold it (13 R254, R255): its 8-bit cells by row in its macro, and for a 16-bit B the low parts in
the second macro of the pair; the column exponent, and the non-finite mark. -/
structure Column where
  cells : List (BitVec 8)
  low   : List (BitVec 8)
  e     : Int
  wild  : Bool
  deriving DecidableEq, Repr, Inhabited

/-- The macro set of a bay (13 R254, R256; 22 R379): the binding whose cells it holds with the cells by column, the spare macros in use,
the ballast groups running with the time at which each burst ends. -/
structure MacroSet where
  binding : Option Binding
  cells   : List Column
  spares  : List (Nat × Nat)
  bursts  : List (Nat × Nat)
  deriving DecidableEq, Repr, Inhabited

/-- An HBM stack (10 R221, R222). -/
structure Stack where
  temp : BitVec 16
  band : BitVec 2
  hot  : Bool
  deriving DecidableEq, Repr, Inhabited

/-- A die's remap and spare state (05 R96; 23 R392, R393): the physical row of each, the row to be replaced, the spare elements in use;
aged, the elements, or the macros by the first element of their bay and their number, past their ageing limit and since which move. -/
structure Die where
  rows     : List Nat
  spareRow : Bool
  marked   : Option Nat
  elems    : List (Nat × Nat)
  aged     : List (UnitId × Option Nat × Nat)
  deriving DecidableEq, Repr, Inhabited

/-- An event token on its way to the Newel of a die: its event, birth and payload, and the unit that raised it (07 R128; 22 R383, R386). -/
structure EventTok where
  die   : Nat
  n     : Nat
  birth : BitVec 32
  tok   : Course
  by_   : Option UnitId
  deriving DecidableEq, Repr, Inhabited

/-- The fabric's hardware; failed names the bays that wait for the replacement of their row (23 R392); epochs counts each die's
epochs from the step epochFrom on (07 R128), countedAt is the step up to which the stall counters have counted (07 R125); evFly holds the event tokens on their way. -/
structure Fabric where
  halls  : List Hall
  sets   : List (Nat × MacroSet)
  hbm    : List Stack
  dies   : List Die
  dead   : List Nat
  failed : List Nat
  epochs : List Nat
  epochFrom : Nat
  countedAt : Nat
  evFly  : List EventTok
  deriving DecidableEq, Repr, Inhabited

/-- The package power controller and its registers (22 R372, R373, R377 to R380; 18 R336); sampledAt and tickedAt are the times in ns of
the last sample and of the last tick (22 R371, R378). -/
structure Power where
  sampledAt : Nat
  tickedAt : Nat
  thmax    : BitVec 16
  thhall   : BitVec 6
  twarn    : BitVec 16
  tthr     : BitVec 16
  thard    : BitVec 16
  w        : BitVec 32
  cap      : BitVec 16
  margin   : BitVec 16
  wus      : BitVec 16
  balset   : BitVec 16
  capi     : BitVec 32
  kp       : Nat
  pressure : Bool
  since    : Nat
  kpAt     : Nat
  aboveAt  : Option Nat
  expired  : Bool
  mayRaise : Bool
  stagEn   : Bool
  lock     : Bool
  trip     : Bool
  deriving DecidableEq, Repr, Inhabited

/-- What the host sees (04 R78; 18 R328; 23 R396): the demand window with its queues, the mailbox with the request it carries out,
attestation with the contexts that the report under way names, MSI-X; the residency requests that wait by their numbers, the slot that is being freed for one, the mailbox's among them; the UCIe lanes repaired;
whether the firmware is verified, the Newels halted, the windows open. -/
structure HostSide where
  acc     : List Word
  why     : List (BitVec 8)
  refs    : List (BitVec 32)
  queues  : List (List (Nat × Ival))
  req     : BitVec 192
  stat    : Word
  latched : BitVec 192
  nonce   : BitVec 256
  haCtxs  : List (BitVec 512 × Word)
  haStat  : Word
  report  : List Byte
  msix    : BitVec 3
  resid   : List (Residency × Nat)
  reserve : Option Nat
  nextRes : Nat
  mailRes : Option Nat
  ucie    : List Nat
  trained : Nat
  booted  : Bool
  halted  : Bool
  opened  : Bool
  deriving DecidableEq, Repr, Inhabited

/-- A flight-link port (18 R331, R332): seq is the number that the next flit received must have, next that of the next flit sent, and
unacked holds the flits sent and not yet acknowledged, oldest first; withheld, that the other end withholds the credits of vc 2 (17 R323). -/
structure LinkPort where
  crc     : BitVec 24
  vc      : BitVec 24
  spare   : Bool
  retrain : BitVec 8
  seq     : BitVec 8
  next    : BitVec 8
  unacked : List Flit
  up      : Bool
  withheld : Bool
  deriving DecidableEq, Repr, Inhabited

/-- The flight links (18 R333); rx holds, by port and group id, the flits of collective data that have arrived for this device and are not
yet a whole chunk (R335). -/
structure Links where
  ports  : List LinkPort
  id     : BitVec 22
  group  : List Nat
  locals : List Nat
  rx     : List (Nat × Nat × Flit)
  deriving DecidableEq, Repr, Inhabited

/-- Time: steps and ns since reset, and the clock that IEEE 1588 disciplines, in ns (00 R2; 18 R336; log 6). -/
structure Clock where
  steps : Nat
  ns    : Nat
  us    : Nat
  deriving DecidableEq, Repr, Inhabited

/-- The model's own: what moves next, the count of steps, the unit and record that fire, the subject of the event (log 1). -/
structure Sched where
  agenda  : List Move
  moves   : Nat
  cur     : Option (UnitId × Nat)
  subject : Subject
  deriving DecidableEq, Repr, Inhabited

/-- The device. -/
structure State where
  sched  : Sched
  clock  : Clock
  ctxs   : List Ctx
  cells  : List (UnitId × Cell)
  newels : List Newel
  mem    : Memory
  net    : Net
  fab    : Fabric
  power  : Power
  host   : HostSide
  links  : Links
  deriving DecidableEq, Repr, Inhabited

/-! ### Reset (23 R397) -/

/-- An image that declares nothing. -/
def Image.blank : Image := ⟨0, 0, 0, [], [], [], [], [], [], [], []⟩

/-- A context slot after reset: empty, its registers at their reset values (01 R15; 03 R59; 07 R127, R132; 13 R274; 14 R281). -/
def Ctx.reset : Ctx where
  status := .absent
  sys := false
  image := Image.blank
  place := []
  loadSeq := 0
  stream := 0
  asid := 0
  part := 0
  prio := 0
  thr := 0
  seed := 0
  mpln := 8
  stsel := 0
  tagSet := 0xFFFF
  storeLim := 0xFFFF
  pwrLim := 0xFFFF
  spillAt := none
  storeAt := 0
  pwrAt := none
  pwrUp := 0
  live := []
  tagnAt := 0xFFFF
  elems := []
  waiting := []
  rings := []
  edges := []
  sinks := []
  ops := []
  held := []
  nodes := []
  weights := []
  tasks := []
  bars := []
  tags := []
  ft := 0
  seq := 0
  launch := 0
  digest := 0
  area := none
  replay := false
  windows := []
  offered := []
  windowAt := 0
  scopes := ⟨[], .element, .element, []⟩
  routes := []
  seeds := 0

/-- A unit that is free and has chosen nothing. -/
def Cell.idle : Cell := ⟨none, none, [0, 0, 0, 0, 0, 0, 0, 0, 0, 0, 0, 0], 0, false, [], none, []⟩

/-- A Newel after reset (22 R382). -/
def Newel.reset : Newel := ⟨List.replicate 32 0, [], List.replicate 32 0, []⟩

/-- A hall after reset (22 R369, R371, R375). -/
def Hall.reset : Hall where
  ksw := 0
  khw := 0
  temp := 0
  warn := false
  thr := false
  hard := false
  uv := true
  lock := false
  cetgt := 4
  floor := 0x028A
  safe := 0x0320
  mv := 0x0320
  heldAt := 0
  erred := false
  checkedAt := 0
  lockedAt := 0
  grant := 0
  failed := false

/-- A macro set that holds no cells. -/
def MacroSet.empty : MacroSet := ⟨none, [], [], []⟩

/-- The memory side after reset (23 R397). -/
def Net.reset : Net :=
  { structs := [], captags := [], poison := [], asidTab := 0, cache := [], wins := [], reqs := [], nextReq := 0, tlbis := [],
    nextTlbi := 0, migs := [], contribs := [], nextCon := 0, engines := [], nextEng := 0, heldChunk := [], saves := [],
    ringHeld := [], nextTask := 0, out := [] }

/-- The fabric after reset: nothing remapped, epochs aligned (05 R96; 07 R128). -/
def Fabric.reset : Fabric where
  halls := List.replicate 64 Hall.reset
  sets := []
  hbm := List.replicate 8 ⟨0, 0, false⟩
  dies := List.replicate 4 ⟨[0, 1, 2, 3], false, none, [], []⟩
  dead := []
  failed := []
  epochs := [0, 0, 0, 0]
  epochFrom := 0
  countedAt := 0
  evFly := []

/-- The power controller after reset (22 R372, R373, R377; 18 R336). -/
def Power.reset : Power where
  sampledAt := 0
  tickedAt := 0
  thmax := 0
  thhall := 0
  twarn := 0x0640
  tthr := 0x06E0
  thard := 0x0780
  w := 0
  cap := 0x0BB8
  margin := 0x0064
  wus := 0x000A
  balset := 0
  capi := 0
  kp := 0
  pressure := false
  since := 0
  kpAt := 0
  aboveAt := none
  expired := false
  mayRaise := false
  stagEn := true
  lock := false
  trip := false

/-- The host's registers after reset (04 R78; 18 R328; 23 R396), the firmware verified and the windows open (R397). -/
def HostSide.reset : HostSide where
  acc := [0, 0, 0, 0]
  why := [0, 0, 0, 0]
  refs := [0, 0, 0, 0]
  queues := [[], [], [], []]
  req := 0
  stat := 0
  latched := 0
  nonce := 0
  haCtxs := []
  haStat := 0
  report := []
  msix := 0
  resid := []
  reserve := none
  nextRes := 0
  mailRes := none
  ucie := []
  trained := 0
  booted := true
  halted := false
  opened := true

/-- The flight links after reset (18 R332, R333). -/
def Links.reset : Links :=
  ⟨List.replicate 18 ⟨0, 0, false, 0, 0, 0, [], true, false⟩, 0, [], [], []⟩

/-- The device right after reset (23 R397): every context, frame, ring, node, barrier, tag, cache line and structure state
empty, memory with nothing listed, the registers at their reset values (log 5 where the spec gives none). -/
def State.reset : State where
  sched := ⟨[], 0, none, default⟩
  clock := ⟨0, 0, 0⟩
  ctxs := [Ctx.reset, Ctx.reset, Ctx.reset, Ctx.reset]
  cells := []
  newels := [Newel.reset, Newel.reset, Newel.reset, Newel.reset]
  mem := []
  net := Net.reset
  fab := Fabric.reset
  power := Power.reset
  host := HostSide.reset
  links := Links.reset

end Sys2Proof.Machine
end

