-- ==== Sys2Proof/Machine/Ops.lean ====
section
/-! DEFINITION. The named operations over memory, units, contexts and registers, and taking a fault (02, 10, 20). -/
namespace Sys2Proof.Machine

/-! ### Lists and association lists -/

/-- Element i of a list changed by f. -/
def modAt {α : Type} (l : List α) (i : Nat) (f : α → α) : List α :=
  match l, i with
  | [], _ => []
  | x :: t, 0 => f x :: t
  | x :: t, n + 1 => x :: modAt t n f

/-- The value of a key, or a default. -/
def getKey {α β : Type} [DecidableEq α] (l : List (α × β)) (k : α) (d : β) : β :=
  match l with
  | [] => d
  | (a, b) :: t => if a = k then b else getKey t k d

/-- The value of a key replaced, or the key added at the end. -/
def setKey {α β : Type} [DecidableEq α] (l : List (α × β)) (k : α) (v : β) : List (α × β) :=
  match l with
  | [] => [(k, v)]
  | (a, b) :: t => if a = k then (k, v) :: t else (a, b) :: setKey t k v

/-- The first index at which a predicate holds. -/
def indexOf? {α : Type} (l : List α) (p : α → Bool) : Option Nat :=
  match l with
  | [] => none
  | x :: t => if p x then some 0 else (indexOf? t p).map (· + 1)

/-- The list without its element i. -/
def dropAt {α : Type} (l : List α) (i : Nat) : List α := l.take i ++ l.drop (i + 1)

/-- The sum of a list of numbers. -/
def sumNat (l : List Nat) : Nat := l.foldl (· + ·) 0

/-- The k numbers from n upwards. -/
def span (n k : Nat) : List Nat := (List.range k).map (n + ·)

/-! ### Bytes (01 R12) -/

/-- The little-endian number of a list of bytes. -/
def bytesNat (l : List Byte) : Nat :=
  match l with
  | [] => 0
  | b :: t => b.toNat + 256 * bytesNat t

/-- The k low bytes of a number, lowest first. -/
def natBytes (n k : Nat) : List Byte :=
  match k with
  | 0 => []
  | k + 1 => BitVec.ofNat 8 n :: natBytes (n / 256) k

/-- The number of the n bytes of a list from an offset. -/
def fieldAt (l : List Byte) (off n : Nat) : Nat := bytesNat ((l.drop off).take n)

/-- A signed 64-bit reading of a number. -/
def toInt64 (n : Nat) : Int := (BitVec.ofNat 64 n).toInt

/-! ### Memory (10 R203, R208; log 4) -/

/-- What a byte of memory that nothing has written reads as (log 4). -/
def unlisted : Byte := 0

/-- The canonical form: addresses rising above a bound, no byte equal to what an unlisted one reads as. -/
def Memory.wfFrom (lo : Nat) (m : Memory) : Bool :=
  match m with
  | [] => true
  | (a, v) :: t => decide (lo ≤ a) && decide (v ≠ unlisted) && Memory.wfFrom (a + 1) t

/-- The canonical form of a memory. -/
def Memory.wf (m : Memory) : Bool := Memory.wfFrom 0 m

/-- The byte at an address. -/
def Memory.get (m : Memory) (a : Nat) : Byte :=
  match m with
  | [] => unlisted
  | (b, v) :: t => if a = b then v else Memory.get t a

/-- The memory with one byte written, in canonical form. -/
def Memory.set (m : Memory) (a : Nat) (v : Byte) : Memory :=
  match m with
  | [] => if v = unlisted then [] else [(a, v)]
  | (b, w) :: t =>
    if a < b then (if v = unlisted then (b, w) :: t else (a, v) :: (b, w) :: t)
    else if a = b then (if v = unlisted then t else (a, v) :: t)
    else (b, w) :: Memory.set t a v

/-- The n bytes from an address. -/
def Memory.bytes (m : Memory) (a n : Nat) : List Byte := (span a n).map fun x => Memory.get m x

/-- The memory with bytes written from an address. -/
def Memory.store (m : Memory) (a : Nat) (l : List Byte) : Memory :=
  match l with
  | [] => m
  | b :: t => Memory.store (Memory.set m a b) (a + 1) t

/-- The little-endian number of n bytes. -/
def Memory.num (m : Memory) (a n : Nat) : Nat := bytesNat (Memory.bytes m a n)

/-- The key at which a byte of HBM stands: PA[38:0] (10 R208). -/
def hbmKey (pa : Nat) : Nat := pa % 2 ^ 39
/-- The key at which a byte of the Undercroft stands (10 R208). -/
def croftKey (pa : Nat) : Nat := 2 ^ 39 + pa % 2 ^ 41
/-- The key at which a byte of the scratchpad of a context's stream in a bay stands (10 R202): a fresh load has bytes of its own. -/
def scratchKey (stream bay off : Nat) : Nat := 2 ^ 42 + (stream * 512 + bay) * 2 ^ 23 + off

/-! ### Places (00; 05 R95) -/

/-- The bay of a logical element. -/
def bayOf (e : Nat) : Nat := e / 8
/-- The hall of a bay. -/
def hallOfBay (b : Nat) : Nat := b / 7
/-- The die of a bay. -/
def dieOfBay (b : Nat) : Nat := b / 112
/-- The die of a hall. -/
def dieOfHall (h : Nat) : Nat := h / 16
/-- The wing of a hall within the package: wing 0 of a die holds its halls 0, 1, 4, 5, 8, 9, 12 and 13 (10 R209). -/
def wingOfHall (h : Nat) : Nat := (h / 16) * 2 + (h % 4) / 2
/-- The slot of a hall within its wing. -/
def slotOfHall (h : Nat) : Nat := (h % 16) / 4 * 2 + h % 2

/-- The tile row of a hall within its die (05 R96; 23 R392). -/
def rowOfHall (h : Nat) : Nat := h % 16 / 4

/-- The die of a unit; the demand unit of a context is taken with die 0. -/
def unitDie (u : UnitId) : Nat :=
  match u with
  | .element e => dieOfBay (bayOf e)
  | .newel d => d
  | .demand _ => 0

/-- How far a group reaches. -/
def Group.rank (g : Group) : Nat :=
  match g with
  | .element => 0
  | .bay _ => 1
  | .hall _ => 2
  | .wing _ => 3
  | .die _ => 4
  | .package => 5
  | .system => 6

/-- The wider of two groups of which one covers the other (05 R99). -/
def Group.wider (g h : Group) : Group := if g.rank < h.rank then h else g

/-- The bay of a unit; a Newel and a demand unit have bay numbers of their own beyond the fabric's (log 29). -/
def unitBay (u : UnitId) : Nat :=
  match u with
  | .element e => bayOf e
  | .newel d => 448 + d
  | .demand _ => 452

/-- A Newel. -/
def isNewel (u : UnitId) : Bool :=
  match u with
  | .newel _ => true
  | _ => false

/-- An element. -/
def isElement (u : UnitId) : Bool :=
  match u with
  | .element _ => true
  | _ => false

/-- The unit field of a fault record (20 R342). -/
def unitCode (u : UnitId) : Nat :=
  match u with
  | .element e => e
  | .newel d => 0xFFF0 + d
  | .demand _ => 0xFFFF

/-- The memory port of a unit (20 R347). -/
def unitPort (u : UnitId) : PortId :=
  match u with
  | .element e => ⟨0, bayOf e⟩
  | .newel d => ⟨5, d⟩
  | .demand _ => ⟨0, 0⟩

/-- The number of a port (20 R347). -/
def portCode (p : PortId) : Nat := p.kind * 4096 + p.index % 4096

/-! ### Units and contexts -/

/-- The cell of a unit. -/
def State.cell (s : State) (u : UnitId) : Cell := getKey s.cells u Cell.idle

/-- The cell of a unit replaced. -/
def State.putCell (s : State) (u : UnitId) (x : Cell) : State := { s with cells := setKey s.cells u x }

/-- The activation a unit executes. -/
def State.act (s : State) (u : UnitId) : Option Act := (s.cell u).act

/-- The activation a unit executes replaced. -/
def State.putAct (s : State) (u : UnitId) (a : Act) : State := s.putCell u { s.cell u with act := some a }

/-- A unit freed of its activation; the block fetched ahead of its commit goes with it (06 R124). -/
def State.freeUnit (s : State) (u : UnitId) : State := s.putCell u { s.cell u with act := none, chosen := none, ahead := none }

/-- A context. -/
def State.ctx (s : State) (c : Nat) : Ctx := s.ctxs.getD c Ctx.reset

/-- A context changed. -/
def State.modCtx (s : State) (c : Nat) (f : Ctx → Ctx) : State := { s with ctxs := modAt s.ctxs c f }

/-- The state of a context of a stream, in its slot or as saved, changed (20 R356). -/
def State.modHome (s : State) (c load : Nat) (f : Ctx → Ctx) : State :=
  let x := s.ctx c
  if load = 0 || (x.status ≠ .absent && x.stream = load) then s.modCtx c f
  else { s with net := { s.net with
    saves := s.net.saves.map fun v => if v.ctx.stream = load then { v with ctx := f v.ctx } else v } }

/-- The context of a stream, in its slot or as saved. -/
def State.homeCtx (s : State) (c load : Nat) : Ctx :=
  let x := s.ctx c
  if load = 0 || (x.status ≠ .absent && x.stream = load) then x
  else ((s.net.saves.find? fun v => v.ctx.stream = load).map (·.ctx)).getD x

/-- A Newel changed. -/
def State.modNewel (s : State) (d : Nat) (f : Newel → Newel) : State := { s with newels := modAt s.newels d f }

/-- A hall changed. -/
def State.modHall (s : State) (h : Nat) (f : Hall → Hall) : State :=
  { s with fab := { s.fab with halls := modAt s.fab.halls h f } }

/-- A hall. -/
def State.hall (s : State) (h : Nat) : Hall := s.fab.halls.getD h Hall.reset

/-- The row of a hall is marked for replacement at the next reset, where no row of its die is yet (23 R392). -/
def State.markRow (s : State) (h : Nat) : State :=
  { s with fab := { s.fab with dies := modAt s.fab.dies (dieOfHall h) fun d =>
      if d.marked.isSome then d else { d with marked := some (rowOfHall h) } } }

/-- A bay whose spares are used up waits for the replacement of its row (23 R392). -/
def State.failBay (s : State) (bay : Nat) : State :=
  let t := s.markRow (hallOfBay bay)
  if t.fab.failed.contains bay then t else { t with fab := { t.fab with failed := t.fab.failed ++ [bay] } }

/-- The physical tile of a logical bay: its row as the remap table moves it (05 R96). -/
def State.tileOf (s : State) (bay : Nat) : Nat :=
  let die := dieOfBay bay
  let row := bay % 112 / 28
  die * 140 + (((s.fab.dies[die]?).map fun d => d.rows.getD row row).getD row) * 28 + bay % 28

/-- Memory replaced. -/
def State.putMem (s : State) (m : Memory) : State := { s with mem := m }

/-- A message added to what left the package (log 7). -/
def State.emit (s : State) (o : OutMsg) : State := { s with net := { s.net with out := s.net.out ++ [o] } }

/-- The birth epoch count of a die (07 R128). -/
def State.epoch (s : State) (d : Nat) : BitVec 32 := BitVec.ofNat 32 (s.fab.epochs.getD d 0)

/-- The generator state of a unit for a seed (03 R58). -/
def seedFor (seed : BitVec 32) (u : UnitId) : BitVec 32 :=
  let x := seed ^^^ BitVec.ofNat 32 (unitCode u)
  if x = 0 then 1 else x

/-- What a unit keeps for a context: where nothing has changed it, zero with the generator as seeded. -/
def Ctx.elem (x : Ctx) (u : UnitId) : ElemCtx := getKey x.elems u ⟨0, 0, 0, seedFor x.seed u, [], []⟩

/-- What a unit keeps for a context changed. -/
def Ctx.modElem (x : Ctx) (u : UnitId) (f : ElemCtx → ElemCtx) : Ctx := { x with elems := setKey x.elems u (f (x.elem u)) }

/-- A context is resident (04 R72, R73). -/
def State.resident (s : State) (c : Nat) : Bool := (s.ctx c).status = .resident

/-- The block of an image with an ordinal. -/
def Ctx.block? (x : Ctx) (n : Nat) : Option BlkDesc := x.image.blocks[n]?

/-- The ordinal of the block with a pointer in the image of a context (07 R126). -/
def Ctx.ordinal? (x : Ctx) (p : BlockPtr) : Option Nat := indexOf? x.image.blocks fun b => b.ptr = p

/-- The operator of the block with a pointer. -/
def Ctx.opOf? (x : Ctx) (p : BlockPtr) : Option Nat :=
  match x.ordinal? p with
  | none => none
  | some n => (x.block? n).map (·.op)

/-- The ring of a context with a number. -/
def Ctx.ring? (x : Ctx) (q : Nat) : Option Ring := x.rings.find? fun r => r.q = q

/-- The ring of a context with a number changed. -/
def Ctx.modRing (x : Ctx) (q : Nat) (f : Ring → Ring) : Ctx :=
  { x with rings := x.rings.map fun r => if r.q = q then f r else r }

/-- The filled entries of a ring: those from the read cursor up to the first that a generator has yet to fill (02 R32;
11 R245). -/
def Ring.filled (r : Ring) : Nat :=
  ((span r.rd (r.wr - r.rd)).takeWhile fun n => (r.slots.getD (n % max 1 r.depth) none).isSome).length

/-- The free slots of a ring (02 R32; 11 R245). -/
def Ring.space (r : Ring) : Nat := r.depth - (r.wr - r.freed)

/-- Entry n of a ring, counted from the load. -/
def Ring.entry (r : Ring) (n : Nat) : Val := (r.slots.getD (n % max 1 r.depth) none).getD ⟨.scalar, 0, false⟩

/-- A ring as load n finds it: what a slot holds that no record has written is open (11 R227; log 55). -/
def Ring.fresh (r : Ring) (n : Nat) : Ring :=
  if r.kind = .const then r
  else { r with slots := (List.range r.depth).map fun i => some ⟨.course, Config.freeSlot n r.q i, false⟩ }

/-- Entry n of a ring written. -/
def Ring.put (r : Ring) (n : Nat) (v : Option Val) : Ring :=
  { r with slots := modAt r.slots (n % max 1 r.depth) fun _ => v }

/-! ### Tag words (02 R23) -/

/-- A tag word of its fields. -/
def tagWord (ctx frame iter : Nat) : TagWord := BitVec.ofNat 2 ctx ++ BitVec.ofNat 18 frame ++ BitVec.ofNat 16 iter
/-- The context of a tag word. -/
def tagCtx (t : TagWord) : Nat := (slice t 34 2).toNat
/-- The iteration tag of a tag word. -/
def tagIter (t : TagWord) : BitVec 16 := slice t 0 16
/-- A tag word with its context replaced (11 R228). -/
def tagWithCtx (t : Word) (c : Nat) : TagWord := BitVec.ofNat 2 c ++ slice t 0 34

/-- The stamp of a stream time (02 R24). -/
def stampOf (t : Int) : Stamp := BitVec.ofInt 48 t

/-! ### Events of the Newels (20 R344; 22 R383) -/

/-- An event token of a unit, or of none, sent to the Newel of a die, born in the epoch in which it is made, by that die's count (07 R128;
22 R386; log 135). -/
def State.raiseBy (s : State) (u : Option UnitId) (die n : Nat) (tok : Course) : State :=
  { s with fab := { s.fab with evFly := s.fab.evFly ++ [⟨die, n, s.epoch die, tok, u⟩] } }

/-- An event token that no unit issued. -/
def State.raise (s : State) (die n : Nat) (tok : Course) : State := s.raiseBy none die n tok

/-- The die whose Newel is the keystone Newel (00). -/
def keystone : Nat := 0

/-! ### Fault records (20 R342 to R344) -/

/-- What a fault record says beyond its unit and context. -/
structure FaultInfo where
  cls   : Nat
  code  : Nat
  rec_  : Nat
  port  : Nat
  addr  : Nat
  held  : Bool
  ptr   : BlockPtr
  tag   : TagWord
  stamp : Stamp
  loops : List Nat
  deriving DecidableEq, Repr, Inhabited

/-- The record of a fault (20 R342); charged unless of class 8 with a code other than 3 (20 R350, R353). -/
def faultRecord (f : FaultInfo) (unit ctx seq : Nat) : Course :=
  let l (i n : Nat) : BitVec n := BitVec.ofNat n (f.loops.getD i 0)
  0#16 ++ l 3 16 ++ l 2 16 ++ l 1 16 ++ l 0 32 ++ BitVec.ofNat 16 f.port ++ 0#8 ++ BitVec.ofNat 72 f.addr ++
  sextTo 64 f.stamp ++ 0#28 ++ f.tag ++ 0#32 ++ BitVec.ofNat 16 seq ++ 0#14 ++ f.ptr ++ 0#12 ++
  BitVec.ofBool (decide (f.cls ≠ 8 ∨ f.code = 3)) ++ BitVec.ofBool f.held ++ BitVec.ofNat 2 ctx ++
  BitVec.ofNat 16 unit ++ BitVec.ofNat 16 f.code ++ BitVec.ofNat 8 f.rec_ ++ BitVec.ofNat 8 f.cls

/-- The operator that is the trap graph of an image (20 R344). -/
def Image.trapOp? (i : Image) : Option Nat := indexOf? i.ops fun o => o.trap

/-- The 64-byte slots that a frame takes in the frame partition, or in the overflow area: its header and operands where it stands, and each
token parked beside it where that was placed (02 R26, R405; 07 R133). -/
def Waiting.slotsIn (w : Waiting) (spilled : Bool) : Nat :=
  match w.kind with
  | .frame => (if w.spilled = spilled then w.slots.length + 1 else 0) + (w.beside.filter fun y => y.2.2 = spilled).length
  | _ => 0

/-- The waiting activations of a context with those that its units have chosen or execute. -/
def State.allFrames (s : State) (c : Nat) : List Waiting :=
  (s.ctx c).waiting ++
  (s.cells.filterMap fun x => x.2.chosen).filter (fun w => tagCtx w.tag = c) ++
  (s.cells.filterMap fun x => x.2.act.map (·.w)).filter (fun w => tagCtx w.tag = c)

/-- The slots of the frame partition of a context in use in a bay (02 R26; 07 R133). -/
def State.partUsed (s : State) (c bay : Nat) : Nat :=
  sumNat (((s.allFrames c).filter fun w => isElement w.unit && unitBay w.unit = bay).map (·.slotsIn false))

/-- The slots of the frame partition of a context in each bay: 512 for each unit (02 R26). -/
def Ctx.partSlots (x : Ctx) : Nat := (slice x.part 0 8).toNat * 512

/-- The slots of a wing's overflow area: 256 MiB of 64 bytes (07 R133). -/
def overflowSlots : Nat := 2 ^ 22

/-- The slots of a wing's overflow area in use, by contexts that are away too (04 R76). -/
def State.overflowUsed (s : State) (wing : Nat) : Nat :=
  let used (l : List Waiting) : Nat :=
    sumNat ((l.filter fun w => isElement w.unit && wingOfHall (hallOfBay (unitBay w.unit)) = wing).map (·.slotsIn true))
  let away := s.net.saves.filter fun v => !((s.ctx v.slot).status ≠ .absent && (s.ctx v.slot).stream = v.ctx.stream)
  sumNat ([0, 1, 2, 3].map fun c => used (s.allFrames c)) + sumNat (away.map fun v => used v.ctx.waiting)

/-- The frames of a context in the frame store of a Newel (21 R365). -/
def State.newelFrames (s : State) (c die : Nat) : Nat :=
  ((s.allFrames c).filter fun w => decide (w.unit = .newel die) && decide (w.kind = .frame)).length

/-- Where a frame of n slots of a context can be placed: the partition of the bay, the overflow area of the wing, or nowhere
(07 R133, R135); on a Newel one of its 256 frames (21 R365). True is spilled. -/
def State.framePlace (s : State) (c : Nat) (u : UnitId) (n : Nat) : Option Bool :=
  match u with
  | .element e =>
    if s.partUsed c (bayOf e) + n ≤ (s.ctx c).partSlots then some false
    else if s.overflowUsed (wingOfHall (hallOfBay (bayOf e))) + n ≤ overflowSlots then some true
    else none
  | .newel d => if s.newelFrames c d < 256 then some false else none
  | .demand _ => none

/-- A waiting activation as it arises, with its input slots. -/
def Waiting.fresh (kind : WaitKind) (ptr : BlockPtr) (u : UnitId) (tag : TagWord) (stamp : Stamp) (birth : BitVec 32)
    (slots : List Slot) (since : Nat) : Waiting where
  kind := kind
  ptr := ptr
  unit := u
  tag := tag
  stamp := stamp
  birth := birth
  slots := slots
  parked := false
  spilled := false
  beside := []
  link := []
  gain := 0
  refused := 0
  made := since
  since := since
  silent := false
  restore := false
  origin := false
  after := ⟨[], []⟩

/-- A waiting activation added to a context. -/
def Ctx.withWaiting (x : Ctx) (w : Waiting) : Ctx := { x with waiting := x.waiting ++ [w] }

/-- The unit on which a block of an image is placed. -/
def Ctx.unitOf (x : Ctx) (n : Nat) : UnitId := x.place.getD n (.element 0)

/-- The effective live-tag limit (07 R132). -/
def Ctx.tagEff (x : Ctx) : Nat := min x.tagSet.toNat (min x.storeLim.toNat x.pwrLim.toNat)

/-- The store limit after a spill (07 R134): max(1, live div 2) at most once in 4 096 steps; its doublings count from then. -/
def Ctx.spill (x : Ctx) (now : Nat) : Ctx :=
  let y := max 1 (x.live.length / 2)
  if y < x.storeLim.toNat && x.spillAt.all fun t => decide (t + 4096 ≤ now) then
    { x with storeLim := BitVec.ofNat 16 y, spillAt := some now, storeAt := now }
  else x

/-- A record delivered as a course token to the trap graph of its context: a complete frame of its entry block. None where
there is no room for the frame (20 R344). -/
def State.toTrap (s : State) (c op : Nat) (rec : Course) (seq : Nat) (stamp : Stamp) : Option State :=
  let x := s.ctx c
  match x.image.ops[op]? with
  | none => none
  | some o =>
    let u := x.unitOf o.entry
    match x.block? o.entry, s.framePlace c u 2 with
    | some b, some spilled =>
      let w := Waiting.fresh .frame b.ptr u (tagWord c seq 0) stamp (s.epoch (unitDie u)) [⟨some ⟨.course, rec, false⟩, none, 0⟩]
        s.sched.moves
      some (s.modCtx c fun y => (if spilled then y.spill s.clock.steps else y).withWaiting { w with spilled := spilled })
    | _, _ => none

end Sys2Proof.Machine
end

