-- ==== Sys2Proof/Machine/Address.lean ====
section
/-! DEFINITION. The fields and bounds of a capability, and the bytes that a form names through it (08 R158 to R161; 10 R203; 11 R240,
R241). -/
namespace Sys2Proof.Machine

/-! ### The fields of a capability -/

/-- The cursor of a capability (08 R158). -/
def capCursor (p : Pair) : Nat := (slice p 0 72).toNat
/-- The off field. -/
def capOff (p : Pair) : Nat := (slice p 72 12).toNat
/-- The sz field. -/
def capSz (p : Pair) : Nat := (slice p 84 12).toNat
/-- The exponent e. -/
def capExp (p : Pair) : Nat := (slice p 96 6).toNat
/-- The object type. -/
def capOtype (p : Pair) : Nat := (slice p 104 8).toNat
/-- The space code. -/
def capSpace (p : Pair) : Nat := (slice p 112 4).toNat
/-- The permissions (08 R159). -/
def capPerm (p : Pair) : BitVec 12 := slice p 116 12

/-- A capability of its fields. -/
def capOf (perm : BitVec 12) (space otype e sz off cursor : Nat) : Pair :=
  perm ++ BitVec.ofNat 4 space ++ BitVec.ofNat 8 otype ++ 0#2 ++ BitVec.ofNat 6 e ++ BitVec.ofNat 12 sz ++
  BitVec.ofNat 12 off ++ BitVec.ofNat 72 cursor

/-- A capability with off and cursor replaced. -/
def capMove (p : Pair) (off cursor : Nat) : Pair :=
  slice p 84 44 ++ BitVec.ofNat 12 off ++ BitVec.ofNat 72 cursor

/-- The base of a capability (08 R160); 0 where the exponent is malformed. -/
def capBase (p : Pair) : Nat :=
  if 61 < capExp p then 0
  else (((capCursor p / 2 ^ capExp p : Nat) - (capOff p : Int)) * 2 ^ capExp p % 2 ^ 72).toNat

/-- The top of a capability (08 R160). -/
def capTop (p : Pair) : Nat :=
  if 61 < capExp p then 0 else min (2 ^ 72) (capBase p + capSz p * 2 ^ capExp p)

/-! ### Addresses of accesses -/

/-- The bytes of an element of a type; a T6 code takes one (11 R241). -/
def tySize (ty : Ty) : Nat := (ty.width + 7) / 8

/-- The signed offset of LIT. -/
def litOff (r : Rec) : Int := r.lit.toInt

/-- The address of a memory form: cursor plus an offset, modulo 2^72 (11 R240). -/
def accessAddr (p : Pair) (off : Int) : Nat := (((capCursor p : Int) + off) % 2 ^ 72).toNat

/-- The bytes of an access by a record's shape (11 R241). -/
def accessSize (r : Rec) : Nat :=
  match r.sh with
  | .scalar => tySize r.ty
  | .course => 64
  | .pair => 16

/-- Spaces that name the same words (10 R203). -/
def spaceClass (space : Nat) : Nat := if space = 2 then 0 else space

/-- Two ranges share a byte. -/
def rangesMeet (x y : Nat × Nat) : Bool := decide (x.1 < y.1 + y.2) && decide (y.1 < x.1 + x.2)

end Sys2Proof.Machine
end

