-- ==== Sys2Proof/Machine/Flags.lean ====
section
/-! DEFINITION. The arithmetic flags of CX.FLAGS: raising, trapping, and adding to a copy at commit (03 R59, R60). -/
namespace Sys2Proof.Machine

/-- No flag. -/
def noFlags : BitVec 6 := 0
/-- nv, invalid: flag bit 0. -/
def flagNv : BitVec 6 := 1
/-- dz, division by zero: flag bit 1. -/
def flagDz : BitVec 6 := 2
/-- of, overflow: flag bit 2. -/
def flagOf : BitVec 6 := 4
/-- uf, underflow: flag bit 3. -/
def flagUf : BitVec 6 := 8
/-- nx, inexact: flag bit 4. -/
def flagNx : BitVec 6 := 16
/-- sat, saturated: flag bit 5. -/
def flagSat : BitVec 6 := 32

/-- A flag where a condition holds. -/
def flagIf (b : Bool) (f : BitVec 6) : BitVec 6 := if b then f else noFlags

/-- The lowest set bit of a flag set: the code of an arithmetic trap (03 R60; log 20). -/
def lowestFlag (f : BitVec 6) : Nat :=
  if bit f 0 then 0 else if bit f 1 then 1 else if bit f 2 then 2 else if bit f 3 then 3 else if bit f 4 then 4 else 5

/-- The trap enables of a copy of CX.FLAGS. -/
def trapBits (w : Word) : BitVec 6 := slice w 32 6

/-- The reconstruction count of a copy of CX.FLAGS. -/
def hrecOf (w : Word) : Nat := (slice w 8 16).toNat

/-- A copy of CX.FLAGS of its fields. -/
def flagsWord (trap : BitVec 6) (hrec : Nat) (f : BitVec 6) : Word :=
  0#26 ++ trap ++ 0#8 ++ BitVec.ofNat 16 (min 0xFFFF hrec) ++ 0#2 ++ f

/-- A copy of CX.FLAGS after a commit: the flags ORed in, the reconstructions added with saturation (03 R60). -/
def addFlags (w : Word) (f : BitVec 6) (recon : Nat) : Word :=
  flagsWord (trapBits w) (hrecOf w + recon) (slice w 0 6 ||| f)

/-- A copy of CX.FLAGS as a write leaves it: the writable fields of the value (03 R59). -/
def writeFlags (v : Word) : Word := flagsWord (trapBits v) (hrecOf v) (slice v 0 6)

end Sys2Proof.Machine
end

