-- ==== Sys2Proof/Machine/Faults.lean ====
section
/-! DEFINITION. Taking a fault: what an activation that does not commit gives back, parking, and the record's delivery
(02 R21; 20 R340 to R348). -/
namespace Sys2Proof.Machine

/-- A request that belongs to an activation that has not committed. -/
def ReqKind.isLoad (k : ReqKind) : Bool :=
  match k with
  | .load _ _ | .acquire _ | .gather _ _ | .image _ _ _ => true
  | _ => false

/-- A load of an address generator (11 R245). -/
def ReqKind.isStream (k : ReqKind) : Bool :=
  match k with
  | .genLoad _ _ _ => true
  | _ => false

/-- The requests of the activation that a unit executes. -/
def State.loadsOf (s : State) (u : UnitId) : List Nat :=
  (s.net.reqs.filter fun q => q.unit = u && q.kind.isLoad).map (·.id)

/-- A structure word with some readers withdrawn from its queue; with none left it is empty again (10 R219). -/
def withdrawReaders (ids : List Nat) (l : List (Nat × StructState)) : List (Nat × StructState) :=
  l.map fun x =>
    match x.2 with
    | .empty | .full => x
    | .deferred rs =>
      let rs' := rs.filter fun i => !(ids.contains i)
      (x.1, if rs' = [] then .empty else .deferred rs')

/-- What the fired records of an activation took that a fault or an abandonment gives back: tags of TAGN (11 R231), the slots
that CTXL was loading, with the demands held for the context that was to be resumed (04 R73, R76). -/
def giveBack (c : Nat) (s : State) (e : Effect) : State :=
  match e with
  | .tagn it => s.modCtx c fun x => { x with live := x.live.filter fun t => !(t.tagn && t.iter = it) }
  | .loaded d =>
    let x := s.ctx d
    if x.status = .loading then (s.modCtx d fun _ => Ctx.reset).modHome d x.stream fun y => { y with held := x.held } else s
  | _ => s

/-- The effects of an activation that ends without committing: its requests, its places in reader queues and barriers, and
what its records took are given back (02 R21; 10 R219; 11 R231; 17 R318). -/
def State.withdraw (s : State) (u : UnitId) (a : Act) : State :=
  let ids := s.loadsOf u
  let s1 := { s with net := { s.net with
    reqs := s.net.reqs.filter fun q => !(ids.contains q.id)
    structs := withdrawReaders ids s.net.structs } }
  let s2 := s1.modCtx a.ctx fun x =>
    { x with bars := x.bars.map fun b => { b with waiters := b.waiters.filter fun y => y.1 ≠ u } }
  a.effects.foldl (fun t e => giveBack a.ctx t e.2) s2

/-- The unit of the trap graph's entry block is where the fault came from. -/
def State.isTrapBlock (s : State) (c : Nat) (p : BlockPtr) : Bool :=
  match (s.ctx c).image.trapOp?, (s.ctx c).opOf? p with
  | some t, some o => decide (t = o)
  | _, _ => false

/-- A fault record sent to the trap graph or to the Newel of a die, or to the Newel alone, with the FT registers and seq updated (20
R342 to R344; R350, R353; log 21). -/
def State.deliverTo (s : State) (newel : Bool) (f : FaultInfo) (unit die c : Nat) : State :=
  let x := s.ctx c
  let seq := x.seq.toNat
  let rec_ := faultRecord f unit c seq
  let s1 := s.modCtx c fun y => { y with seq := y.seq + 1, ft := rec_ }
  let toNewel := s1.raise die (if f.cls = 8 ∧ f.code ≠ 3 then 2 else 1) rec_
  if newel ∨ f.cls = 8 ∨ f.cls = 10 ∨ s.isTrapBlock c f.ptr then toNewel
  else match x.image.trapOp? with
    | none => toNewel
    | some o => (s1.toTrap c o rec_ seq f.stamp).getD toNewel

/-- A fault record sent to the trap graph or to the Newel of a die. -/
def State.deliverFault (s : State) (f : FaultInfo) (unit die c : Nat) : State := s.deliverTo false f unit die c

/-- An activation belongs to a handler. -/
def Waiting.isHandler (w : Waiting) : Bool :=
  match w.kind with
  | .handler _ _ => true
  | _ => false

/-- What an activation that faulted was waiting as is parked; an rtf block's interval is dropped, and a handler's token
discarded, which its event's lost bit says (20 R345; 04 R84; 22 R382, R384). -/
def State.park (s : State) (a : Act) : State :=
  match a.w.kind with
  | .rtf _ => s
  | .handler n _ => s.modNewel (unitDie a.w.unit) fun y => { y with evt := modAt y.evt n fun w => w ||| 32#64 }
  | _ => s.modCtx a.ctx fun x => x.withWaiting { a.w with parked := true }

/-- An activation faults (20 R345): it gives back what it took, its frame, chained inputs or source time is parked, its unit is free
and the record is sent; a handler's goes to its Newel (22 R384). -/
def State.takeFault (s : State) (u : UnitId) (a : Act) (j cls code port addr : Nat) : State :=
  let f : FaultInfo := ⟨cls, code, j, port, addr, false, a.w.ptr, a.w.tag, a.w.stamp, []⟩
  (((s.withdraw u a).freeUnit u).park a).deliverTo a.w.isHandler f (unitCode u) (unitDie u) a.ctx

/-- An activation faults with no new record (20 R349, a held load cancelled). -/
def State.takeFaultSilent (s : State) (u : UnitId) (a : Act) : State :=
  ((s.withdraw u a).freeUnit u).park a

/-- An activation is abandoned as if it had never begun (02 R21; 20 R351, R355). -/
def State.abandon (s : State) (u : UnitId) : State :=
  match s.act u with
  | none => s
  | some a => ((s.withdraw u a).freeUnit u).modCtx a.ctx fun x => x.withWaiting a.w

/-- A request changed. -/
def State.modReq (s : State) (i : Nat) (f : Req → Req) : State :=
  { s with net := { s.net with reqs := s.net.reqs.map fun q => if q.id = i then f q else q } }

/-- A request. -/
def State.req? (s : State) (i : Nat) : Option Req := s.net.reqs.find? fun q => q.id = i

/-- No request of a list is still to be performed. -/
def State.over (s : State) (ids : List Nat) : Bool := ids.all fun i => !(s.net.reqs.any fun q => q.id = i)

/-- Every request of a list has left its port, or is over (05 R99, level 0). -/
def State.gone (s : State) (ids : List Nat) : Bool := ids.all fun i => !(s.net.reqs.any fun q => q.id = i && q.sent.isNone)

/-- What comes after requests may go on (11 R249). -/
def State.follows (s : State) (x : After) : Bool := s.over x.home && s.gone x.port

/-- The ring entries that waited for stores now at their point of coherence are released (11 R249). -/
def State.releaseRings (s : State) : State :=
  let go := s.net.ringHeld.filter fun h => s.follows h.after
  let s1 := { s with net := { s.net with ringHeld := s.net.ringHeld.filter fun h => !(s.follows h.after) } }
  go.foldl (fun t h => t.modHome h.ctx h.load_ fun x => x.modRing h.q fun g => g.put h.n (some h.v)) s1

/-- A load of the activation that a unit executes is held at its port, so that it neither commits nor faults (20 R348). -/
def State.loadHeld (s : State) (u : UnitId) : Bool :=
  s.net.reqs.any fun q => q.unit = u && q.kind.isLoad && (match q.st with
    | .held _ _ => true
    | _ => false)

/-- A request over: performed, or discarded. -/
def State.dropReq (s : State) (i : Nat) : State :=
  { s with net := { s.net with reqs := s.net.reqs.filter fun q => q.id ≠ i } }.releaseRings

/-- A request added, with the next id. -/
def State.addReq (s : State) (q : Req) : State :=
  { s with net := { s.net with reqs := s.net.reqs ++ [{ q with id := s.net.nextReq }], nextReq := s.net.nextReq + 1 } }

/-- Two requests are of one stream (20 R347); the requests of a Newel are one stream. -/
def sameStream (p q : Req) : Bool := p.port = q.port && p.strm = q.strm && (p.port.kind = 5 || p.load_ = q.load_)

/-- A request is stopped: held, or refused "moved". -/
def ReqState.stopped (x : ReqState) : Bool :=
  match x with
  | .held _ _ | .moved => true
  | _ => false

/-- A request that stops the younger ones of its stream: one that is stopped, or not yet re-issued at its place (10 R218; 20 R348). -/
def ReqState.stops (x : ReqState) : Bool := x.stopped || x = .again

/-- A request goes on: it waits for its translation, its window and its turn. -/
def ReqState.goes (x : ReqState) : Bool := x = .waiting || x = .again

/-- The point at which an operation or a task stands as a whole, which no older request of its stream goes before. -/
def ReqKind.whole (k : ReqKind) : Bool :=
  match k with
  | .engineStop _ | .matrixStop _ | .chunkStop _ _ => true
  | _ => false

/-- A request is the oldest unperformed one of its stream; readers queued at a structure word have gone ahead (20 R347). -/
def State.headOf (s : State) (q : Req) : Bool :=
  q.kind.whole || s.net.reqs.all fun p => decide (q.id ≤ p.id) || p.st = .queued || !(sameStream p q)

/-- A request that takes its pages afresh no longer keeps a TLBI from draining (20 R359). -/
def State.undrain (s : State) (id : Nat) : State :=
  { s with net := { s.net with tlbis := s.net.tlbis.map fun t => { t with drain := t.drain.filter fun i => i ≠ id } } }

/-- A request is held at its port and its record sent (20 R347), to the Newel while its context is away (R355); a younger request than
the oldest of its stream waits until it is that one. -/
def State.holdReq (s : State) (q : Req) (cls code : Nat) (loops : List Nat) : State :=
  if !(s.headOf q) then s
  else
  let f : FaultInfo := ⟨cls, code, q.rec_, portCode q.port, q.addr, true, q.ptr, q.tag, q.stamp, loops⟩
  let unit := if q.port.kind = 0 ∨ q.port.kind = 5 then unitCode q.unit else 0xFFFF
  let die := if q.port.kind = 4 then 0 else unitDie q.unit
  let s1 := s.modReq q.id fun y => { y with st := .held cls code, trans := [], sent := none }
  let x := s.ctx q.ctx
  if q.load_ = 0 || (x.status ≠ .absent && x.stream = q.load_) then s1.deliverFault f unit die q.ctx
  else
    let rec_ := faultRecord f unit q.ctx (s.homeCtx q.ctx q.load_).seq.toNat
    (s1.modHome q.ctx q.load_ fun y => { y with seq := y.seq + 1, ft := rec_ }).raise die (if cls = 8 ∧ code ≠ 3 then 2 else 1) rec_

end Sys2Proof.Machine
end

