-- ==== Sys2Proof/Machine/Operands.lean ====
section
/-! DEFINITION. The operands of a record: selectors, temporaries, ring heads, and when each can be read (01 R6 to R9; 02 R25,
R30, R33; 06 R113; 11 R224, R225). -/
namespace Sys2Proof.Machine

/-! ### Values -/

/-- A scalar value. -/
def Val.ofWord (w : Word) : Val := ⟨.scalar, zextTo 512 w, false⟩
/-- A scalar value of a number modulo 2^64. -/
def Val.ofNat (n : Nat) : Val := Val.ofWord (BitVec.ofNat 64 n)
/-- A course value. -/
def Val.ofCourse (c : Course) : Val := ⟨.course, c, false⟩
/-- A pair value with its tag. -/
def Val.ofPair (p : Pair) (cap : Bool) : Val := ⟨.pair, zextTo 512 p, cap⟩
/-- The low 64 bits of a value (06 R113). -/
def Val.word (v : Val) : Word := slice v.bits 0 64
/-- The low 128 bits of a value (06 R113). -/
def Val.pair (v : Val) : Pair := slice v.bits 0 128
/-- The tag of a value as a pair reader sees it: only a pair keeps it (06 R113). -/
def Val.tagged (v : Val) : Bool := v.cap && decide (v.sh = .pair)
/-- Bit 0 as a truth value (01 R8). -/
def Val.truth (v : Val) : Bool := bit v.bits 0
/-- A value read at a shape: cut or zero-extended, the tag kept from pair to pair (06 R113). -/
def Val.at (v : Val) (sh : Shape) : Val :=
  match sh with
  | .scalar => Val.ofWord v.word
  | .course => Val.ofCourse v.bits
  | .pair => Val.ofPair v.pair v.tagged
/-- The zero of a shape (02 R25). -/
def Val.zero (sh : Shape) : Val := ⟨sh, 0, false⟩

/-- The 64-bit reading of a literal by the type of its record (01 R9): sign-extended for I64, I32 and CAP, else
zero-extended. -/
def litWord (ty : Ty) (lit : BitVec 32) : Word :=
  match ty with
  | .i64 | .i32 | .cap => sextTo 64 lit
  | _ => zextTo 64 lit

/-! ### What each form reads, moves and orders -/

/-- The form and fields of record k of an activation. -/
def Act.info (a : Act) (k : Nat) : Option (Op × Rec) :=
  match a.blk.nodes[k]? with
  | none => none
  | some w => (Op.ofCode (slice w 88 8) (slice w 84 4) (slice w 0 32)).map fun o => (o, parseFields w)

/-- The state of record k of an activation. -/
def Act.slot (a : Act) (k : Nat) : RecSlot := a.recs.getD k ⟨.skipped, none, none, none, none, []⟩

/-- A record is settled: fired or nullified. One that a Newel has skipped is not, as one that never fires is not (02 R25, R39). -/
def RecState.settled (x : RecState) : Bool :=
  match x with
  | .fired | .nullified => true
  | _ => false

/-- A record will not fire any more: settled or skipped. -/
def RecState.closed (x : RecState) : Bool :=
  match x with
  | .fired | .nullified | .skipped => true
  | _ => false

/-- The state of one record replaced. -/
def Act.setSt (a : Act) (j : Nat) (x : RecState) : Act := { a with recs := modAt a.recs j fun r => { r with st := x } }

/-- The temporary of a selector. -/
def srcTemp (x : Src) : List Nat :=
  match x with
  | .temp k => [k.val]
  | _ => []

/-- The temporaries that a form names in AX as further operands (08 R153; 09 R169; 11 R223; 15 R287; 17). -/
def thirdTemps (o : Op) (r : Rec) : List Nat :=
  let k := (slice r.ax 0 3).toNat
  match o with
  | .mad | .selp | .clamp | .ffma | .vfma | .vsel | .ldq | .stq | .stx | .acas | .mtask | .cpy | .cpyq |
    .collGather | .collRsum | .collAsum | .collBcast | .cxpt | .pxlt | .kvapp => [k]
  | .st => if bit r.ax 3 then [k] else []
  | .smxm => [k, (slice r.ax 3 3).toNat]
  | _ => []

/-- The temporaries that a record reads. -/
def tempReads (o : Op) (r : Rec) : List Nat := srcTemp r.a ++ srcTemp r.b ++ thirdTemps o r

/-- A record names a temporary as a destination. -/
def namesTemp (r : Rec) (k : Nat) : Bool :=
  (match r.d0 with | .temp i => decide (i.val = k) | _ => false) || (match r.d1 with | .temp i => decide (i.val = k) | _ => false)

/-- A use of a ring cursor: the ring, whether it is the read cursor, whether the record moves it (11 R225). -/
abbrev CursorUse := Nat × Bool × Bool

/-- The ring cursors that a record uses (11 R225, R226, R245; 09 R182; 15 R287). -/
def cursorUses (o : Op) (r : Rec) : List CursorUse :=
  let q := (slice r.lit 0 4).toNat
  let d := (slice r.ax 0 4).toNat
  (r.ringSources.map fun n => (n, true, false)) ++
  (match o with
   | .rrd => [(q, true, false)]
   | .rwr | .vcvt | .hfwd | .hinv => [(q, false, false)]
   | .radv | .stq => [(q, true, true)]
   | .wadv | .ldq => [(q, false, true)]
   | .rfill => [(q, true, false), (q, false, false)]
   | .xsect => [(q, true, true), ((slice r.lit 4 4).toNat, true, true)]
   | .fibrd | .spfl => [(d, false, true)]
   | .fibwr => [(d, true, true)]
   | _ => [])

/-- Two records are ordered by a cursor (11 R225). -/
def cursorClash (x y : List CursorUse) : Bool :=
  x.any fun u => y.any fun v => u.1 = v.1 && u.2.1 = v.2.1 && (u.2.2 || v.2.2)

/-- A form that loads when it fires (11 R241, R249; 15). -/
def isLoadOp (o : Op) : Bool :=
  match o with
  | .ld | .ldc | .ldx | .lds | .acq | .fibrd | .pxlt | .kvapp | .kvlen | .land | .lrest | .mldb => true
  | _ => false

/-- A form that buffers a store (11 R241, R237; 15 R290, R296). -/
def isStoreOp (o : Op) : Bool :=
  match o with
  | .st | .stc | .stx | .sts | .lrest | .fibwr | .kvapp => true
  | _ => false

/-- A form that works on a sparse accumulator. -/
def isSpaOp (o : Op) : Bool := o = .spacc || o = .spfl

/-- A record that a later one waits for while it may still fire, whatever it touches: draws in order (03 R58), the forms of one sparse
accumulator (15 R293, R294). -/
def softBefore (x y : Op × Rec) : Bool :=
  (x.1 = .vqnt && x.2.fn = 4 && y.1 = .vqnt && y.2.fn = 4) ||
  (isSpaOp x.1 && isSpaOp y.1 && slice x.2.lit 0 2 = slice y.2.lit 0 2)

/-- Every lower-indexed record that meets a condition is in a state that meets another. -/
def Act.lowerAre (a : Act) (j : Nat) (ok : RecState → Bool) (p : Op × Rec → Bool) : Bool :=
  (List.range j).all fun k =>
    match a.info k with
    | none => true
    | some x => !(p x) || ok (a.slot k).st

/-- Every lower-indexed record that meets a condition is settled. -/
def Act.lowerSettled (a : Act) (j : Nat) (p : Op × Rec → Bool) : Bool := a.lowerAre j RecState.settled p

/-- The order that FENCE and ACQ put on the loads of higher index (11 R249, R250). -/
def Act.loadOrdered (a : Act) (j : Nat) : Bool :=
  (List.range j).all fun k =>
    match a.info k with
    | none => true
    | some (o, _) =>
      if o = .fence && (a.slot k).st ≠ .nullified then a.lowerSettled k fun x => isLoadOp x.1
      else if o = .acq then (a.slot k).st.settled
      else true

/-- The operands that a record waits for on its own ports have arrived; MERGE waits for either (02 R33; 08 R146). -/
def portsHeld (o : Op) (r : Rec) (x : RecSlot) : Bool :=
  if o = .mergeOp then x.a.isSome || x.b.isSome
  else (decide (r.a ≠ .port) || x.a.isSome) && (decide (r.b ≠ .port) || x.b.isSome)

/-- What the predicate of a record says: wait, no, or go (01 R8; 02 R33). -/
inductive PredState where
  | wait | no | go
  deriving DecidableEq, Repr, Inhabited

/-- The predicate of a record by its predicate port. -/
def predState (r : Rec) (x : RecSlot) : PredState :=
  match r.pq, x.p with
  | .none, _ => .go
  | _, none => .wait
  | .onTrue, some v => if v.truth then .go else .no
  | .onFalse, some v => if v.truth then .no else .go

/-- A record can fire: its predicate and operands are there, and the orders of R25, R225, R249 and R250 let it. -/
def Act.ready (a : Act) (j : Nat) : Bool :=
  match a.info j with
  | none => false
  | some (o, r) =>
    let x := a.slot j
    (x.st = .idle || x.st = .waiting) && predState r x = .go && portsHeld o r x &&
    (a.lowerSettled j fun y => (tempReads o r).any fun k => namesTemp y.2 k) &&
    (a.lowerSettled j fun y => cursorClash (cursorUses o r) (cursorUses y.1 y.2)) &&
    (!(isLoadOp o) || a.loadOrdered j)

/-- A record's predicate has come and mismatches (02 R33; log 22). -/
def Act.nullifiable (a : Act) (j : Nat) : Bool :=
  match a.info j with
  | none => false
  | some (_, r) => (a.slot j).st = .idle && predState r (a.slot j) = .no

/-- A record is executing: its request is out. -/
def RecState.busy (x : RecState) : Bool :=
  match x with
  | .issued _ => true
  | _ => false

/-- No record executes and none is ready (02 R34). -/
def Act.quiet (a : Act) : Bool :=
  (List.range a.recs.length).all fun k => !((a.slot k).st.busy) && !(a.nullifiable k) && !(a.ready k)

/-- On a Newel a record's turn has come: no lower one executes or can fire (02 R39). -/
def Act.turn (a : Act) (j : Nat) : Bool :=
  (List.range j).all fun k => !((a.slot k).st.busy) && !(a.nullifiable k) && !(a.ready k)

/-- The records below j whose turn has passed are skipped (02 R39). -/
def Act.skipBelow (a : Act) (j : Nat) : Act :=
  (List.range j).foldl (fun x k => if (x.slot k).st.closed then x else x.setSt k .skipped) a

/-! ### Reading -/

/-- The write of temporary k that record j sees: that of the highest lower-indexed record (02 R25). -/
def Act.tempWrite (a : Act) (j k : Nat) : Option TempWrite :=
  match a.temps.filter fun w => decide (w.j < j) && decide (w.k = k) with
  | [] => none
  | w :: t => some (t.foldl (fun (best : TempWrite) x => if best.j < x.j then x else best) w)

/-- What record j reads in temporary k: that write, or zero (02 R25). -/
def Act.temp (a : Act) (j k : Nat) : Val := ((a.tempWrite j k).map (·.v)).getD (Val.zero .pair)

/-- MERGE takes port a: the one that had its token first, port a where both came in one step; on a Newel port a where it holds a
token (08 R146). -/
def mergesA (newel : Bool) (x : RecSlot) : Bool :=
  match x.a, x.b with
  | some _, none => true
  | none, _ => false
  | some _, some _ => newel || (x.first.map (·.1)).getD true

/-- The ring writers that record j comes after by their D0 tokens, through the tokens and temporaries that it reads (09 R182). -/
def Act.past (a : Act) (newel : Bool) (j : Nat) : List Nat :=
  match a.info j with
  | none => []
  | some (o, r) =>
    let x := a.slot j
    let read (q : NodePort) : Bool :=
      match q with
      | .a => o ≠ .mergeOp || mergesA newel x
      | .b => o ≠ .mergeOp || !(mergesA newel x)
      | .p => true
    ((x.past.filter fun y => read y.1).map (·.2)) ++
    (tempReads o r).flatMap fun k => ((a.tempWrite j k).map (·.past)).getD []

/-- The moves of a ring's cursor by records below j (02 R30). -/
def Act.moved (a : Act) (j q : Nat) (read : Bool) : Nat :=
  sumNat ((a.moves.filter fun m => decide (m.j < j) && decide (m.q = q) && m.read = read).map (·.n))

/-- The window of a ring fixed when the activation began (11 R224). -/
def Act.view (a : Act) (q : Nat) : RingView := (a.views.find? fun v => v.q = q).getD ⟨q, 0, 0, 0, 0⟩

/-- The answer of a ring read: the value, a wait, a breach of the window, or a pad or reserved word of a fibre ring (15 R285). -/
inductive RingAnswer where
  | val (v : Val) | wait | breach | reserved
  deriving DecidableEq, Repr, Inhabited

/-- A fibre token whose coordinate word is a pad or reserved (15 R284, R285). -/
def badToken (v : Val) : Bool := decide (0xFFFFFFF8 ≤ (slice v.bits 0 32).toNat)

/-- Entry n of a ring as record j sees it: what the highest of the activation's own writers wrote there that j comes after by a D0
token, else the committed entry (09 R182; 11 R227). -/
def ownEntry (g : Ring) (a : Act) (newel : Bool) (j n : Nat) : Val :=
  match a.rwrites.filter fun w => w.q = g.q && w.n = n && (a.past newel j).contains w.j with
  | [] => g.entry n
  | w :: t => (t.foldl (fun (best : RingWrite) y => if best.j < y.j then y else best) w).v

/-- The entry of a ring at an offset from the head that record j sees (09 R182; 11 R224; 15 R286). -/
def ringRead (x : Ctx) (a : Act) (j q off : Nat) : RingAnswer :=
  match x.ring? q with
  | none => .breach
  | some g =>
    let n := a.moved j q true + off
    let seen := ownEntry g a (isNewel a.w.unit) j ((a.view q).h0 + n)
    match g.kind with
    | .const => if n < g.depth then .val (g.entry n) else .breach
    | .stream => if n < g.take then .val seen else .breach
    | .fibre =>
      if g.rd + g.filled ≤ (a.view q).h0 + n then .wait
      else if badToken seen then .reserved
      else .val seen

/-- Where a write at an offset goes, or a wait or a breach (11 R224; 15 R286). -/
inductive RingSpot where
  | at_ (n : Nat) | wait | breach
  deriving DecidableEq, Repr, Inhabited

/-- The place of a write of m entries at an offset from the write position that record j sees. -/
def ringSpot (x : Ctx) (a : Act) (j q off m : Nat) : RingSpot :=
  match x.ring? q with
  | none => .breach
  | some g =>
    let n := a.moved j q false + off
    match g.kind with
    | .const => .breach
    | .stream => if n + m ≤ g.give then .at_ ((a.view q).w0 + n) else .breach
    | .fibre =>
      if (a.view q).w0 + n + m ≤ g.freed + g.depth then .at_ ((a.view q).w0 + n)
      else .wait

/-- A move of n of the read cursor that record j makes stays in the window (11 R224; 15 R286). -/
def ringAdvance (x : Ctx) (a : Act) (j q n : Nat) : RingSpot :=
  match x.ring? q with
  | none => .breach
  | some g =>
    let m := a.moved j q true + n
    match g.kind with
    | .const => .breach
    | .stream => if m ≤ g.take then .at_ ((a.view q).h0 + m) else .breach
    | .fibre => if (a.view q).h0 + m ≤ g.wr then .at_ ((a.view q).h0 + m) else .wait

/-- What a record's source gives: a value, a wait of a fibre ring, or the class and code of a fault with its ring. -/
inductive SrcAnswer where
  | val (v : Val) | wait | bad (cls code q : Nat)
  deriving DecidableEq, Repr, Inhabited

/-- The value of a source; q is the ring of a ring selector (01 R6). -/
def readSrc (x : Ctx) (a : Act) (j : Nat) (r : Rec) (src : Src) (port : Option Val) (q : Nat) : SrcAnswer :=
  match src with
  | .port => .val (port.getD (Val.zero .scalar))
  | .temp k => .val (a.temp j k.val)
  | .lit => .val (Val.ofWord (litWord r.ty r.lit))
  | .zero => .val (Val.zero .pair)
  | .stamp => .val (Val.ofWord (sextTo 64 a.w.stamp))
  | .tag => .val (Val.ofWord (zextTo 64 a.w.tag))
  | .ring =>
    match ringRead x a j q (slice r.ax 8 5).toNat with
    | .val v => .val v
    | .wait => .wait
    | .breach => .bad 6 14 q
    | .reserved => .bad 4 15 q

/-! ### Records that should come after others (02 R33; 11 R243) -/

/-- The operand by which a memory form names its bytes: A or B, the capability of a load (the first flag) or of a store. -/
def capInB (load : Bool) (o : Op) : Bool :=
  if load then o = .pxlt || o = .lrest else !(o = .lrest || o = .kvapp)

/-- The capability operand of a record, where it is there already: its token has come, the lower writers of its temporary are settled. -/
def Act.capOperand (a : Act) (x : Ctx) (j : Nat) (inB : Bool) : Option Pair :=
  match a.info j with
  | none => none
  | some (_, r) =>
    let sl := a.slot j
    let src := if inB then r.b else r.a
    let port := if inB then sl.b else sl.a
    let there := (decide (src ≠ .port) || port.isSome) && a.lowerSettled j fun y => (srcTemp src).any fun k => namesTemp y.2 k
    match readSrc x a j r src port (slice r.ax (if inB then 4 else 0) 4).toNat with
    | .val v => if there then some v.pair else none
    | _ => none

/-- The bytes that record j loads or stores, by space class, first byte and number: those of its access, or for the forms of several
accesses all that its capability admits; none where its capability is not there yet. -/
def Act.touches (a : Act) (x : Ctx) (j : Nat) (load : Bool) : Option (Nat × Nat × Nat) :=
  match a.info j with
  | none => none
  | some (o, r) =>
    (a.capOperand x j (capInB load o)).map fun p =>
      let at_ := accessAddr p (litOff r)
      let s := spaceClass (capSpace p)
      match o with
      | .ld | .st => (s, at_, accessSize r)
      | .ldc | .stc => (s, at_, 64)
      | .lds | .sts => (s, at_, 8)
      | .fibrd | .fibwr => (s, at_, 128)
      | .acq => (s, capCursor p, 8)
      | _ => (s, capBase p, capTop p - capBase p)

/-- Record k stores or loads bytes that record j loads, as far as their capabilities tell. -/
def Act.clashes (a : Act) (x : Ctx) (k : Nat) (load : Bool) (j : Nat) : Bool :=
  match a.touches x k load, a.touches x j true with
  | some (s, b, n), some (t, c, m) => s = t && rangesMeet (b, n) (c, m)
  | _, _ => true

/-- A lower-indexed record that this one should come after may still fire: of accesses to overlapping bytes the lower record's comes first
(02 R33; 11 R243), a load of it has then issued. -/
def Act.softHeld (a : Act) (x : Ctx) (j : Nat) : Bool :=
  match a.info j with
  | none => false
  | some y => (List.range j).any fun k =>
    match a.info k with
    | none => false
    | some z =>
      !((a.slot k).st.closed) &&
      (softBefore z y || (isLoadOp y.1 && ((isStoreOp z.1 && a.clashes x k false j) ||
        (isLoadOp z.1 && !((a.slot k).st.busy) && a.clashes x k true j))))

/-- Nothing but record j can move in the activation, so it goes ahead of lower records that never fire. -/
def Act.onlyOne (a : Act) (x : Ctx) (j : Nat) : Bool :=
  (List.range a.recs.length).all fun k =>
    k = j || (!((a.slot k).st.busy) && !(a.nullifiable k) && !(a.ready k && (!(a.softHeld x k) || decide (k < j))))

/-- What a firing record sees: its unit, index, context, fields and operands as they came. -/
structure View where
  u : UnitId
  j : Nat
  c : Nat
  r : Rec
  a : Val
  b : Val
  deriving DecidableEq, Repr, Inhabited

/-- The third operand tK of a record. -/
def View.k (v : View) (x : Act) : Val := x.temp v.j (slice v.r.ax 0 3).toNat

end Sys2Proof.Machine
end

