-- ==== Sys2Proof/Machine/Fire.lean ====
section
/-! DEFINITION. Firing one record: when it may fire, what it delivers, and its traps and faults (02 R33, R39; 03 R60;
08 R141 to R143). -/
namespace Sys2Proof.Machine

/-- What a record answers when it fires: it completes with the activation as it leaves it, its flags and what D0 and D1
receive; the same with its own context changed; it waits, holding its unit; a request of it leaves; or it faults. -/
inductive Fired where
  | done (a : Act) (fl : BitVec 6) (d0 d1 : Option Val)
  | doneCtx (x : Ctx) (a : Act) (fl : BitVec 6) (d0 d1 : Option Val)
  | wait
  | waitCtx (x : Ctx)
  | issue (space addr : Nat) (kind : ReqKind)
  | fault (cls code port addr : Nat)
  deriving DecidableEq, Repr, Inhabited

/-- Whether record j of an activation may fire now. -/
inductive Gate where
  | hold | wait | nullify | fault (cls code port : Nat) | go (v : View)
  deriving DecidableEq, Repr, Inhabited

/-- The token that MERGE takes (08 R146). -/
def mergePick (u : UnitId) (x : RecSlot) : Val :=
  (if mergesA (isNewel u) x then x.a else x.b).getD (Val.zero .scalar)

/-- The gate of record j: its predicate, operands and order, then its sources (02 R33; 11 R224; 15 R286). While a load of the
activation is held at its port no record fires (20 R348). -/
def gate (s : State) (u : UnitId) (a : Act) (j : Nat) (o : Op) (r : Rec) : Gate :=
  if a.stage ≠ .running || s.loadHeld u then .hold
  else if isNewel u && !(a.turn j) then .hold
  else if a.nullifiable j then .nullify
  else if !(a.ready j) then .hold
  else if a.softHeld (s.ctx a.ctx) j && !(a.onlyOne (s.ctx a.ctx) j) then .hold
  else
    let x := s.ctx a.ctx
    let sl := a.slot j
    match readSrc x a j r r.a sl.a (slice r.ax 0 4).toNat, readSrc x a j r r.b sl.b (slice r.ax 4 4).toNat with
    | .bad c k q, _ => .fault c k q
    | _, .bad c k q => .fault c k q
    | .wait, _ => .wait
    | _, .wait => .wait
    | .val v, .val w => .go ⟨u, j, a.ctx, r, if o = .mergeOp then mergePick u sl else v, w⟩

/-- A node port with one more token, which came in a step after some ring writers (08 R146; 09 R182). -/
def RecSlot.give (x : RecSlot) (now : Nat) (past : List Nat) (q : NodePort) (v : Val) : RecSlot :=
  let y := { x with past := x.past ++ past.map fun k => (q, k) }
  match q with
  | .a => { y with a := some v, first := if x.first.all fun f => !f.1 && decide (f.2 = now) then some (true, now) else x.first }
  | .b => { y with b := some v, first := if x.first.isNone then some (false, now) else x.first }
  | .p => { y with p := some v }

/-- A value given to one destination of record j (01 R7; 02 R25; 06 R113). -/
def Act.deliver (a : Act) (now : Nat) (past : List Nat) (j : Nat) (d : Dest) (v : Option Val) : Act :=
  match v with
  | none => a
  | some x =>
    match d with
    | .none => a
    | .node n q => { a with recs := modAt a.recs n.val fun r => r.give now past q x }
    | .temp k => { a with temps := a.temps ++ [⟨j, k.val, x, past⟩] }
    | .out k => { a with outs := a.outs ++ [⟨j, k.val, some x, none, none⟩] }

/-- The activation after record j completed in a step; what it delivers comes after the ring writers that it comes after, itself among
them where it is one (09 R182). -/
def Act.complete (a : Act) (now : Nat) (j : Nat) (r : Rec) (fl : BitVec 6) (d0 d1 : Option Val) : Act :=
  let past := (a.past (isNewel a.w.unit) j ++ if a.rwrites.any fun w => w.j = j then [j] else []).dedup
  (((({ a with flags := a.flags ||| fl } : Act).deliver now past j r.d0 d0).deliver now past j r.d1 d1).setSt j .fired)

/-- The request of record j of an activation. -/
def Act.request (a : Act) (x : Ctx) (u : UnitId) (j space addr : Nat) (kind : ReqKind) : Req where
  id := 0
  port := unitPort u
  ctx := a.ctx
  strm := if isNewel u then 0 else a.ctx
  load_ := x.stream
  unit := u
  rec_ := j
  tag := a.w.tag
  stamp := a.w.stamp
  birth := a.w.birth
  space := space
  addr := addr
  asid := x.asid
  kind := kind
  st := .waiting
  ptr := a.w.ptr
  sent := none
  trans := []
  after := ⟨[], []⟩
  loops := []

/-- A record's answer put into the state: a raised flag whose trap bit is set faults the activation (03 R60). -/
def settle (s : State) (u : UnitId) (a : Act) (j : Nat) (r : Rec) (x : Fired) : State :=
  match x with
  | .done a' fl d0 d1 =>
    if fl &&& a.trap ≠ 0 then s.takeFault u a' j 5 (lowestFlag (fl &&& a.trap)) 0 0
    else s.putAct u (a'.complete s.clock.steps j r fl d0 d1)
  | .doneCtx y a' fl d0 d1 => (s.modCtx a.ctx fun _ => y).putAct u (a'.complete s.clock.steps j r fl d0 d1)
  | .wait => s.putAct u (a.setSt j .waiting)
  | .waitCtx y => (s.modCtx a.ctx fun _ => y).putAct u (a.setSt j .waiting)
  | .issue sp ad k =>
    (s.addReq (a.request (s.ctx a.ctx) u j sp ad k)).putAct u (a.setSt j (.issued s.net.nextReq))
  | .fault cls code port addr => s.takeFault u a j cls code port addr

/-- The record that fires now: its unit, index and activation. -/
def State.firing (s : State) : Option (UnitId × Nat × Act) :=
  match s.sched.cur with
  | none => none
  | some (u, j) => (s.act u).map fun a => (u, j, a)

/-- A record of form o fires with the meaning f, where its gate lets it; else the machine stays as it was (log 2). -/
def fire (o : Op) (r : Rec) (s : State) (f : State → Act → View → Fired) : Result State :=
  match s.firing with
  | none => .next s
  | some (u, j, a) =>
    match gate s u a j o r with
    | .hold => .next s
    | .wait => .next (s.putAct u (a.setSt j .waiting))
    | .nullify => .next (s.putAct u (a.setSt j .nullified))
    | .fault c k q => .next (s.takeFault u a j c k q 0)
    | .go v =>
      let a' := if isNewel u then a.skipBelow j else a
      .next (settle s u a' j r (f s a' v))

/-- A completion that changes nothing but what it delivers, to both destinations alike. -/
def give (a : Act) (fl : BitVec 6) (v : Val) : Fired := .done a fl (some v) (some v)

/-- An effect of record j for the commit (02 R21, R403). -/
def Act.effect (a : Act) (j : Nat) (e : Effect) : Act := { a with effects := a.effects ++ [(j, e)] }

end Sys2Proof.Machine
end

