-- ==== Sys2Proof/Machine/Block.lean ====
section
/-! DEFINITION. Block images read and checked at fetch, and the record that fires next (06 R107 to R121). -/
namespace Sys2Proof.Machine

/-- Record i of a block image (06 R107). -/
def recordAt (img : List Byte) (i : Nat) : Record := BitVec.ofNat 96 (fieldAt img (12 * i) 12)

/-- The fields of a header record (06 R109). -/
structure Header where
  magic   : Nat
  nodes   : Nat
  exits   : Nat
  inputs  : Nat
  outputs : Nat
  rings   : BitVec 16
  cls     : Nat
  slots   : Nat
  zero    : Nat
  deriving DecidableEq, Repr, Inhabited

/-- The header of a record (06 R109). -/
def readHeader (w : Record) : Header where
  magic := (slice w 88 8).toNat
  nodes := (slice w 81 7).toNat + 1
  exits := (slice w 78 3).toNat + 1
  inputs := (slice w 73 5).toNat
  outputs := (slice w 68 5).toNat
  rings := slice w 52 16
  cls := (slice w 48 4).toNat
  slots := (slice w 40 8).toNat
  zero := (slice w 32 8).toNat

/-- The records of an image with this header (06 R107). -/
def Header.count (h : Header) : Nat := 1 + h.nodes + h.exits + h.inputs

/-- The header checks of code 1 fail (06 R120). -/
def Header.bad (h : Header) : Bool :=
  h.magic ≠ 0xB5 || decide (16 < h.inputs) || decide (16 < h.outputs) || h.slots ≠ h.inputs || h.zero ≠ 0

/-- The sum of the 32-bit little-endian words of a list of bytes modulo 2^32 (06 R110, R404). -/
def wordSum (fuel : Nat) (l : List Byte) : Nat :=
  match fuel with
  | 0 => 0
  | n + 1 => if l = [] then 0 else (bytesNat (l.take 4) + wordSum n (l.drop 4)) % 2 ^ 32

/-- A class admits a unit (02 R20). -/
def classAdmits (cls : Nat) (u : UnitId) : Bool :=
  match u with
  | .element _ => cls = 0 || cls = 3
  | .newel _ => cls = 1 || cls = 3
  | .demand _ => cls = 2 || cls = 3

/-- The code of an exit record at position n (06 R115, R120); 99 where it is well formed. -/
def exitFault (h : Header) (n : Nat) (w : Record) : Nat :=
  firstCode
    [ ((slice w 82 6).toNat ≠ 0, 13),
      ((slice w 88 8).toNat ≠ 0xE0 + n || decide (2 ^ h.outputs ≤ (slice w 66 16).toNat), 15) ]

/-- The destination fields of an input record, E0 first (06 R116). -/
def inputDests (w : Record) : List (BitVec 11) := [slice w 77 11, slice w 66 11, slice w 55 11, slice w 44 11]

/-- The code of an input record at position i (06 R116, R120; log 23): a malformed node destination is code 12. -/
def inputFault (h : Header) (i : Nat) (w : Record) : Nat :=
  let ds := inputDests w
  let bad := ds.any fun d =>
    match Dest.ofCode d with
    | none => slice d 9 2 = 0 || slice d 9 2 = 1
    | some (.node n _) => decide (h.nodes ≤ n.val)
    | _ => false
  let kinds := ds.any fun d => bit d 10
  let gap := (List.range 3).any fun k => ds.getD k 0 = 0 && ds.getD (k + 1) 0 ≠ 0
  firstCode
    [ (bad, 12),
      ((slice w 0 44).toNat ≠ 0, 13),
      ((slice w 88 8).toNat ≠ 0xD0 + i || kinds || gap, 16) ]

/-- The node ports that a record's field produces. -/
def destPort (d : Dest) : List (Nat × NodePort) :=
  match d with
  | .node n q => [(n.val, q)]
  | _ => []

/-- The producers of a block in the order of R114: nodes with D0 before D1, then inputs with E0 to E3. -/
def producers (nodes ins : List Record) : List (Nat × NodePort) :=
  (nodes.flatMap fun w => destPort (parseFields w).d0 ++ destPort (parseFields w).d1) ++
  (ins.flatMap fun w => (inputDests w).flatMap fun d => destPort ((Dest.ofCode d).getD .none))

/-- A node reads a port (06 R114). -/
def readsPort (w : Record) (q : NodePort) : Bool :=
  let r := parseFields w
  match q with
  | .a => r.a = .port
  | .b => r.b = .port
  | .p => r.pq ≠ .none

/-- The consuming node of the first breach of the whole-block rules (06 R114). -/
def wholeBreach (nodes : List Record) (seen ps : List (Nat × NodePort)) : Option Nat :=
  match ps with
  | [] => none
  | (n, q) :: t =>
    if !(readsPort (nodes.getD n 0) q) || seen.contains (n, q) then some n else wholeBreach nodes ((n, q) :: seen) t

/-- The first breach among records judged one by one: its code with its index. -/
def firstRecord (l : List (Nat × Nat)) : Option (Nat × Nat) := l.find? fun x => x.1 ≠ 99

/-- The surroundings in which the records of a block are fetched. -/
def Header.env (h : Header) (newel sys : Bool) : FetchEnv := ⟨newel, sys, h.cls, h.nodes, h.exits, h.outputs, h.rings⟩

/-- The code of one node record; 99 where it decodes. -/
def nodeFault (env : FetchEnv) (w : Record) : Nat :=
  match decodeRecord env w with
  | .ok _ => 99
  | .error k => k

/-- A block image decoded: the block, or the code and the record index of the first failing check (06 R120, R121). -/
def decodeBlock (u : UnitId) (sys : Bool) (ptr : BlockPtr) (img : List Byte) : Except (Nat × Nat) Block :=
  let h := readHeader (recordAt img 0)
  let len := 12 * h.count
  let img' := img.take len
  if h.bad || decide (img'.length < len) then .error (1, 0xFF)
  else if wordSum (3 * h.count) img' ≠ 0 then .error (2, 0xFF)
  else if !(classAdmits h.cls u) then .error (3, 0xFF)
  else
    let nodes := (span 1 h.nodes).map (recordAt img')
    let exits := (span (1 + h.nodes) h.exits).map (recordAt img')
    let ins := (span (1 + h.nodes + h.exits) h.inputs).map (recordAt img')
    let env := h.env (isNewel u) sys
    let found := firstRecord
      ((nodes.zipIdx.map fun x => (nodeFault env x.1, x.2)) ++
       (exits.zipIdx.map fun x => (exitFault h x.2 x.1, 0x80 + x.2)) ++
       (ins.zipIdx.map fun x => (inputFault h x.2 x.1, 0x90 + x.2)))
    match found with
    | some x => .error x
    | none =>
      match wholeBreach nodes [] (producers nodes ins) with
      | some n => .error (12, n)
      | none => .ok ⟨ptr, h.cls, h.inputs, h.outputs, h.rings, nodes, exits, ins⟩

/-- A block image that CTXL reads, without the checks that depend on the fetching unit: header and block check (06 R404). -/
def looseBlock (ptr : BlockPtr) (img : List Byte) : Option Block :=
  let h := readHeader (recordAt img 0)
  let len := 12 * h.count
  let img' := img.take len
  if h.bad || decide (img'.length < len) || wordSum (3 * h.count) img' ≠ 0 then none
  else some
    ⟨ptr, h.cls, h.inputs, h.outputs, h.rings, (span 1 h.nodes).map (recordAt img'),
     (span (1 + h.nodes) h.exits).map (recordAt img'), (span (1 + h.nodes + h.exits) h.inputs).map (recordAt img')⟩

/-- The output mask of exit record n of a block (06 R115). -/
def Block.mask (b : Block) (n : Nat) : BitVec 16 := slice (b.exits.getD n 0) 66 16
/-- The successor of exit record n of a block (06 R115). -/
def Block.next (b : Block) (n : Nat) : BlockPtr := slice (b.exits.getD n 0) 0 66

/-- The surroundings of the records of an activation. -/
def actEnv (s : State) (u : UnitId) (a : Act) : FetchEnv :=
  ⟨isNewel u, (s.ctx a.ctx).sys, a.blk.cls, a.blk.nodes.length, a.blk.exits.length, a.blk.outputs, a.blk.rings⟩

/-- The word of record j of the activation that a unit executes, with the activation. -/
def State.fetchWord (s : State) (u : UnitId) (j : Nat) : Option (Act × Record) :=
  match s.act u with
  | none => none
  | some a => (a.blk.nodes[j]?).map fun w => (a, w)

/-- What a unit does with the word of record j: the instruction, or the state after the block-decode fault (06 R120). -/
def fetchRecord (s : State) (u : UnitId) (j : Nat) : Option (Except State Instr) :=
  match s.fetchWord u j with
  | none => none
  | some (a, w) =>
    match decodeRecord (actEnv s u a) w with
    | .ok i => some (.ok i)
    | .error k => some (.error (s.takeFault u a j 1 k 0 0))

/-- The next move: the head of the agenda, else a free one, which comes at least one step after the move before it (log 1). -/
def State.nextMove (s : State) : Move × List Move :=
  match s.sched.agenda with
  | [] =>
    let m := Config.freeMove s.sched.moves
    ({ m with steps := m.steps + 1 }, [])
  | m :: t => (m, t)

/-- The state in which a move acts: the move taken, time advanced, what fires and the subject set. -/
def State.begin (s : State) (m : Move) (rest : List Move) : State :=
  let cur := match m.kind with
    | .fire u j => some (u, j)
    | .event _ _ => none
  let x := match m.kind with
    | .fire _ _ => s.sched.subject
    | .event _ y => y
  { s with
    sched := ⟨rest, s.sched.moves + 1, cur, x⟩
    clock := ⟨s.clock.steps + m.steps, s.clock.ns + m.ns, s.clock.us + m.ns⟩ }

/-- The predicate token that lets a record with this predicate fire. -/
def predToken (q : Pred) : Option Val :=
  match q with
  | .none => none
  | .onTrue => some (Val.ofWord 1)
  | .onFalse => some (Val.ofWord 0)

/-- The activation that holds one record alone, with a zero token on each port that it reads (log 3). -/
def loneAct (w : Record) : Act where
  w := Waiting.fresh (.handler 0 true) 0 (.newel 0) 0 0 0 [] 0
  ctx := 0
  blk := ⟨0, 4, 0, 16, 0xFFFF, w :: List.replicate 127 0, List.replicate 8 0, []⟩
  recs := ⟨.idle, some (Val.zero .scalar), some (Val.zero .scalar), predToken (parseFields w).pq, none, []⟩ ::
    List.replicate 127 ⟨.skipped, none, none, none, none, []⟩
  temps := []
  outs := []
  exits := []
  redirs := []
  views := []
  moves := []
  rwrites := []
  stores := []
  effects := []
  flags := 0
  recon := 0
  thr := 0
  trap := 0
  seeded := 0
  rng := 1
  stime := 0
  began := 0
  stage := .running

/-- The state whose next step fires the record w alone on the Newel of die 0 (log 3). -/
def State.placeWord (s : State) (w : Record) : State :=
  { s.putAct (.newel 0) (loneAct w) with sched := { s.sched with agenda := [⟨0, 0, .fire (.newel 0) 0⟩] } }

end Sys2Proof.Machine
end

