-- ==== Sys2Proof/Machine/Num.lean ====
section
/-! DEFINITION. Exact numbers, the IEEE formats, rounding, and the arithmetic on them (03 R55 to R58; 09 R170 to R172). -/
namespace Sys2Proof.Machine

/-- A number before rounding: NaN (signalling or not), an infinity, or (-1)^neg * m * 2^e, a signed zero where m = 0. -/
inductive FNum where
  | nan (sig : Bool)
  | inf (neg : Bool)
  | fin (neg : Bool) (m : Nat) (e : Int)
  deriving DecidableEq, Repr, Inhabited

/-- An IEEE format: exponent bits and fraction bits (03 R55). -/
structure Fmt where
  eb : Nat
  fb : Nat
  deriving DecidableEq, Repr, Inhabited

/-- binary32 -/
def f32 : Fmt := ⟨8, 23⟩
/-- binary16 -/
def f16 : Fmt := ⟨5, 10⟩
/-- B16, the upper half of a binary32 -/
def b16 : Fmt := ⟨8, 7⟩

/-- The exponent bias. -/
def Fmt.bias (f : Fmt) : Nat := 2 ^ (f.eb - 1) - 1
/-- The least normal exponent. -/
def Fmt.emin (f : Fmt) : Int := 1 - (f.bias : Int)
/-- The pattern of +infinity. -/
def Fmt.infBits (f : Fmt) : Nat := (2 ^ f.eb - 1) * 2 ^ f.fb
/-- The canonical NaN (03 R55). -/
def Fmt.nanBits (f : Fmt) : Nat := f.infBits + 2 ^ (f.fb - 1)
/-- The place of the sign. -/
def Fmt.sign (f : Fmt) (neg : Bool) : Nat := if neg then 2 ^ (f.eb + f.fb) else 0

/-- The number of a pattern (03 R55). -/
def readFmt (f : Fmt) (x : Nat) : FNum :=
  let neg := x / 2 ^ (f.eb + f.fb) % 2 = 1
  let ex := x / 2 ^ f.fb % 2 ^ f.eb
  let fr := x % 2 ^ f.fb
  if ex = 2 ^ f.eb - 1 then
    if fr = 0 then .inf neg else .nan (fr / 2 ^ (f.fb - 1) = 0)
  else if ex = 0 then .fin neg fr (f.emin - f.fb)
  else .fin neg (2 ^ f.fb + fr) ((ex : Int) - f.bias - f.fb)

/-- m * 2^e shifted to units of 2^q: the integer part and the remainder over 2^d. -/
def shiftTo (m : Nat) (e q : Int) : Nat × Nat × Nat :=
  if q ≤ e then (m * 2 ^ (e - q).toNat, 0, 0)
  else
    let d := (q - e).toNat
    (m / 2 ^ d, m % 2 ^ d, d)

/-- A remainder rem over 2^d rounds the magnitude lo up: rm 0 nearest even, 1 to zero, 2 up, 3 down (03 R57). -/
def roundsUp (rm : Nat) (neg : Bool) (lo rem d : Nat) : Bool :=
  match rm with
  | 0 => decide (2 ^ d < 2 * rem) || (decide (rem ≠ 0) && decide (2 ^ d = 2 * rem) && decide (lo % 2 = 1))
  | 1 => false
  | 2 => !neg && decide (rem ≠ 0)
  | _ => neg && decide (rem ≠ 0)

/-- m * 2^e rounded to units of 2^q: the multiple and whether it is inexact. -/
def roundUnits (rm : Nat) (neg : Bool) (m : Nat) (e q : Int) : Nat × Bool :=
  let (lo, rem, d) := shiftTo m e q
  (if roundsUp rm neg lo rem d then lo + 1 else lo, decide (rem ≠ 0))

/-- The pattern and the flags of a number rounded to a format (03 R55, R57; 09 R170): tininess after rounding. -/
def roundFmt (f : Fmt) (rm : Nat) (x : FNum) : Nat × BitVec 6 :=
  match x with
  | .nan sig => (f.nanBits, flagIf sig flagNv)
  | .inf neg => (f.sign neg + f.infBits, noFlags)
  | .fin neg m e =>
    if m = 0 then (f.sign neg, noFlags)
    else
      let ex := (Nat.log2 m : Int) + e
      let q := max (ex - f.fb) (f.emin - f.fb)
      let (r, nx) := roundUnits rm neg m e q
      let (r, q) := if 2 ^ (f.fb + 1) ≤ r then (r / 2, q + 1) else (r, q)
      let tiny := ex < f.emin && !(ex + 1 = f.emin && (roundUnits rm neg m e (ex - f.fb)).1 = 2 ^ (f.fb + 1))
      if (f.bias : Int) < q + f.fb then
        let toInf := rm = 0 || (rm = 2 && !neg) || (rm = 3 && neg)
        (f.sign neg + (if toInf then f.infBits else f.infBits - 1), flagOf ||| flagNx)
      else
        let bits := if r < 2 ^ f.fb then r else (q + f.fb + f.bias).toNat * 2 ^ f.fb + (r - 2 ^ f.fb)
        (f.sign neg + bits, flagIf nx flagNx ||| flagIf (nx && tiny) flagUf)

/-- A pattern is subnormal. -/
def isSubnormal (f : Fmt) (x : Nat) : Bool := x / 2 ^ f.fb % 2 ^ f.eb = 0 && x % 2 ^ f.fb ≠ 0

/-- A subnormal pattern becomes a zero of the same sign (03 R56). -/
def flushIn (f : Fmt) (x : Nat) : Nat := if isSubnormal f x then x / 2 ^ (f.eb + f.fb) * 2 ^ (f.eb + f.fb) else x

/-- A rounded course result flushed, with the flags of the flush (03 R56). -/
def flushOut (f : Fmt) (x : Nat × BitVec 6) : Nat × BitVec 6 :=
  if isSubnormal f x.1 then (flushIn f x.1, x.2 ||| flagUf ||| flagNx) else x

/-- A number rounded to a format by RNE and flushed: the result of a course lane (03 R56). -/
def laneFmt (f : Fmt) (x : FNum) : Nat × BitVec 6 := flushOut f (roundFmt f 0 x)

/-! ### Arithmetic -/

/-- The number is a NaN. -/
def FNum.isNan (x : FNum) : Bool :=
  match x with
  | .nan _ => true
  | _ => false
/-- The number is a signalling NaN. -/
def FNum.isSig (x : FNum) : Bool :=
  match x with
  | .nan s => s
  | _ => false
/-- The number is a zero. -/
def FNum.isZero (x : FNum) : Bool :=
  match x with
  | .fin _ m _ => m = 0
  | _ => false
/-- The number is an infinity. -/
def FNum.isInf (x : FNum) : Bool :=
  match x with
  | .inf _ => true
  | _ => false
/-- The sign of a number. -/
def FNum.neg? (x : FNum) : Bool :=
  match x with
  | .nan _ => false
  | .inf n => n
  | .fin n _ _ => n
/-- The number negated, a NaN as it is. -/
def FNum.negate (x : FNum) : FNum :=
  match x with
  | .nan s => .nan s
  | .inf n => .inf !n
  | .fin n m e => .fin (!n) m e
/-- The absolute value, a NaN as it is. -/
def FNum.absolute (x : FNum) : FNum :=
  match x with
  | .nan s => .nan s
  | .inf _ => .inf false
  | .fin _ m e => .fin false m e
/-- +0 -/
def FNum.zero : FNum := .fin false 0 0

/-- An integer as a number. -/
def FNum.ofInt (v : Int) : FNum := .fin (v < 0) v.natAbs 0

/-- The signed mantissa of a finite number at exponent e0 ≤ its own. -/
def FNum.mantAt (neg : Bool) (m : Nat) (e e0 : Int) : Int :=
  let x : Int := m * 2 ^ (e - e0).toNat
  if neg then -x else x

/-- A NaN that an operation of NaN operands gives: quiet, with nv where one signals (03 R55; 09 R172). -/
def nanOf (sig : Bool) : FNum × BitVec 6 := (.nan false, flagIf sig flagNv)

/-- The exact sum; an exact zero of unlike signs is +0, and -0 when rounding down (03 R55; 09 R172). -/
def addNum (rm : Nat) (x y : FNum) : FNum × BitVec 6 :=
  match x, y with
  | .nan s, .nan t => nanOf (s || t)
  | .nan s, _ => nanOf s
  | _, .nan t => nanOf t
  | .inf n, .inf k => if n = k then (.inf n, noFlags) else (.nan false, flagNv)
  | .inf n, _ => (.inf n, noFlags)
  | _, .inf n => (.inf n, noFlags)
  | .fin n m e, .fin k p g =>
    if m = 0 && p = 0 then (.fin (if n = k then n else rm = 3) 0 0, noFlags)
    else
      let e0 := min e g
      let v := FNum.mantAt n m e e0 + FNum.mantAt k p g e0
      if v = 0 then (.fin (rm = 3) 0 0, noFlags) else (.fin (v < 0) v.natAbs e0, noFlags)

/-- The exact product (09 R172). -/
def mulNum (x y : FNum) : FNum × BitVec 6 :=
  match x, y with
  | .nan s, .nan t => nanOf (s || t)
  | .nan s, _ => nanOf s
  | _, .nan t => nanOf t
  | .inf n, y => if y.isZero then (.nan false, flagNv) else (.inf (n ^^ y.neg?), noFlags)
  | x, .inf k => if x.isZero then (.nan false, flagNv) else (.inf (x.neg? ^^ k), noFlags)
  | .fin n m e, .fin k p g => (.fin (n ^^ k) (m * p) (e + g), noFlags)

/-- The exact a * b + c (09 R171, R172). -/
def fmaNum (rm : Nat) (x y z : FNum) : FNum × BitVec 6 :=
  let sig := x.isSig || y.isSig || z.isSig
  let p := mulNum x y
  if x.isNan || y.isNan || z.isNan then (.nan false, flagIf (sig || (p.1.isNan && !(x.isNan || y.isNan))) flagNv)
  else
    let q := addNum rm p.1 z
    if p.1.isNan then p else q

/-- Bits kept beyond a quotient or a root before its sticky bit. -/
def guardBits : Nat := 80

/-- The quotient, exact or with a sticky last bit (09 R172). -/
def divNum (x y : FNum) : FNum × BitVec 6 :=
  match x, y with
  | .nan s, .nan t => nanOf (s || t)
  | .nan s, _ => nanOf s
  | _, .nan t => nanOf t
  | .inf n, y => if y.isInf then (.nan false, flagNv) else (.inf (n ^^ y.neg?), noFlags)
  | x, .inf k => (.fin (x.neg? ^^ k) 0 0, noFlags)
  | .fin n m e, .fin k p g =>
    if p = 0 then (if m = 0 then (.nan false, flagNv) else (.inf (n ^^ k), flagDz))
    else if m = 0 then (.fin (n ^^ k) 0 0, noFlags)
    else
      let sh := guardBits + Nat.log2 p
      let a := m * 2 ^ sh
      (.fin (n ^^ k) (2 * (a / p) + (if a % p = 0 then 0 else 1)) (e - g - sh - 1), noFlags)

/-- The integer square root of a number below 4^k. -/
def isqrtGo (k n r : Nat) : Nat :=
  match k with
  | 0 => r
  | k + 1 => if (r + 2 ^ k) * (r + 2 ^ k) ≤ n then isqrtGo k n (r + 2 ^ k) else isqrtGo k n r

/-- The integer square root. -/
def isqrt (n : Nat) : Nat := isqrtGo (Nat.log2 n / 2 + 1) n 0

/-- The square root, exact or with a sticky last bit (09 R172). -/
def sqrtNum (x : FNum) : FNum × BitVec 6 :=
  match x with
  | .nan s => nanOf s
  | .inf n => if n then (.nan false, flagNv) else (.inf false, noFlags)
  | .fin n m e =>
    if m = 0 then (.fin n 0 0, noFlags)
    else if n then (.nan false, flagNv)
    else
      let (m, e) := if e % 2 = 0 then (m, e) else (2 * m, e - 1)
      let a := m * 2 ^ (2 * guardBits)
      let r := isqrt a
      (.fin false (2 * r + (if r * r = a then 0 else 1)) (e / 2 - guardBits - 1), noFlags)

/-- The reciprocal square root, exact or with a sticky last bit (09 R172). -/
def rsqNum (x : FNum) : FNum × BitVec 6 :=
  match x with
  | .nan s => nanOf s
  | .inf n => if n then (.nan false, flagNv) else (.fin false 0 0, noFlags)
  | .fin n m e =>
    if m = 0 then (.inf n, flagDz)
    else if n then (.nan false, flagNv)
    else
      let (m, e) := if e % 2 = 0 then (m, e) else (2 * m, e - 1)
      let k := guardBits + Nat.log2 m
      let a := 2 ^ (2 * k) / m
      let r := isqrt a
      (.fin false (2 * r + (if r * r * m = 2 ^ (2 * k) then 0 else 1)) (-(e / 2) - k - 1), noFlags)

/-- x < y for numbers that are not NaN; -0 and +0 compare equal (09 R173). -/
def ltNum (x y : FNum) : Bool :=
  match x, y with
  | .inf n, .inf k => n && !k
  | .inf n, .fin _ _ _ => n
  | .fin _ _ _, .inf k => !k
  | .fin n m e, .fin k p g => FNum.mantAt n m e (min e g) < FNum.mantAt k p g (min e g)
  | _, _ => false

/-- x = y for numbers that are not NaN (09 R173). -/
def eqNum (x y : FNum) : Bool :=
  match x, y with
  | .nan _, _ => false
  | _, .nan _ => false
  | _, _ => !(ltNum x y) && !(ltNum y x)

/-- The lesser value, -0 below +0; a NaN operand gives NaN (09 R172). -/
def minNum (x y : FNum) : FNum × BitVec 6 :=
  if x.isNan || y.isNan then nanOf (x.isSig || y.isSig)
  else if ltNum x y || (eqNum x y && x.neg?) then (x, noFlags) else (y, noFlags)

/-- The greater value, +0 above -0; a NaN operand gives NaN (09 R172). -/
def maxNum (x y : FNum) : FNum × BitVec 6 :=
  if x.isNan || y.isNan then nanOf (x.isSig || y.isSig)
  else if ltNum y x || (eqNum x y && !x.neg?) then (x, noFlags) else (y, noFlags)

/-- A comparison with its flags (09 R173): conditions 0 to 5 of CMP, 6 unordered. -/
def cmpNum (fn : Nat) (x y : FNum) : Bool × BitVec 6 :=
  let un := x.isNan || y.isNan
  let quietOnly := fn = 0 || fn = 1 || fn = 6
  let fl := flagIf (if quietOnly then x.isSig || y.isSig else un) flagNv
  if un then (fn = 1 || fn = 6, fl)
  else
    let lt := ltNum x y
    let eq := eqNum x y
    ((match fn with
      | 0 => eq
      | 1 => !eq
      | 2 => lt
      | 3 => lt || eq
      | 4 => !(lt || eq)
      | 5 => !lt
      | _ => false), fl)

/-- A finite number rounded to an integer, and whether it is inexact. -/
def roundToInt (rm : Nat) (neg : Bool) (m : Nat) (e : Int) : Int × Bool :=
  let (r, nx) := roundUnits rm neg m e 0
  (if neg then -(r : Int) else r, nx)

/-- A float converted to an integer within bounds (09 R176). -/
def numToInt (rm : Nat) (lo hi : Int) (x : FNum) : Int × BitVec 6 :=
  match x with
  | .nan _ => (0, flagNv)
  | .inf n => (if n then lo else hi, flagNv)
  | .fin n m e =>
    let (v, nx) := roundToInt rm n m e
    if v < lo then (lo, flagNv) else if hi < v then (hi, flagNv) else (v, flagIf nx flagNx)

/-- floor(log2 |x|) of a finite non-zero number (01 R14). -/
def floorLog2 (m : Nat) (e : Int) : Int := (Nat.log2 m : Int) + e

end Sys2Proof.Machine
end

