-- ==== Sys2Proof/Machine/Elementary.lean ====
section
/-! DEFINITION. The elementary functions of R192 and R302: each value computed to some hundreds of bits with a sticky last bit,
so that one rounding of it is the rounding of the exact real value (log 25). -/
namespace Sys2Proof.Machine

/-- The fixed-point precision in bits. -/
def fixBits : Nat := 640
/-- 1 in fixed point. -/
def fixOne : Nat := 2 ^ fixBits

/-- sum of y^n / n! for n from i, with the term at hand, in fixed point. -/
def expSeries (fuel i term y : Nat) : Nat :=
  match fuel with
  | 0 => 0
  | k + 1 => term + expSeries k (i + 1) (term * y / fixOne / (i + 1)) y

/-- x squared n times in fixed point. -/
def fixSquares (n x : Nat) : Nat :=
  match n with
  | 0 => x
  | k + 1 => fixSquares k (x * x / fixOne)

/-- e^x of a fixed-point x from 0 to 256. -/
def expPos (x : Nat) : Nat := fixSquares 28 (expSeries 40 0 fixOne (x / 2 ^ 28))

/-- e^x of a fixed-point x. -/
def expFix (x : Int) : Nat := if 0 ≤ x then expPos x.toNat else fixOne * fixOne / expPos (-x).toNat

/-- sum of z^(2n+1) / (2n+1) with signs alternating or not, from term z^(2n+1). -/
def atanSeries (fuel n : Nat) (alt : Bool) (term zz : Nat) : Int :=
  match fuel with
  | 0 => 0
  | k + 1 =>
    let t : Int := term / (2 * n + 1)
    (if alt && n % 2 = 1 then -t else t) + atanSeries k (n + 1) alt (term * zz / fixOne) zz

/-- ln 2 = 2 atanh(1/3). -/
def fixLn2 : Nat := (2 * atanSeries 210 0 false (fixOne / 3) (fixOne / 9)).toNat

/-- pi = 16 atan(1/5) - 4 atan(1/239). -/
def fixPi : Nat :=
  (16 * atanSeries 150 0 true (fixOne / 5) (fixOne / 25) - 4 * atanSeries 60 0 true (fixOne / 239) (fixOne / 57121)).toNat

/-- ln of m * 2^e for m > 0, in fixed point: m * 2^e = f * 2^k with 2/3 <= f < 4/3, ln f = 2 atanh((f - 1) / (f + 1)). -/
def lnFix (m : Nat) (e : Int) : Int :=
  let b := Nat.log2 m
  let f := m * fixOne / 2 ^ b
  let (f, k) := if 4 * fixOne ≤ 3 * f then (f / 2, (b : Int) + e + 1) else (f, (b : Int) + e)
  let d : Int := (f : Int) - fixOne
  let z := d.natAbs * fixOne / (f + fixOne)
  let s := 2 * atanSeries 150 0 false z (z * z / fixOne)
  k * fixLn2 + (if d < 0 then -s else s)

/-- sum of x^(2n+1) / (1 * 3 * ... * (2n+1)) from the term at hand. -/
def phiSeries (fuel n term xx : Nat) : Nat :=
  match fuel with
  | 0 => 0
  | k + 1 => term + phiSeries k (n + 1) (term * xx / fixOne / (2 * n + 3)) xx

/-- Phi(x) - 1/2 of a fixed-point x from 0 to 16: the density times the series. -/
def phiHalf (x : Nat) : Nat :=
  let xx := x * x / fixOne
  let root := isqrt (2 * fixPi * fixOne)
  expFix (-((xx / 2 : Nat) : Int)) * phiSeries 700 0 x xx / root

/-- A fixed-point value that is not exact, as a number with a sticky last bit. -/
def stickyNum (neg : Bool) (y : Nat) : FNum := .fin neg (2 * y + 1) (-(fixBits : Int) - 1)

/-- A magnitude too small to round to anything but zero. -/
def tinyNum (neg : Bool) : FNum := .fin neg 1 (-2000)

/-- A magnitude just below m * 2^e. -/
def justBelow (neg : Bool) (m : Nat) (e : Int) : FNum := .fin neg (m * 2 ^ 600 - 1) (e - 600)

/-- A finite number in fixed point; exact for a binary32 of magnitude below 2^9. -/
def toFix (neg : Bool) (m : Nat) (e : Int) : Int :=
  let x : Int := m * fixOne
  let y := if 0 ≤ e then x * 2 ^ e.toNat else x / 2 ^ (-e).toNat
  if neg then -y else y

/-- A finite number has magnitude at least 2^k. -/
def atLeast (m : Nat) (e : Int) (k : Int) : Bool := m ≠ 0 && k ≤ floorLog2 m e

/-- e^x (09 R192). -/
def expNum (x : FNum) : FNum × BitVec 6 :=
  match x with
  | .nan s => nanOf s
  | .inf n => (if n then FNum.zero else .inf false, noFlags)
  | .fin n m e =>
    if m = 0 then (FNum.ofInt 1, noFlags)
    else if atLeast m e 8 then (if n then tinyNum false else .fin false 1 300, noFlags)
    else (stickyNum false (expFix (toFix n m e)), noFlags)

/-- 2^x (15 R302): exact for an integer x. -/
def exp2Num (x : FNum) : FNum × BitVec 6 :=
  match x with
  | .nan s => nanOf s
  | .inf n => (if n then FNum.zero else .inf false, noFlags)
  | .fin n m e =>
    if m = 0 then (FNum.ofInt 1, noFlags)
    else if atLeast m e 8 then (if n then tinyNum false else .fin false 1 300, noFlags)
    else
      let f := toFix n m e
      if f % fixOne = 0 then (.fin false 1 (f / fixOne), noFlags)
      else (stickyNum false (expFix (f * fixLn2 / fixOne)), noFlags)

/-- ln x (09 R192). -/
def lnNum (x : FNum) : FNum × BitVec 6 :=
  match x with
  | .nan s => nanOf s
  | .inf n => if n then (.nan false, flagNv) else (.inf false, noFlags)
  | .fin n m e =>
    if m = 0 then (.inf true, flagDz)
    else if n then (.nan false, flagNv)
    else if m = 2 ^ Nat.log2 m && floorLog2 m e = 0 then (FNum.zero, noFlags)
    else
      let y := lnFix m e
      (stickyNum (y < 0) y.natAbs, noFlags)

/-- The logistic function of a fixed-point x. -/
def sigFix (x : Int) : Nat := fixOne * fixOne / (fixOne + expFix (-x))

/-- relu: x when x > 0, else +0 (09 R192). -/
def reluNum (x : FNum) : FNum × BitVec 6 :=
  match x with
  | .nan s => nanOf s
  | .inf n => (if n then FNum.zero else .inf false, noFlags)
  | .fin n m e => (if n || m = 0 then FNum.zero else .fin false m e, noFlags)

/-- gelu: x times the normal distribution function (09 R192). -/
def geluNum (x : FNum) : FNum × BitVec 6 :=
  match x with
  | .nan s => nanOf s
  | .inf n => (if n then .fin true 0 0 else .inf false, noFlags)
  | .fin n m e =>
    if m = 0 then (.fin n 0 0, noFlags)
    else if atLeast m e 4 then (if n then tinyNum true else justBelow false m e, noFlags)
    else
      let f := (toFix false m e).toNat
      let h := phiHalf f
      let phi := if n then fixOne / 2 - h else fixOne / 2 + h
      (stickyNum n (f * phi / fixOne), noFlags)

/-- silu: x / (1 + e^-x) (09 R192). -/
def siluNum (x : FNum) : FNum × BitVec 6 :=
  match x with
  | .nan s => nanOf s
  | .inf n => (if n then .fin true 0 0 else .inf false, noFlags)
  | .fin n m e =>
    if m = 0 then (.fin n 0 0, noFlags)
    else if atLeast m e 8 then (if n then tinyNum true else justBelow false m e, noFlags)
    else
      let f := toFix n m e
      (stickyNum n (f.natAbs * sigFix f / fixOne), noFlags)

/-- tanh x (09 R192). -/
def tanhNum (x : FNum) : FNum × BitVec 6 :=
  match x with
  | .nan s => nanOf s
  | .inf n => (.fin n 1 0, noFlags)
  | .fin n m e =>
    if m = 0 then (.fin n 0 0, noFlags)
    else if atLeast m e 7 then (justBelow n 1 0, noFlags)
    else
      let t := expFix (2 * toFix false m e)
      (stickyNum n ((t - fixOne) * fixOne / (t + fixOne)), noFlags)

/-- The logistic function (09 R192). -/
def sigmoidNum (x : FNum) : FNum × BitVec 6 :=
  match x with
  | .nan s => nanOf s
  | .inf n => (if n then FNum.zero else FNum.ofInt 1, noFlags)
  | .fin n m e =>
    if m = 0 then (.fin false 1 (-1), noFlags)
    else if atLeast m e 8 then (if n then tinyNum false else justBelow false 1 0, noFlags)
    else (stickyNum false (sigFix (toFix n m e)), noFlags)

end Sys2Proof.Machine
end

