-- ==== Sys2Proof/Machine/Integer.lean ====
section
/-! DEFINITION. The meanings of groups 0x1 and 0x2: integer arithmetic, logic, bits and compare (08 R152 to R157). -/
namespace Sys2Proof.Machine

/-- The low w bits of a word read by a type: signed for I types, unsigned for the others (08 R152). -/
def readInt (ty : Ty) (x : Word) : Int :=
  let m := x.toNat % 2 ^ ty.width
  if ty.signed && decide (2 ^ (ty.width - 1) ≤ m) then (m : Int) - 2 ^ ty.width else m

/-- The raw low w bits of a word. -/
def rawInt (ty : Ty) (x : Word) : Nat := x.toNat % 2 ^ ty.width

/-- A w-bit result extended to 64 bits by its type (08 R152). -/
def extInt (ty : Ty) (v : Int) : Word :=
  let m := (v % 2 ^ ty.width).toNat
  if ty.signed && decide (2 ^ (ty.width - 1) ≤ m) then BitVec.ofInt 64 ((m : Int) - 2 ^ ty.width) else BitVec.ofNat 64 m

/-- The least value of an integer type. -/
def intMin (ty : Ty) : Int := if ty.signed then -(2 ^ (ty.width - 1)) else 0
/-- The greatest value of an integer type. -/
def intMax (ty : Ty) : Int := if ty.signed then 2 ^ (ty.width - 1) - 1 else 2 ^ ty.width - 1

/-- The result of an exact value, wrapping or saturating, with its flags (08 R152). -/
def intResult (ty : Ty) (sat : Bool) (v : Int) : Word × BitVec 6 :=
  if sat then
    if v < intMin ty then (extInt ty (intMin ty), flagSat)
    else if intMax ty < v then (extInt ty (intMax ty), flagSat)
    else (extInt ty v, noFlags)
  else (extInt ty v, noFlags)

/-- An integer form with exact result f a b, FN bit 0 saturating (08 R153). -/
def intForm (f : Ty → Int → Int → Int) (_ : State) (a : Act) (v : View) : Fired :=
  let x := intResult v.r.ty (v.r.fn = 1) (f v.r.ty (readInt v.r.ty v.a.word) (readInt v.r.ty v.b.word))
  give a x.2 (Val.ofWord x.1)

/-- A form that delivers a w-bit result of the raw operands, extended by its type (08 R157). -/
def bitForm (f : Ty → Nat → Nat → Nat) (_ : State) (a : Act) (v : View) : Fired :=
  give a noFlags (Val.ofWord (extInt v.r.ty (f v.r.ty (rawInt v.r.ty v.a.word) (rawInt v.r.ty v.b.word))))

/-- A form that delivers a count or a truth value, never negative (08 R157). -/
def countForm (f : Rec → Word → Word → Nat) (_ : State) (a : Act) (v : View) : Fired :=
  give a noFlags (Val.ofNat (f v.r v.a.word v.b.word))

/-- DIV and REM with their boundary cases (08 R155): quotient, remainder and flags. -/
def divRem (ty : Ty) (a b : Int) : Int × Int × BitVec 6 :=
  if b = 0 then ((if !ty.signed then intMax ty else if 0 ≤ a then intMax ty else intMin ty), a, flagDz)
  else if ty.signed && a = intMin ty && b = -1 then (intMin ty, 0, flagOf)
  else (a.tdiv b, a - b * a.tdiv b, noFlags)

/-- The form of DIV and REM. -/
def divForm (f : Int × Int × BitVec 6 → Int) (_ : State) (a : Act) (v : View) : Fired :=
  let x := divRem v.r.ty (readInt v.r.ty v.a.word) (readInt v.r.ty v.b.word)
  give a x.2.2 (Val.ofWord (extInt v.r.ty (f x)))

/-- MAD: the addend is tK (08 R153). -/
def madForm (_ : State) (a : Act) (v : View) : Fired :=
  let t := v.r.ty
  let x := intResult t (v.r.fn = 1) (readInt t v.a.word * readInt t v.b.word + readInt t (v.k a).word)
  give a x.2 (Val.ofWord x.1)

/-- SHL: the shift is B read unsigned, at most w (08 R153). -/
def shlForm (_ : State) (a : Act) (v : View) : Fired :=
  let t := v.r.ty
  let x := intResult t (v.r.fn = 1) (readInt t v.a.word * 2 ^ (min v.b.word.toNat t.width))
  give a x.2 (Val.ofWord x.1)

/-- The raw bits shifted right by n, logical or arithmetic (08 R156). -/
def shrBits (w : Nat) (asr : Bool) (x n : Nat) : Nat :=
  if asr && decide (2 ^ (w - 1) ≤ x) then
    2 ^ w - 1 - (2 ^ w - 1 - x) / 2 ^ (min n w)
  else x / 2 ^ (min n w)

/-- SHR (08 R156). -/
def shrForm (_ : State) (a : Act) (v : View) : Fired :=
  let t := v.r.ty
  give a noFlags (Val.ofWord (extInt t (shrBits t.width (v.r.fn = 1) (rawInt t v.a.word) v.b.word.toNat)))

/-- The number of 1 bits among the low n. -/
def popCount (n x : Nat) : Nat :=
  match n with
  | 0 => 0
  | k + 1 => x % 2 + popCount k (x / 2)

/-- Zeros above the highest 1 bit of w bits. -/
def leadZeros (w x : Nat) : Nat :=
  match w with
  | 0 => 0
  | k + 1 => if 2 ^ k ≤ x then 0 else 1 + leadZeros k x

/-- The low w bits reversed. -/
def bitReverse (w x : Nat) : Nat :=
  match w with
  | 0 => 0
  | k + 1 => (x % 2) * 2 ^ k + bitReverse k (x / 2)

/-- w bits rotated left by n. -/
def rotLeft (w x n : Nat) : Nat := (x * 2 ^ (n % w) + x / 2 ^ (w - n % w)) % 2 ^ w

/-- pos and len of BEXT and BINS (08 R157). -/
def bitField (r : Rec) : Nat × Nat := ((slice r.lit 0 6).toNat, (slice r.lit 8 6).toNat + 1)

/-- BEXT: the field, extended from len bits by the type's sign (08 R157). -/
def bextForm (_ : State) (a : Act) (v : View) : Fired :=
  let (pos, len) := bitField v.r
  let m := rawInt v.r.ty v.a.word / 2 ^ pos % 2 ^ len
  give a noFlags (Val.ofWord (extInt v.r.ty (if v.r.ty.signed && decide (2 ^ (len - 1) ≤ m) then (m : Int) - 2 ^ len else m)))

/-- BINS: the field of A replaced by the low bits of B (08 R157). -/
def binsForm (_ : State) (a : Act) (v : View) : Fired :=
  let (pos, len) := bitField v.r
  let x := rawInt v.r.ty v.a.word
  let y := x - x / 2 ^ pos % 2 ^ len * 2 ^ pos + rawInt v.r.ty v.b.word % 2 ^ len * 2 ^ pos
  give a noFlags (Val.ofWord (extInt v.r.ty y))

/-- A condition of CMP (08 R157; 06 R118). -/
def condHolds (fn : Nat) (lt eq : Bool) : Bool :=
  match fn with
  | 0 => eq
  | 1 => !eq
  | 2 => lt
  | 3 => lt || eq
  | 4 => !(lt || eq)
  | _ => !lt

/-- CMP (08 R157). -/
def cmpForm (_ : State) (a : Act) (v : View) : Fired :=
  let x := readInt v.r.ty v.a.word
  let y := readInt v.r.ty v.b.word
  give a noFlags (Val.ofNat (if condHolds v.r.fn.toNat (x < y) (x = y) then 1 else 0))

/-- SELP: a copy of the low w bits of A or B (08 R157). -/
def selpForm (_ : State) (a : Act) (v : View) : Fired :=
  give a noFlags (Val.ofWord (extInt v.r.ty (rawInt v.r.ty (if (v.k a).truth then v.a.word else v.b.word))))

/-- CLAMP (08 R157). -/
def clampForm (_ : State) (a : Act) (v : View) : Fired :=
  let t := v.r.ty
  give a noFlags (Val.ofWord (extInt t (min (max (readInt t v.a.word) (readInt t v.b.word)) (readInt t (v.k a).word))))

/-- ADD (08 R153). -/
def execAdd (r : Rec) (s : State) : Result State := fire .add r s (intForm fun _ x y => x + y)
/-- SUB (08 R153). -/
def execSub (r : Rec) (s : State) : Result State := fire .sub r s (intForm fun _ x y => x - y)
/-- MUL (08 R153). -/
def execMul (r : Rec) (s : State) : Result State := fire .mul r s (intForm fun _ x y => x * y)
/-- MULH (08 R153): FN is 0, so the result wraps. -/
def execMulh (r : Rec) (s : State) : Result State := fire .mulh r s (intForm fun t x y => (x * y) / 2 ^ t.width)
/-- MAD (08 R153). -/
def execMad (r : Rec) (s : State) : Result State := fire .mad r s madForm
/-- DIV (08 R153, R155). -/
def execDiv (r : Rec) (s : State) : Result State := fire .div r s (divForm fun x => x.1)
/-- REM (08 R153, R155). -/
def execRem (r : Rec) (s : State) : Result State := fire .rem r s (divForm fun x => x.2.1)
/-- NEG (08 R153). -/
def execNeg (r : Rec) (s : State) : Result State := fire .neg r s (intForm fun _ x _ => -x)
/-- ABS (08 R153). -/
def execAbs (r : Rec) (s : State) : Result State := fire .abs r s (intForm fun _ x _ => if x < 0 then -x else x)
/-- MIN (08 R153). -/
def execMin (r : Rec) (s : State) : Result State := fire .min r s (intForm fun _ x y => if x ≤ y then x else y)
/-- MAX (08 R153). -/
def execMax (r : Rec) (s : State) : Result State := fire .max r s (intForm fun _ x y => if x ≤ y then y else x)
/-- SHL (08 R153). -/
def execShl (r : Rec) (s : State) : Result State := fire .shl r s shlForm
/-- SHR (08 R156). -/
def execShr (r : Rec) (s : State) : Result State := fire .shr r s shrForm
/-- AND (08 R157). -/
def execAndOp (r : Rec) (s : State) : Result State := fire .andOp r s (bitForm fun _ x y => x &&& y)
/-- OR (08 R157). -/
def execOrOp (r : Rec) (s : State) : Result State := fire .orOp r s (bitForm fun _ x y => x ||| y)
/-- XOR (08 R157). -/
def execXorOp (r : Rec) (s : State) : Result State := fire .xorOp r s (bitForm fun _ x y => x ^^^ y)
/-- NOT (08 R157). -/
def execNotOp (r : Rec) (s : State) : Result State := fire .notOp r s (bitForm fun t x _ => 2 ^ t.width - 1 - x)
/-- POPC (08 R157). -/
def execPopc (r : Rec) (s : State) : Result State :=
  fire .popc r s (countForm fun q x _ => popCount q.ty.width (rawInt q.ty x))
/-- CLZ (08 R157). -/
def execClz (r : Rec) (s : State) : Result State :=
  fire .clz r s (countForm fun q x _ => leadZeros q.ty.width (rawInt q.ty x))
/-- BREV (08 R157). -/
def execBrev (r : Rec) (s : State) : Result State := fire .brev r s (bitForm fun t x _ => bitReverse t.width x)
/-- BEXT (08 R157). -/
def execBext (r : Rec) (s : State) : Result State := fire .bext r s bextForm
/-- BINS (08 R157). -/
def execBins (r : Rec) (s : State) : Result State := fire .bins r s binsForm
/-- ROT (08 R157): the count is B read unsigned modulo w. -/
def execRot (r : Rec) (s : State) : Result State :=
  fire .rot r s fun _ a v =>
    let w := v.r.ty.width
    let n := v.b.word.toNat % w
    let x := rawInt v.r.ty v.a.word
    give a noFlags (Val.ofWord (extInt v.r.ty (rotLeft w x (if v.r.fn = 0 then n else w - n))))
/-- CMP (08 R157). -/
def execCmp (r : Rec) (s : State) : Result State := fire .cmp r s cmpForm
/-- SELP (08 R157). -/
def execSelp (r : Rec) (s : State) : Result State := fire .selp r s selpForm
/-- CLAMP (08 R157). -/
def execClamp (r : Rec) (s : State) : Result State := fire .clamp r s clampForm

end Sys2Proof.Machine
end

