-- ==== Sys2Proof/Machine/Float.lean ====
section
/-! DEFINITION. The meanings of group 0x4: scalar float (09 R170 to R177). -/
namespace Sys2Proof.Machine

/-- The format of a float type. -/
def fmtOf (ty : Ty) : Fmt :=
  match ty with
  | .f16 => f16
  | .b16 => b16
  | _ => f32

/-- A scalar operand read by its type from its low bits (09 R170). -/
def floatIn (ty : Ty) (w : Word) : FNum := readFmt (fmtOf ty) (w.toNat % 2 ^ ty.width)

/-- The operands as FN[3:2] leaves them: absolute for abs (09 R171). -/
def modIn (fn : BitVec 4) (x : FNum) : FNum := if slice fn 2 2 = 2 then x.absolute else x

/-- A rounded pattern negated for neg, a NaN as it is (09 R171). -/
def modOut (f : Fmt) (fn : BitVec 4) (x : Nat) : Nat :=
  if slice fn 2 2 = 1 && x ≠ f.nanBits then (x + 2 ^ (f.eb + f.fb)) % 2 ^ (f.eb + f.fb + 1) else x

/-- A scalar float form: exact result, one rounding in the direction of FN[1:0] (09 R170, R171). -/
def floatForm (f : Nat → FNum → FNum → FNum → FNum × BitVec 6) (_ : State) (a : Act) (v : View) : Fired :=
  let t := v.r.ty
  let rm := (slice v.r.fn 0 2).toNat
  let g (w : Word) : FNum := modIn v.r.fn (floatIn t w)
  let x := f rm (g v.a.word) (g v.b.word) (g (v.k a).word)
  let y := roundFmt (fmtOf t) rm x.1
  give a (x.2 ||| y.2) (Val.ofNat (modOut (fmtOf t) v.r.fn y.1))

/-- FCMP (09 R173). -/
def fcmpForm (_ : State) (a : Act) (v : View) : Fired :=
  let x := cmpNum v.r.fn.toNat (floatIn v.r.ty v.a.word) (floatIn v.r.ty v.b.word)
  give a x.2 (Val.ofNat (if x.1 then 1 else 0))

/-- The class bit of a number of a format (09 R174). -/
def classBit (f : Fmt) (x : FNum) : Nat :=
  match x with
  | .nan s => if s then 0 else 1
  | .inf n => if n then 2 else 9
  | .fin n m e =>
    if m = 0 then (if n then 5 else 6)
    else if floorLog2 m e < f.emin then (if n then 4 else 7)
    else if n then 3 else 8

/-- The number of an E8 byte (03 R61; 09 R175). -/
def e8Num (x : Nat) : FNum := if x = 255 then .nan false else .fin false 1 ((x : Int) - 127)

/-- A number converted to E8 (03 R61). -/
def toE8 (x : FNum) : Nat × BitVec 6 :=
  match x with
  | .nan _ => (255, flagNv)
  | .inf n => if n then (255, flagNv) else (254, flagOf ||| flagNx)
  | .fin n m e =>
    if m = 0 || n then (255, flagNv)
    else (min 254 (floorLog2 m e + 127).toNat, noFlags)

/-- The source of a conversion by its type code. -/
def convIn (code : Nat) (w : Word) : FNum :=
  match code with
  | 0x9 => floatIn .f16 w
  | 0xA => floatIn .b16 w
  | 0xE => e8Num (w.toNat % 256)
  | _ => floatIn .f32 w

/-- FCVT (09 R175). -/
def fcvtForm (_ : State) (a : Act) (v : View) : Fired :=
  let x := convIn (slice v.r.lit 0 4).toNat v.a.word
  let y := if v.r.ty = .e8 then toE8 x else roundFmt (fmtOf v.r.ty) (slice v.r.fn 0 2).toNat x
  give a (y.2 ||| flagIf x.isSig flagNv) (Val.ofNat y.1)

/-- ICVT (09 R176). -/
def icvtForm (_ : State) (a : Act) (v : View) : Fired :=
  let t := v.r.ty
  let rm := (slice v.r.fn 0 2).toNat
  if t.isInt then
    let x := numToInt rm (intMin t) (intMax t) (convIn (slice v.r.lit 0 4).toNat v.a.word)
    give a x.2 (Val.ofWord (extInt t x.1))
  else
    let src := (Ty.ofCode (slice v.r.lit 0 4)).getD .i64
    let y := roundFmt (fmtOf t) rm (FNum.ofInt (readInt src v.a.word))
    give a y.2 (Val.ofNat y.1)

/-- A number rounded to an integral value, the sign of a zero result kept (09 R177). -/
def integral (rm : Nat) (x : FNum) : FNum × BitVec 6 :=
  match x with
  | .nan s => nanOf s
  | .inf n => (.inf n, noFlags)
  | .fin n m e =>
    let (r, nx) := roundUnits rm n m e 0
    (.fin n r 0, flagIf nx flagNx)

/-- FRND (09 R177). -/
def frndForm (_ : State) (a : Act) (v : View) : Fired :=
  let x := integral (slice v.r.fn 0 2).toNat (floatIn v.r.ty v.a.word)
  give a x.2 (Val.ofNat (roundFmt (fmtOf v.r.ty) 0 x.1).1)

/-- FADD (09 R171). -/
def execFadd (r : Rec) (s : State) : Result State := fire .fadd r s (floatForm fun rm x y _ => addNum rm x y)
/-- FSUB (09 R171). -/
def execFsub (r : Rec) (s : State) : Result State := fire .fsub r s (floatForm fun rm x y _ => addNum rm x y.negate)
/-- FMUL (09 R171). -/
def execFmul (r : Rec) (s : State) : Result State := fire .fmul r s (floatForm fun _ x y _ => mulNum x y)
/-- FFMA (09 R171). -/
def execFfma (r : Rec) (s : State) : Result State := fire .ffma r s (floatForm fun rm x y z => fmaNum rm x y z)
/-- FDIV (09 R171). -/
def execFdiv (r : Rec) (s : State) : Result State := fire .fdiv r s (floatForm fun _ x y _ => divNum x y)
/-- FSQRT (09 R171). -/
def execFsqrt (r : Rec) (s : State) : Result State := fire .fsqrt r s (floatForm fun _ x _ _ => sqrtNum x)
/-- FRSQ (09 R171): FN[1:0] is RNE. -/
def execFrsq (r : Rec) (s : State) : Result State := fire .frsq r s (floatForm fun _ x _ _ => rsqNum x)
/-- FMIN (09 R172). -/
def execFmin (r : Rec) (s : State) : Result State := fire .fmin r s (floatForm fun _ x y _ => minNum x y)
/-- FMAX (09 R172). -/
def execFmax (r : Rec) (s : State) : Result State := fire .fmax r s (floatForm fun _ x y _ => maxNum x y)
/-- FCMP (09 R173). -/
def execFcmp (r : Rec) (s : State) : Result State := fire .fcmp r s fcmpForm
/-- FCLS (09 R174). -/
def execFcls (r : Rec) (s : State) : Result State :=
  fire .fcls r s fun _ a v => give a noFlags (Val.ofNat (2 ^ classBit (fmtOf v.r.ty) (floatIn v.r.ty v.a.word)))
/-- FCVT (09 R175). -/
def execFcvt (r : Rec) (s : State) : Result State := fire .fcvt r s fcvtForm
/-- ICVT (09 R176). -/
def execIcvt (r : Rec) (s : State) : Result State := fire .icvt r s icvtForm
/-- FRND (09 R177). -/
def execFrnd (r : Rec) (s : State) : Result State := fire .frnd r s frndForm

end Sys2Proof.Machine
end

