-- ==== Sys2Proof/Machine/Courses.lean ====
section
/-! DEFINITION. Courses: header, lanes, tapered codes, operands and results of course forms (03 R43 to R65; 09 R178 to R181). -/
namespace Sys2Proof.Machine

/-! ### Header and lanes (03 R43 to R47) -/

/-- The format code of a course. -/
def crsFmt (c : Course) : Nat := (slice c 0 8).toNat
/-- The scale byte of a course. -/
def crsScale (c : Course) : Nat := (slice c 8 8).toNat
/-- The tail word of a course. -/
def crsTail (c : Course) : BitVec 16 := slice c 496 16
/-- The level L of a course. -/
def crsL (c : Course) : Nat := (slice c 509 3).toNat
/-- The tree index k of a course. -/
def crsK (c : Course) : Nat := (slice c 502 7).toNat
/-- Z of a course. -/
def crsZ (c : Course) : Bool := bit c 501
/-- Q of a course. -/
def crsQ (c : Course) : Bool := bit c 500

/-- The format code that a type reads (03 R44); 0 for CAP and E8. -/
def fmtCode (ty : Ty) : Nat :=
  match ty with
  | .i8 | .n8 => 0x01 | .i16 | .n16 => 0x02 | .i32 | .n32 => 0x03 | .i64 | .n64 => 0x04
  | .f16 => 0x08 | .b16 => 0x09 | .f32 => 0x0A | .t8 => 0x10 | .t6 => 0x11 | .cap | .e8 => 0

/-- The width and count of the elements of a format code (03 R44); none where the code is reserved or for links only. -/
def fmtShape (code : Nat) : Option (Nat × Nat) :=
  match code with
  | 0x01 => some (8, 60) | 0x02 => some (16, 30) | 0x03 => some (32, 15) | 0x04 => some (64, 7)
  | 0x08 => some (16, 30) | 0x09 => some (16, 30) | 0x0A => some (32, 15)
  | 0x10 => some (8, 60) | 0x11 => some (6, 80) | 0x20 => some (32, 15) | 0x21 => some (32, 15)
  | _ => none

/-- The checks of R48 that do not depend on a type: reserved format 1, interchange format 2, tail 4; 99 where they pass. -/
def checkCourse (c : Course) : Nat :=
  if crsFmt c = 0x18 || crsFmt c = 0x19 then 2
  else if (fmtShape (crsFmt c)).isNone then 1
  else if slice c 496 4 ≠ 0 then 4
  else 99

/-- The checks of R48 for a type: format mismatch is 3. -/
def checkTyped (ty : Ty) (c : Course) : Nat :=
  if crsFmt c = 0x18 || crsFmt c = 0x19 then 2
  else if (fmtShape (crsFmt c)).isNone then 1
  else if crsFmt c ≠ fmtCode ty then 3
  else if slice c 496 4 ≠ 0 then 4
  else 99

/-- The payload of a course, zero where Z is set (03 R47). -/
def payload (c : Course) : BitVec 480 := if crsZ c then 0 else slice c 16 480

/-- A course as it reads: Z takes precedence over the payload (03 R47). -/
def effective (c : Course) : Course := slice c 496 16 ++ payload c ++ slice c 0 16

/-- A course with Z set by its payload (03 R47). -/
def withZ (c : Course) : Course :=
  slice c 502 10 ++ BitVec.ofBool (slice c 16 480 = 0) ++ slice c 496 5 ++ slice c 0 496

/-- Lane i of width w, raw (03 R45). -/
def laneRaw (w : Nat) (c : Course) (i : Nat) : Nat := (payload c).toNat / 2 ^ (w * i) % 2 ^ w

/-- The raw lanes of a course for a type. -/
def lanesRaw (ty : Ty) (c : Course) : List Nat := (List.range ty.count).map (laneRaw ty.width c)

/-- A payload of raw lanes of width w, lane 0 first. -/
def packLanes (w : Nat) (l : List Nat) : Nat := l.foldr (fun x acc => x % 2 ^ w + 2 ^ w * acc) 0

/-- A tail word of its fields, Z left clear (03 R46). -/
def tailOf (l k : Nat) (q : Bool) : BitVec 16 :=
  BitVec.ofNat 3 l ++ BitVec.ofNat 7 k ++ 0#1 ++ BitVec.ofBool q ++ 0#4

/-- A course of its parts, Z by R47. -/
def mkCourse (code scale : Nat) (tail : BitVec 16) (w : Nat) (lanes : List Nat) : Course :=
  withZ (tail ++ BitVec.ofNat 480 (packLanes w lanes) ++ BitVec.ofNat 8 scale ++ BitVec.ofNat 8 code)

/-! ### Tapered codes (03 R49 to R54) -/

/-- The leading run of equal bits of m below bit i: its length and the index of the bit after it, as i + 1. -/
def taperRun (m b : Nat) (i run : Nat) : Nat × Nat :=
  match i with
  | 0 => (run, 0)
  | j + 1 => if m / 2 ^ j % 2 = b then taperRun m b j (run + 1) else (run, j + 1)

/-- The value of a tapered magnitude of n - 1 bits, in units of 2^-16 (03 R49). -/
def taperUnits (n m : Nat) : Nat :=
  if m = 0 then 0
  else
    let b := m / 2 ^ (n - 2) % 2
    let (run, i) := taperRun m b (n - 1) 0
    let k : Int := if b = 1 then (run : Int) - 1 else -(run : Int)
    let i := i - 1
    let e := if i = 0 then 0 else m / 2 ^ (i - 1) % 2
    let fb := i - 1
    let f := m % 2 ^ fb
    let sh := 2 * k + e + 16
    (2 ^ fb + f) * 2 ^ sh.toNat / 2 ^ fb

/-- The number that a tapered code denotes (03 R49). -/
def taperNum (n c : Nat) : FNum :=
  let neg := c / 2 ^ (n - 1) % 2 = 1
  let m := c % 2 ^ (n - 1)
  if m = 0 then (if neg then .nan false else FNum.zero) else .fin neg (taperUnits n m) (-16)

/-- The greatest magnitude code below hi whose value is at most num / den, in units of 2^-16. -/
def taperFloor (n hi num den : Nat) : Nat :=
  match hi with
  | 0 => 0
  | m + 1 => if taperUnits n m * den ≤ num then m else taperFloor n m num den

/-- |v| = m * 2^e in units of 2^-16 as a fraction. -/
def taperFrac (m : Nat) (e : Int) : Nat × Nat :=
  if 0 ≤ e + 16 then (m * 2 ^ (e + 16).toNat, 1) else (m, 2 ^ (-(e + 16)).toNat)

/-- How an element is rounded into a tapered code: a direction, or the stochastic draw u (03 R52, R58). -/
inductive Rounding where
  | dir (rm : Nat) | draw (u : Nat)
  deriving DecidableEq, Repr, Inhabited

/-- A magnitude rounded between lo and hi = lo + 1 (codes) for a fraction num / den: the code taken (03 R52, R58). -/
def taperPick (n : Nat) (rd : Rounding) (neg : Bool) (lo num den : Nat) : Nat :=
  let vl := taperUnits n lo
  let vh := taperUnits n (lo + 1)
  if vl * den = num then lo
  else match rd with
    | .draw u => if 65536 ≤ (num - vl * den) * 65536 / ((vh - vl) * den) + u then lo + 1 else lo
    | .dir 0 =>
      if lo = 0 then (if 2 * num < vh * den then 0 else 1)
      else if 2 * num < (vl + vh) * den then lo
      else if (vl + vh) * den < 2 * num then lo + 1
      else if lo % 2 = 0 then lo else lo + 1
    | .dir 1 => lo
    | .dir 2 => if neg then lo else lo + 1
    | .dir _ => if neg then lo + 1 else lo

/-- A number encoded into a tapered code of n bits (03 R52, R58); a signalling NaN is invalid (R55). A result of 0x00 from a
non-zero number sets underflow beside inexact under every rounding, the stochastic one too (log 131, DEDUCED). -/
def taperEncode (n : Nat) (rd : Rounding) (x : FNum) : Nat × BitVec 6 :=
  let top := 2 ^ (n - 1)
  let sgn (neg : Bool) (m : Nat) : Nat := if m = 0 then 0 else (if neg then top else 0) + m
  match x with
  | .nan sig => (top, flagIf sig flagNv)
  | .inf neg => (sgn neg (top - 1), flagSat)
  | .fin neg m e =>
    if m = 0 then (0, noFlags)
    else
      let (num, den) := taperFrac m e
      if taperUnits n (top - 1) * den < num then (sgn neg (top - 1), flagSat)
      else
        let lo := taperFloor n top num den
        let c := taperPick n rd neg lo num den
        let exact := taperUnits n c * den = num
        (sgn neg c, if c = 0 then flagUf ||| flagNx else flagIf (!exact) flagNx)

/-- A tapered element of a course with scale byte x decoded to binary32, not yet flushed (03 R53). -/
def taperDecode (n x c : Nat) : Nat × BitVec 6 :=
  if x = 255 then (f32.nanBits, noFlags)
  else match taperNum n c with
    | .fin neg m e => roundFmt f32 0 (.fin neg m (e + x - 127))
    | y => roundFmt f32 0 y

/-- The exponent E of a tapered course over its values (03 R54). -/
def scaleExp (l : List FNum) : Int :=
  if l.any fun x => x.isInf then 127
  else
    let es := l.filterMap fun x =>
      match x with
      | .fin _ m e => if m = 0 then none else some (floorLog2 m e)
      | _ => none
    match es with
    | [] => 0
    | e :: t => max (-127) (min 127 (t.foldl max e))

/-- A number divided by 2^k exactly. -/
def FNum.scaleBy (x : FNum) (k : Int) : FNum :=
  match x with
  | .fin n m e => .fin n m (e + k)
  | y => y

/-- The flags of a list of results ORed. -/
def orFlags (l : List (Nat × BitVec 6)) : BitVec 6 := l.foldl (fun f x => f ||| x.2) noFlags

/-- Values encoded into a tapered course of n-bit codes with the scale of R54: scale byte, codes, flags. -/
def taperLanes (n : Nat) (rds : List Rounding) (l : List FNum) : Nat × List Nat × BitVec 6 :=
  let e := scaleExp l
  let xs := (l.zip rds).map fun x => taperEncode n x.2 (x.1.scaleBy (-e))
  ((e + 127).toNat, xs.map (·.1), orFlags xs)

/-! ### Lanes as numbers -/

/-- A tapered type. -/
def isTaper (ty : Ty) : Bool := ty = .t8 || ty = .t6

/-- Lane i of a course of a float type, decoded and flushed, with the flags of decoding; the flush of an input sets none (03 R53,
R56; 09 R178). -/
def laneNum (ty : Ty) (c : Course) (i : Nat) : FNum × BitVec 6 :=
  if isTaper ty then
    let x := taperDecode ty.width (crsScale c) (laneRaw ty.width c i)
    (readFmt f32 (flushIn f32 x.1), x.2)
  else (readFmt (fmtOf ty) (flushIn (fmtOf ty) (laneRaw ty.width c i)), noFlags)

/-- Lane i of a course as an FP32 lane with the flags of decoding and of its NaN (03 R53, R55; 09 R181, R194). -/
def laneBits (ty : Ty) (c : Course) (i : Nat) : Nat × BitVec 6 :=
  let x := laneNum ty c i
  let y := roundFmt f32 0 x.1
  (y.1, x.2 ||| y.2)

/-- The lanes of a course of a float type as numbers, with the flags of decoding. -/
def laneNums (ty : Ty) (c : Course) : List FNum × BitVec 6 :=
  let xs := (List.range ty.count).map (laneNum ty c)
  (xs.map (·.1), xs.foldl (fun f x => f ||| x.2) noFlags)

/-- Float lanes rounded into a course of a type: one RNE rounding to the element format, or binary32 and then R54 for tapered
types, flushed (09 R179). -/
def floatCourse (ty : Ty) (tail : BitVec 16) (l : List FNum) : Course × BitVec 6 :=
  if isTaper ty then
    let xs := l.map (laneFmt f32)
    let y := taperLanes ty.width (List.replicate ty.count (.dir 0)) (xs.map fun x => readFmt f32 x.1)
    (mkCourse (fmtCode ty) y.1 tail ty.width y.2.1, orFlags xs ||| y.2.2)
  else
    let xs := l.map (laneFmt (fmtOf ty))
    (mkCourse (fmtCode ty) 127 tail ty.width (xs.map (·.1)), orFlags xs)

/-- binary32 lanes narrowed into a course of a type: unchanged for F32, one more RNE rounding for F16 and B16, R54 for tapered
types (09 R192, R194). -/
def narrowCourse (ty : Ty) (tail : BitVec 16) (l : List Nat) : Course × BitVec 6 :=
  if ty = .f32 then (mkCourse (fmtCode ty) 127 tail 32 l, noFlags)
  else floatCourse ty tail (l.map (readFmt f32))

/-- Raw integer lanes as a course of a type. -/
def rawCourse (ty : Ty) (scale : Nat) (tail : BitVec 16) (l : List Nat) : Course :=
  mkCourse (fmtCode ty) scale tail ty.width l

/-! ### Operands -/

/-- A course operand after its checks, or a broadcast (09 R178). -/
structure COp where
  bcast : Bool
  raw   : Course
  nums  : List FNum
  ints  : List Int
  l     : Nat
  k     : Nat
  q     : Bool
  flags : BitVec 6
  recon : Nat
  deriving DecidableEq, Repr, Inhabited

/-- A selector that broadcasts in an elementwise form. -/
def isBcast (x : Src) : Bool := x = .lit || x = .zero

/-- The literal or zero of a broadcast. -/
def bcastLit (r : Rec) (x : Src) : BitVec 32 := if x = .lit then r.lit else 0

/-- Integer lanes of a course. -/
def laneInts (ty : Ty) (c : Course) : List Int := (lanesRaw ty c).map fun x => readInt ty (BitVec.ofNat 64 x)

/-- A course checked for a type as an operand (03 R48); the error is a code of class format. -/
def readCourse (ty : Ty) (c : Course) : Except Nat COp :=
  let k := checkTyped ty c
  if k ≠ 99 then .error k
  else if ty.isInt then .ok ⟨false, effective c, [], laneInts ty c, crsL c, crsK c, crsQ c, noFlags, 0⟩
  else
    let x := laneNums ty c
    .ok ⟨false, effective c, x.1, [], crsL c, crsK c, crsQ c, x.2, 0⟩

/-- An operand of an elementwise form: a course, or a broadcast for the B of a literal or zero selector. An integer lane is the low
bits of the literal sign-extended to 64 bits (09 R178), for N64 too, whose row in R9 zero-extends (log 133, DEDUCED). -/
def readCOp (r : Rec) (src : Src) (v : Val) : Except Nat COp :=
  if isBcast src then
    let lit := bcastLit r src
    .ok ⟨true, 0, List.replicate r.ty.count (readFmt f32 lit.toNat),
      List.replicate r.ty.count (readInt r.ty (sextTo 64 lit)), 0, 0, false, noFlags, 0⟩
  else readCourse r.ty v.bits

/-! ### Reconstruction (09 R181) -/

/-- The T entries of a tile from an offset beyond the head of a ring that record j sees; none where one is out of reach. -/
def ringTile (x : Ctx) (a : Act) (j q off t : Nat) : Option (List Course) :=
  (List.range t).mapM fun i =>
    match ringRead x a j q (off + i) with
    | .val v => some v.bits
    | _ => none

/-- The exponent n of T = 2^n up to 7. -/
def log2Exact (t : Nat) : Option Nat := (List.range 8).find? fun n => 2 ^ n = t

/-- The length of the tile at a ring's head: the take rate, or the depth of a const ring (09 R181). -/
def tileLen (x : Ctx) (q : Nat) : Nat :=
  match x.ring? q with
  | none => 0
  | some g => if g.kind = .const then g.depth else g.take

/-- The code of the first entry of a tile that breaks a condition, entry by entry (R48; 09 R181, R194): another format or level, or
a k that is not its place where asked, is tile; a tail that R48 refuses is tail; 99 where none does (log 132, DEDUCED). -/
def tileCode (ty : Ty) (l : Nat) (byPlace : Bool) (tile : List Course) : Nat :=
  let code (x : Course × Nat) : Nat :=
    firstCode
      [ (crsFmt x.1 ≠ fmtCode ty, 6), (slice x.1 496 4 ≠ 0, 4), (crsL x.1 ≠ l || (byPlace && crsK x.1 ≠ x.2), 6) ]
  ((tile.zipIdx.map code).find? (· ≠ 99)).getD 99

/-- The flags of decoding every lane of every entry of a tile (03 R53; 09 R181). -/
def tileFlags (ty : Ty) (tile : List Course) : BitVec 6 :=
  tile.foldl (fun f c => f ||| (laneNums ty c).2) noFlags

/-- One rounding of a binary32 sum or difference, flushed (03 R63). -/
def haarAdd (sub : Bool) (x y : Nat × BitVec 6) : Nat × BitVec 6 :=
  let a := readFmt f32 x.1
  let b := readFmt f32 y.1
  let s := addNum 0 a (if sub then b.negate else b)
  let z := laneFmt f32 s.1
  (z.1, x.2 ||| y.2 ||| s.2 ||| z.2)

/-- One lane of time step tau of a tile at level L (09 R181): lane values by entry, levels L down to 1. -/
def recLane (lane : Nat → Nat × BitVec 6) (tau t l : Nat) (m : Nat) (acc : Nat × BitVec 6) : Nat × BitVec 6 :=
  match m with
  | 0 => acc
  | n + 1 =>
    let j := n + 1
    let d := lane (t / 2 ^ j + tau / 2 ^ j)
    recLane lane tau t l n (haarAdd (tau / 2 ^ (j - 1) % 2 = 1) acc d)

/-- Time step tau of a tile as binary32 lanes (09 R181). -/
def recTile (ty : Ty) (tile : List Course) (l tau : Nat) : List (Nat × BitVec 6) :=
  let t := tile.length
  (List.range ty.count).map fun i =>
    let lane (n : Nat) : Nat × BitVec 6 := laneBits ty (tile.getD n 0) i
    recLane lane tau t l l (lane (tau / 2 ^ l))

/-- A rec form's operand reconstructed to level 0 (09 R181): the errors are domain 5, tile 6 and the tail 4 of an entry. -/
def reconstruct (x : Ctx) (a : Act) (j : Nat) (r : Rec) (src : Src) (q : Nat) (o : COp) : Except Nat COp :=
  if o.bcast || o.l = 0 then .ok o
  else if r.ty.isInt then .error 5
  else if src ≠ .ring then .error 6
  else
    let tau := (slice r.ax 8 5).toNat
    let t := tileLen x q
    match ringTile x a j q 0 t with
    | none => .error 6
    | some tile =>
      if !((log2Exact t).any fun n => decide (o.l ≤ n)) then .error 6
      else if tileCode r.ty o.l true tile ≠ 99 then .error (tileCode r.ty o.l true tile)
      else
        let ls := recTile r.ty tile o.l tau
        .ok { o with nums := ls.map (fun y => readFmt f32 y.1), l := 0, k := tau,
                     flags := o.flags ||| tileFlags r.ty tile ||| orFlags ls, recon := 1 }

/-- The A operand of a course form. -/
def opA (v : View) : Except Nat COp := readCourse v.r.ty v.a.bits
/-- The B operand of an elementwise form. -/
def opB (v : View) : Except Nat COp := readCOp v.r v.r.b v.b
/-- A reconstructed. -/
def recA (s : State) (a : Act) (v : View) (o : COp) : Except Nat COp :=
  reconstruct (s.ctx v.c) a v.j v.r v.r.a (slice v.r.ax 0 4).toNat o
/-- B reconstructed. -/
def recB (s : State) (a : Act) (v : View) (o : COp) : Except Nat COp :=
  reconstruct (s.ctx v.c) a v.j v.r v.r.b (slice v.r.ax 4 4).toNat o

/-! ### Results -/

/-- A course result: the course, its flags and the operands reconstructed for it. -/
structure CRes where
  c     : Course
  flags : BitVec 6
  recon : Nat
  deriving DecidableEq, Repr, Inhabited

/-- The answer of a course form: a format fault of a code, or the result for both destinations. -/
def courseAnswer (a : Act) (x : Except Nat CRes) : Fired :=
  match x with
  | .error k => .fault 4 k 0 0
  | .ok y => give { a with recon := a.recon + y.recon } y.flags (Val.ofCourse y.c)

/-- The answer of a reducing form: a scalar for both destinations. -/
def scalarAnswer (a : Act) (x : Except Nat (Word × BitVec 6 × Nat)) : Fired :=
  match x with
  | .error k => .fault 4 k 0 0
  | .ok y => give { a with recon := a.recon + y.2.2 } y.2.1 (Val.ofWord y.1)

/-- Lane results of a course form by type (09 R179): float lanes by f, integer lanes by g with FN 1 saturating. -/
def laneResult (r : Rec) (tail : BitVec 16) (fl : BitVec 6) (recon : Nat) (nums : List (FNum × BitVec 6))
    (ints : List Int) : CRes :=
  if r.ty.isInt then
    let xs := ints.map (intResult r.ty (r.fn = 1))
    ⟨rawCourse r.ty 127 tail (xs.map fun x => x.1.toNat % 2 ^ r.ty.width), xs.foldl (fun f x => f ||| x.2) noFlags, recon⟩
  else
    let y := floatCourse r.ty tail (nums.map (·.1))
    ⟨y.1, fl ||| nums.foldl (fun f x => f ||| x.2) noFlags ||| y.2, recon⟩

end Sys2Proof.Machine
end

