-- ==== Sys2Proof/Machine/Vector.lean ====
section
/-! DEFINITION. The meanings of group 0x5: course elementwise forms (09 R183 to R186). -/
namespace Sys2Proof.Machine

/-- The level and index that a coef form's match rule gives two operands (09 R180); the error is domain. -/
def matchTails (l : List COp) : Except Nat Unit :=
  let cs := l.filter fun o => !o.bcast
  match cs with
  | [] => .ok ()
  | c :: t =>
    if (cs.any fun o => decide (0 < o.l)) && (t.any fun o => o.l ≠ c.l || o.k ≠ c.k) then .error 5 else .ok ()

/-- The tail of the operand with L > 0, else of A (09 R180, scale). -/
def scaleTail (a b : COp) (q : Bool) : BitVec 16 := if a.l = 0 && 0 < b.l then tailOf b.l b.k q else tailOf a.l a.k q

/-- The k of a rec result: that of A, or of B where B alone was reconstructed (09 R180; log 24). -/
def recTail (a b : COp) (q : Bool) : BitVec 16 :=
  tailOf 0 (if a.recon = 0 && 0 < b.recon then b.k else a.k) q

/-- The lanes of two operands by a float and an integer function (09 R179). -/
def zipLanes (r : Rec) (tail : BitVec 16) (a b : COp) (f : FNum → FNum → FNum × BitVec 6) (g : Int → Int → Int) : CRes :=
  laneResult r tail (a.flags ||| b.flags) (a.recon + b.recon) ((a.nums.zip b.nums).map fun x => f x.1 x.2)
    ((a.ints.zip b.ints).map fun x => g x.1 x.2)

/-- A broadcast that is not zero (09 R183). -/
def nonZeroBcast (r : Rec) (src : Src) (o : COp) : Bool :=
  o.bcast && (if r.ty.isInt then o.ints.any (· ≠ 0) else !(readFmt f32 (bcastLit r src).toNat).isZero)

/-- VADD and VSUB (09 R183). -/
def vaddForm (f : FNum → FNum → FNum × BitVec 6) (g : Int → Int → Int) (s : State) (x : Act) (v : View) : Fired :=
  courseAnswer x <| do
    let a ← opA v
    let b ← opB v
    let q := a.q || b.q
    if nonZeroBcast v.r v.r.b b then
      let a ← recA s x v a
      return zipLanes v.r (tailOf a.l a.k q) a b f g
    else
      matchTails [a, b]
      return zipLanes v.r (tailOf a.l a.k q) a b f g

/-- VMUL (09 R183): rec on both when both have L > 0. -/
def vmulForm (s : State) (x : Act) (v : View) : Fired :=
  courseAnswer x <| do
    let a ← opA v
    let b ← opB v
    let q := a.q || b.q
    if 0 < a.l && 0 < b.l then
      let a ← recA s x v a
      let b ← recB s x v b
      return zipLanes v.r (recTail a b q) a b mulNum (· * ·)
    else return zipLanes v.r (scaleTail a b q) a b mulNum (· * ·)

/-- VFMA (09 R183). -/
def vfmaForm (_ : State) (x : Act) (v : View) : Fired :=
  courseAnswer x <| do
    let a ← opA v
    let b ← opB v
    let c ← readCourse v.r.ty (v.k x).bits
    if 0 < a.l && 0 < b.l then throw 5
    let pl := if a.l = 0 && 0 < b.l then b.l else a.l
    let pk := if a.l = 0 && 0 < b.l then b.k else a.k
    if (0 < pl || 0 < c.l) && (c.l ≠ pl || c.k ≠ pk) then throw 5
    let tail := tailOf pl pk (a.q || b.q || c.q)
    return laneResult v.r tail (a.flags ||| b.flags ||| c.flags) 0
      (((a.nums.zip b.nums).zip c.nums).map fun y => fmaNum 0 y.1.1 y.1.2 y.2)
      (((a.ints.zip b.ints).zip c.ints).map fun y => y.1.1 * y.1.2 + y.2)

/-- VMIN and VMAX (09 R183): rec. -/
def vminForm (f : FNum → FNum → FNum × BitVec 6) (g : Int → Int → Int) (s : State) (x : Act) (v : View) : Fired :=
  courseAnswer x <| do
    let a ← opA v
    let b ← opB v
    let a ← recA s x v a
    let b ← recB s x v b
    return zipLanes v.r (recTail a b (a.q || b.q)) a b f g

/-- VSCL: B is a scalar, binary32 for the float types (09 R184). -/
def vsclForm (_ : State) (x : Act) (v : View) : Fired :=
  courseAnswer x <| do
    let a ← opA v
    let sn := readFmt f32 (v.b.word.toNat % 2 ^ 32)
    let si := readInt v.r.ty v.b.word
    return laneResult v.r (tailOf a.l a.k a.q) a.flags 0 (a.nums.map fun y => mulNum y sn) (a.ints.map fun y => y * si)

/-- The raw lane of a truth value for a type: all ones or 0 for integers (09 R185). -/
def truthInt (b : Bool) : Int := if b then -1 else 0

/-- VCMP (09 R185). -/
def vcmpForm (s : State) (x : Act) (v : View) : Fired :=
  courseAnswer x <| do
    let a ← opA v
    let b ← opB v
    let coef := b.bcast && !(nonZeroBcast v.r v.r.b b)
    let a ← if coef then pure a else recA s x v a
    let b ← if coef then pure b else recB s x v b
    let fn := v.r.fn.toNat
    let tail := if coef then tailOf a.l a.k (a.q || b.q) else recTail a b (a.q || b.q)
    return laneResult { v.r with fn := 0 } tail (a.flags ||| b.flags) (a.recon + b.recon)
      ((a.nums.zip b.nums).map fun y => ((if (cmpNum fn y.1 y.2).1 then FNum.ofInt 1 else FNum.zero), (cmpNum fn y.1 y.2).2))
      ((a.ints.zip b.ints).map fun y => truthInt (condHolds fn (y.1 < y.2) (y.1 = y.2)))

/-- A broadcast converted once to raw lanes of the element format (09 R178). -/
def bcastRaw (r : Rec) (src : Src) : Nat × BitVec 6 :=
  let lit := bcastLit r src
  if r.ty.isInt then ((sextTo 64 lit).toNat % 2 ^ r.ty.width, noFlags)
  else if r.ty = .f32 then (lit.toNat, noFlags)
  else roundFmt (fmtOf r.ty) 0 (readFmt f32 lit.toNat)

/-- The raw lanes of an operand, a broadcast converted once. -/
def rawLanes (r : Rec) (src : Src) (o : COp) : List Nat × BitVec 6 :=
  if o.bcast then (List.replicate r.ty.count (bcastRaw r src).1, (bcastRaw r src).2) else (lanesRaw r.ty o.raw, noFlags)

/-- The items of two lists chosen by a list of truth values. -/
def pick3 {α : Type} (m : List Bool) (a b : List α) : List α :=
  ((m.zip a).zip b).map fun y => if y.1.1 then y.1.2 else y.2

/-- VSEL (09 R185): the mask is tK. -/
def vselForm (_ : State) (x : Act) (v : View) : Fired :=
  courseAnswer x <| do
    let a ← opA v
    let b ← opB v
    let m ← readCourse v.r.ty (v.k x).bits
    matchTails [a, b, m]
    let tail := tailOf a.l a.k (a.q || b.q || m.q)
    let mask : List Bool := (lanesRaw v.r.ty m.raw).map fun y => decide (y ≠ 0)
    if isTaper v.r.ty then
      let y := floatCourse v.r.ty tail (pick3 mask a.nums b.nums)
      return ⟨y.1, a.flags ||| b.flags ||| y.2, 0⟩
    else
      let y := rawLanes v.r v.r.b b
      return ⟨rawCourse v.r.ty 127 tail (pick3 mask (lanesRaw v.r.ty a.raw) y.1), y.2, 0⟩

/-- VBIT (09 R183, R186). -/
def vbitForm (_ : State) (x : Act) (v : View) : Fired :=
  courseAnswer x <| do
    let a ← opA v
    let b ← opB v
    matchTails [a, b]
    let f (y z : Nat) : Nat :=
      match v.r.fn.toNat with
      | 0 => y &&& z
      | 1 => y ||| z
      | _ => y ^^^ z
    return ⟨rawCourse v.r.ty 127 (tailOf a.l a.k (a.q || b.q))
      (((lanesRaw v.r.ty a.raw).zip (rawLanes v.r v.r.b b).1).map fun y => f y.1 y.2), noFlags, 0⟩

/-- The scale byte of a result that keeps its codes: A's for tapered types, else 127. -/
def keptScale (ty : Ty) (c : Course) : Nat := if isTaper ty then crsScale c else 127

/-- VSHF (09 R186). -/
def vshfForm (_ : State) (x : Act) (v : View) : Fired :=
  courseAnswer x <| do
    let a ← opA v
    let n := (slice v.r.lit 0 7).toNat
    let ls := lanesRaw v.r.ty a.raw
    let moved := (List.range v.r.ty.count).map fun i =>
      if v.r.fn = 0 then ls.getD (i + n) 0 else if i < n then 0 else ls.getD (i - n) 0
    return ⟨rawCourse v.r.ty (keptScale v.r.ty a.raw) (tailOf a.l a.k a.q) moved, noFlags, 0⟩

/-- VADD (09 R183). -/
def execVadd (r : Rec) (s : State) : Result State := fire .vadd r s (vaddForm (addNum 0) (· + ·))
/-- VSUB (09 R183). -/
def execVsub (r : Rec) (s : State) : Result State := fire .vsub r s (vaddForm (fun x y => addNum 0 x y.negate) (· - ·))
/-- VMUL (09 R183). -/
def execVmul (r : Rec) (s : State) : Result State := fire .vmul r s vmulForm
/-- VFMA (09 R183). -/
def execVfma (r : Rec) (s : State) : Result State := fire .vfma r s vfmaForm
/-- VMIN (09 R183). -/
def execVmin (r : Rec) (s : State) : Result State := fire .vmin r s (vminForm minNum fun x y => if x ≤ y then x else y)
/-- VMAX (09 R183). -/
def execVmax (r : Rec) (s : State) : Result State := fire .vmax r s (vminForm maxNum fun x y => if x ≤ y then y else x)
/-- VSCL (09 R184). -/
def execVscl (r : Rec) (s : State) : Result State := fire .vscl r s vsclForm
/-- VCMP (09 R185). -/
def execVcmp (r : Rec) (s : State) : Result State := fire .vcmp r s vcmpForm
/-- VSEL (09 R185). -/
def execVsel (r : Rec) (s : State) : Result State := fire .vsel r s vselForm
/-- VBIT (09 R186). -/
def execVbit (r : Rec) (s : State) : Result State := fire .vbit r s vbitForm
/-- VSHF (09 R186). -/
def execVshf (r : Rec) (s : State) : Result State := fire .vshf r s vshfForm

end Sys2Proof.Machine
end

