-- ==== Sys2Proof/Machine/Reduce.lean ====
section
/-! DEFINITION. The meanings of group 0x6: reduce, permute, convert and non-linear (09 R187 to R192). -/
namespace Sys2Proof.Machine

/-- The exact sum of numbers (09 R188): a NaN lane or infinities of both signs give NaN; nv is set by a signalling NaN (03 R55) and
wherever both infinities are among the terms, whatever stands beside them. -/
def sumNum (l : List FNum) : FNum × BitVec 6 :=
  let clash := (l.contains (.inf false)) && (l.contains (.inf true))
  if l.any (·.isNan) || clash then (.nan false, flagIf (clash || l.any (·.isSig)) flagNv)
  else
    match l with
    | [] => (FNum.zero, noFlags)
    | x :: t => t.foldl (fun acc y => let z := addNum 0 acc.1 y; (z.1, acc.2 ||| z.2)) (x, noFlags)

/-- A number delivered as a binary32 scalar (09 R188). -/
def f32Word (x : FNum) : Word × BitVec 6 :=
  let y := roundFmt f32 0 x
  (BitVec.ofNat 64 y.1, y.2)

/-- A reduction: of float lanes to binary32, of integer lanes to a word (09 R188). -/
def reduceTo (r : Rec) (o : COp) (f : List FNum → FNum × BitVec 6) (g : List Int → Word) : Word × BitVec 6 × Nat :=
  if r.ty.isInt then (g o.ints, noFlags, o.recon)
  else
    let x := f o.nums
    let y := f32Word x.1
    (y.1, o.flags ||| x.2 ||| y.2, o.recon)

/-- The sum of integers modulo 2^64. -/
def sumInts (l : List Int) : Word := BitVec.ofInt 64 (l.foldl (· + ·) 0)

/-- VSUM (09 R188). -/
def vsumForm (_ : State) (x : Act) (v : View) : Fired :=
  scalarAnswer x <| do
    let a ← opA v
    return reduceTo v.r a sumNum sumInts

/-- VDOT (09 R188): B is a course, since the form is not elementwise (R178); rec on both when both have L > 0. -/
def vdotForm (s : State) (x : Act) (v : View) : Fired :=
  scalarAnswer x <| do
    let a ← opA v
    let b ← readCourse v.r.ty v.b.bits
    let both := 0 < a.l && 0 < b.l
    let a ← if both then recA s x v a else pure a
    let b ← if both then recB s x v b else pure b
    let ps := (a.nums.zip b.nums).map fun y => mulNum y.1 y.2
    let o : COp := { a with nums := ps.map (·.1), ints := (a.ints.zip b.ints).map fun y => y.1 * y.2,
                            flags := a.flags ||| b.flags ||| ps.foldl (fun f y => f ||| y.2) noFlags,
                            recon := a.recon + b.recon }
    return reduceTo v.r o sumNum sumInts

/-- The greatest of numbers, +0 above -0 (09 R188). -/
def maxNums (l : List FNum) : FNum × BitVec 6 :=
  match l with
  | [] => (FNum.zero, noFlags)
  | x :: t => t.foldl (fun acc y => let z := maxNum acc.1 y; (z.1, acc.2 ||| z.2)) (x, flagIf x.isSig flagNv)

/-- VRMAX (09 R188). -/
def vrmaxForm (s : State) (x : Act) (v : View) : Fired :=
  scalarAnswer x <| do
    let a ← opA v
    let a ← recA s x v a
    return reduceTo v.r a maxNums fun l => extInt v.r.ty (l.foldl (fun m y => if m ≤ y then y else m) (l.headD 0))

/-- VPERM: B is an I8 course that R48 does not judge, its tail ignored (09 R189). -/
def vpermForm (_ : State) (x : Act) (v : View) : Fired :=
  courseAnswer x <| do
    let a ← opA v
    if crsFmt v.b.bits ≠ 0x01 then throw 3
    let ls := lanesRaw v.r.ty a.raw
    let idx (i : Nat) : Nat := (slice v.b.bits (16 + 8 * i) 8).toNat
    let moved := (List.range v.r.ty.count).map fun i => ls.getD (idx i) 0
    return ⟨rawCourse v.r.ty (keptScale v.r.ty a.raw) (tailOf a.l a.k a.q) moved, noFlags, 0⟩

/-- The binary32 value of a word (09 R189). -/
def insertedNum (w : Word) : FNum := readFmt f32 (w.toNat % 2 ^ 32)

/-- VBCST (09 R189): a subnormal lane flushes (03 R56). -/
def vbcstForm (_ : State) (x : Act) (v : View) : Fired :=
  courseAnswer x <|
    let t := v.r.ty
    let m := v.a.word.toNat % 2 ^ t.width
    if t.isInt then .ok ⟨rawCourse t 127 0 (List.replicate t.count m), noFlags, 0⟩
    else if isTaper t then
      let y := floatCourse t 0 (List.replicate t.count (insertedNum v.a.word))
      .ok ⟨y.1, y.2, 0⟩
    else
      let y := flushOut (fmtOf t) (m, noFlags)
      .ok ⟨rawCourse t 127 0 (List.replicate t.count y.1), y.2, 0⟩

/-- VEXT (09 R189). -/
def vextForm (_ : State) (x : Act) (v : View) : Fired :=
  scalarAnswer x <| do
    let a ← opA v
    let i := (slice v.r.lit 0 7).toNat
    let m := laneRaw v.r.ty.width a.raw i
    if isTaper v.r.ty then
      let y := laneNum v.r.ty a.raw i
      return ((f32Word y.1).1, a.flags, 0)
    else if v.r.ty.isInt then return (extInt v.r.ty m, noFlags, 0)
    else return (BitVec.ofNat 64 m, noFlags, 0)

/-- VINS (09 R189): a tapered course is encoded afresh, with Q set. -/
def vinsForm (_ : State) (x : Act) (v : View) : Fired :=
  courseAnswer x <| do
    let a ← opA v
    let i := (slice v.r.lit 0 7).toNat
    if isTaper v.r.ty then
      let y := floatCourse v.r.ty (tailOf a.l a.k true) (modAt a.nums i fun _ => insertedNum v.b.word)
      return ⟨y.1, a.flags ||| y.2, 0⟩
    else
      return ⟨rawCourse v.r.ty 127 (tailOf a.l a.k a.q)
        (modAt (lanesRaw v.r.ty a.raw) i fun _ => v.b.word.toNat % 2 ^ v.r.ty.width), noFlags, 0⟩

/-! ### Quantising and conversion (09 R190, R191) -/

/-- One draw of a generator: the next state and the 16 bits drawn (03 R58). -/
def xsDraw (x : BitVec 32) : BitVec 32 × Nat :=
  let x := x ^^^ (x <<< 13)
  let x := x ^^^ (x >>> 17)
  let x := x ^^^ (x <<< 5)
  (x, (slice x 16 16).toNat)

/-- n draws of a generator: the last state and the draws in order. -/
def xsDraws (n : Nat) (x : BitVec 32) : BitVec 32 × List Nat :=
  match n with
  | 0 => (x, [])
  | k + 1 =>
    let y := xsDraw x
    let z := xsDraws k y.1
    (z.1, y.2 :: z.2)

/-- A number rounded stochastically to a format (03 R58); beyond the largest finite value it overflows (log 26). -/
def roundDraw (f : Fmt) (u : Nat) (x : FNum) : Nat × BitVec 6 :=
  match x with
  | .fin neg m e =>
    if m = 0 then roundFmt f 0 x
    else
      let ex := (Nat.log2 m : Int) + e
      let q := max (ex - f.fb) (f.emin - f.fb)
      let (lo, rem, d) := shiftTo m e q
      if rem = 0 then roundFmt f 0 x
      else
        let up := 65536 ≤ rem * 65536 / 2 ^ d + u
        let y := roundFmt f 0 (.fin neg (if up then lo + 1 else lo) q)
        (y.1, y.2 ||| flagNx)
  | y => roundFmt f 0 y

/-- How the lanes of an instruction round: by a direction, or by draws (09 R191). -/
def laneRoundings (fn n : Nat) (draws : List Nat) : List Rounding :=
  if fn = 4 then draws.map .draw else List.replicate n (.dir fn)

/-- A number rounded into an IEEE format and flushed. -/
def roundBy (f : Fmt) (rd : Rounding) (x : FNum) : Nat × BitVec 6 :=
  match rd with
  | .dir rm => flushOut f (roundFmt f rm x)
  | .draw u => flushOut f (roundDraw f u x)

/-- Numbers rounded into a course of a float type (09 R190, R191). -/
def quantCourse (ty : Ty) (tail : BitVec 16) (rds : List Rounding) (l : List FNum) : Course × BitVec 6 :=
  if isTaper ty then
    let y := taperLanes ty.width rds l
    (mkCourse (fmtCode ty) y.1 tail ty.width y.2.1, y.2.2)
  else
    let xs := (l.zip rds).map fun x => roundBy (fmtOf ty) x.2 x.1
    (mkCourse (fmtCode ty) 127 tail ty.width (xs.map (·.1)), orFlags xs)

/-- VQNT (09 R191): the generator's draws advance in the activation and reach the element at commit. -/
def vqntForm (_ : State) (x : Act) (v : View) : Fired :=
  let n := v.r.ty.count
  let dr := xsDraws n x.rng
  let x' := if v.r.fn = 4 then { x with rng := dr.1 } else x
  courseAnswer x' <| do
    let a ← opA v
    let b := readFmt f32 (v.b.word.toNat % 2 ^ 32)
    let ps := a.nums.map fun y => mulNum y b
    let y := quantCourse v.r.ty (tailOf a.l a.k true) (laneRoundings v.r.fn.toNat n dr.2) (ps.map (·.1))
    return ⟨y.1, a.flags ||| ps.foldl (fun f z => f ||| z.2) noFlags ||| y.2, 0⟩

/-- The entries of a ring from an offset that record j reads, or the answer that stops it. -/
def ringEntries (x : Ctx) (a : Act) (j q off n : Nat) : Except RingAnswer (List Course) :=
  (List.range n).mapM fun i =>
    match ringRead x a j q (off + i) with
    | .val v => .ok v.bits
    | y => .error y

/-- The answer where a ring read or write is out of its window or must wait. -/
def ringStop (y : RingAnswer) (q : Nat) : Fired :=
  match y with
  | .wait => .wait
  | .reserved => .fault 4 15 q 0
  | _ => .fault 6 14 q 0

/-- Courses written to ring dq from offset doff, with the count for D0 (09 R182). -/
def ringWrites (s : State) (a : Act) (v : View) (dq doff : Nat) (fl : BitVec 6) (count : Nat) (cs : List Course) : Fired :=
  match ringSpot (s.ctx v.c) a v.j dq doff cs.length with
  | .wait => .wait
  | .breach => .fault 6 14 dq 0
  | .at_ n =>
    let ws := cs.zipIdx.map fun x => (⟨v.j, dq, n + x.2, Val.ofCourse x.1⟩ : RingWrite)
    .done { a with rwrites := a.rwrites ++ ws } fl (some (Val.ofNat count)) none

/-- The ring, offset and target fields of VCVT, HFWD and HINV (09 R182). -/
def ringMove (r : Rec) : Nat × Nat × Nat × Nat :=
  ((slice r.ax 0 4).toNat, (slice r.ax 8 5).toNat, (slice r.lit 0 4).toNat, (slice r.lit 4 5).toNat)

/-- Elements converted into one course of a type (09 R190). -/
def convertCourse (ty : Ty) (fromInt : Bool) (rm : Nat) (tail : BitVec 16) (nums : List FNum) (ints : List Int) :
    Course × BitVec 6 :=
  if ty.isInt then
    let xs := if fromInt then ints.map (intResult ty true)
      else nums.map fun x => let y := numToInt rm (intMin ty) (intMax ty) x; (extInt ty y.1, y.2)
    (rawCourse ty 127 tail (xs.map fun x => x.1.toNat % 2 ^ ty.width), xs.foldl (fun f x => f ||| x.2) noFlags)
  else
    let rds := List.replicate ty.count (Rounding.dir rm)
    if fromInt then
      if isTaper ty then
        let xs := ints.map fun i => flushOut f32 (roundFmt f32 rm (FNum.ofInt i))
        let y := quantCourse ty tail rds (xs.map fun x => readFmt f32 x.1)
        (y.1, orFlags xs ||| y.2)
      else quantCourse ty tail rds (ints.map FNum.ofInt)
    else quantCourse ty tail rds nums

/-- VCVT (09 R190). -/
def vcvtForm (s : State) (a : Act) (v : View) : Fired :=
  let (q, off, dq, doff) := ringMove v.r
  let src := (Ty.ofCode (slice v.r.lit 9 4)).getD .f32
  let g := Nat.lcm src.count v.r.ty.count
  match ringEntries (s.ctx v.c) a v.j q off (g / src.count) with
  | .error y => ringStop y q
  | .ok cs =>
    match cs.mapM (readCourse src) with
    | .error k => .fault 4 k 0 0
    | .ok os =>
      let same := src.count = v.r.ty.count
      if !same && (os.any fun o => 0 < o.l) then .fault 4 5 0 0
      else
        let nums := os.flatMap (·.nums)
        let ints := os.flatMap (·.ints)
        let nd := v.r.ty.count
        let outs := (List.range (g / nd)).map fun c =>
          let o := os.getD c default
          convertCourse v.r.ty src.isInt (slice v.r.fn 0 2).toNat (if same then tailOf o.l o.k false else 0)
            ((nums.drop (c * nd)).take nd) ((ints.drop (c * nd)).take nd)
        ringWrites s a v dq doff (os.foldl (fun f o => f ||| o.flags) noFlags ||| outs.foldl (fun f o => f ||| o.2) noFlags)
          outs.length (outs.map (·.1))

/-- A non-linear form: each lane one RNE rounding to binary32, flushed, then narrowed (09 R192). -/
def nonLinear (f : FNum → FNum × BitVec 6) (s : State) (x : Act) (v : View) : Fired :=
  courseAnswer x <| do
    let a ← opA v
    let a ← recA s x v a
    let ys := a.nums.map f
    let rs := ys.map fun y => laneFmt f32 y.1
    let z := narrowCourse v.r.ty (tailOf 0 a.k a.q) (rs.map (·.1))
    return ⟨z.1, a.flags ||| ys.foldl (fun f y => f ||| y.2) noFlags ||| orFlags rs ||| z.2, a.recon⟩

/-- The function of VACT (09 R192). -/
def actFun (fn : Nat) : FNum → FNum × BitVec 6 :=
  match fn with
  | 0 => reluNum
  | 1 => geluNum
  | 2 => siluNum
  | 3 => tanhNum
  | _ => sigmoidNum

/-- VSUM (09 R188). -/
def execVsum (r : Rec) (s : State) : Result State := fire .vsum r s vsumForm
/-- VDOT (09 R188). -/
def execVdot (r : Rec) (s : State) : Result State := fire .vdot r s vdotForm
/-- VRMAX (09 R188). -/
def execVrmax (r : Rec) (s : State) : Result State := fire .vrmax r s vrmaxForm
/-- VPERM (09 R189). -/
def execVperm (r : Rec) (s : State) : Result State := fire .vperm r s vpermForm
/-- VBCST (09 R189). -/
def execVbcst (r : Rec) (s : State) : Result State := fire .vbcst r s vbcstForm
/-- VEXT (09 R189). -/
def execVext (r : Rec) (s : State) : Result State := fire .vext r s vextForm
/-- VINS (09 R189). -/
def execVins (r : Rec) (s : State) : Result State := fire .vins r s vinsForm
/-- VCVT (09 R190). -/
def execVcvt (r : Rec) (s : State) : Result State := fire .vcvt r s vcvtForm
/-- VQNT (09 R191). -/
def execVqnt (r : Rec) (s : State) : Result State := fire .vqnt r s vqntForm
/-- VEXP (09 R192). -/
def execVexp (r : Rec) (s : State) : Result State := fire .vexp r s (nonLinear expNum)
/-- VLN (09 R192). -/
def execVln (r : Rec) (s : State) : Result State := fire .vln r s (nonLinear lnNum)
/-- VRCP (09 R192). -/
def execVrcp (r : Rec) (s : State) : Result State := fire .vrcp r s (nonLinear fun x => divNum (FNum.ofInt 1) x)
/-- VRSQ (09 R192). -/
def execVrsq (r : Rec) (s : State) : Result State := fire .vrsq r s (nonLinear rsqNum)
/-- VACT (09 R192). -/
def execVact (r : Rec) (s : State) : Result State := fire .vact r s fun t x v => nonLinear (actFun v.r.fn.toNat) t x v

end Sys2Proof.Machine
end

