-- ==== Sys2Proof/Machine/Caps.lean ====
section
/-! DEFINITION. Capabilities: fields, bounds, the access check, and the meanings of group 0x3 (08 R158 to R168). -/
namespace Sys2Proof.Machine

/-- The off that cursor x needs (08 R160). -/
def capPlace (p : Pair) (x : Nat) : Int := (x / 2 ^ capExp p : Nat) - (capBase p / 2 ^ capExp p : Nat)

/-- A cursor is representable in a capability (08 R160). -/
def capHolds (p : Pair) (x : Nat) : Bool := capExp p ≤ 61 && decide (0 ≤ capPlace p x) && decide (capPlace p x ≤ 4095)

/-- ceil(a / b). -/
def ceilDiv (a b : Nat) : Nat := (a + b - 1) / b

/-- The least exponent from e upwards that holds bounds [b, t) (08 R161). -/
def capExpFor (fuel b t e : Nat) : Nat :=
  match fuel with
  | 0 => e
  | n + 1 => if ceilDiv t (2 ^ e) - b / 2 ^ e ≤ 4095 then e else capExpFor n b t (e + 1)

/-- The exponent, base and top that bounds [b, t) encode to (08 R161). -/
def capEncode (b t : Nat) : Nat × Nat × Nat :=
  let e := capExpFor 61 b t 0
  (e, b / 2 ^ e * 2 ^ e, ceilDiv t (2 ^ e) * 2 ^ e)

/-- Permission bits (08 R159). -/
def permLoad : Nat := 0x001
/-- store -/
def permStore : Nat := 0x002
/-- load-cap -/
def permLoadCap : Nat := 0x004
/-- store-cap -/
def permStoreCap : Nat := 0x008
/-- fetch-block -/
def permFetch : Nat := 0x010
/-- atomic -/
def permAtomic : Nat := 0x020
/-- demand -/
def permDemand : Nat := 0x040
/-- global -/
def permGlobal : Nat := 0x200
/-- system -/
def permSystem : Nat := 0x400
/-- migrate -/
def permMigrate : Nat := 0x800

/-- A capability holds a permission set. -/
def capHasPerm (p : Pair) (q : Nat) : Bool := capPerm p &&& BitVec.ofNat 12 q = BitVec.ofNat 12 q

/-- The size of a context's scratchpad partition in a bay (10 R202). -/
def Ctx.scratch (x : Ctx) : Nat := (slice x.part 24 8).toNat * 32768

/-- The access check of n bytes at x under a capability (08 R164): the code of the first failing check; 99 where it passes.
spaces is the set of space codes that the use admits, limit the size of the scratchpad. -/
def capAccess (p : Pair) (tagged : Bool) (spaces : BitVec 8) (q : Nat) (x n limit : Nat) : Nat :=
  if !tagged then 1
  else if capOtype p ≠ 0 then 2
  else if 5 < capSpace p || !(bit spaces (capSpace p)) then 9
  else if !(capHasPerm p q) then 5
  else if x < capBase p || capTop p < x + n || (capSpace p = 1 && decide (limit < x + n)) then 8
  else 99

/-- The result of a form of group 0x3 (08 R165): a capability fault that reports a cursor, or a pair and its tag. -/
inductive CapAnswer where
  | fault (code cursor : Nat) | pair (p : Pair) (tagged : Bool)
  deriving DecidableEq, Repr, Inhabited

/-- A capability form that computes from A and B read as pairs (08 R165). -/
def capForm (f : Rec → Pair → Bool → Pair → Bool → CapAnswer) (_ : State) (a : Act) (v : View) : Fired :=
  match f v.r v.a.pair v.a.tagged v.b.pair v.b.tagged with
  | .fault k x => .fault 2 k 0 x
  | .pair p t => give a noFlags (Val.ofPair p t)

/-- CGETF: one field of a capability (08 R165). -/
def capField (r : Rec) (p : Pair) (t : Bool) (_ : Pair) (_ : Bool) : CapAnswer :=
  let n := match r.fn.toNat with
    | 0 => capCursor p
    | 1 => capBase p
    | 2 => capTop p
    | 3 => capTop p - capBase p
    | 4 => (capPerm p).toNat
    | 5 => capOtype p
    | 6 => capSpace p
    | _ => if t then 1 else 0
  .pair (BitVec.ofNat 128 n) false

/-- CSETB: narrowed bounds (08 R166). -/
def capSetBounds (r : Rec) (p : Pair) (t : Bool) (q : Pair) (_ : Bool) : CapAnswer :=
  let nb := capCursor p
  let nt := nb + (slice q 0 73).toNat
  let e := capEncode nb nt
  if !t then .fault 1 nb
  else if capOtype p ≠ 0 then .fault 2 nb
  else if decide (2 ^ 72 < nt) || decide (nb < capBase p) || decide (capTop p < nt) then .fault 3 nb
  else if r.fn = 0 && (e.2.1 ≠ nb || e.2.2 ≠ nt) then .fault 4 nb
  else if decide (e.2.1 < capBase p) || decide (capTop p < e.2.2) then .fault 3 nb
  else .pair (capOf (capPerm p) (capSpace p) (capOtype p) e.1 ((e.2.2 - e.2.1) / 2 ^ e.1) 0 nb) true

/-- A cursor moved to x by CINC or CSETC (08 R165). -/
def capToCursor (p : Pair) (t : Bool) (x : Nat) : CapAnswer :=
  if t && capOtype p ≠ 0 then .fault 2 (capCursor p)
  else if t && capHolds p x then .pair (capMove p (capPlace p x).toNat x) true
  else .pair (capMove p (capOff p) x) false

/-- CINC. -/
def capInc (_ : Rec) (p : Pair) (t : Bool) (q : Pair) (_ : Bool) : CapAnswer :=
  capToCursor p t (((capCursor p : Int) + (slice q 0 64).toInt) % 2 ^ 72).toNat

/-- CSETC. -/
def capSetCursor (_ : Rec) (p : Pair) (t : Bool) (q : Pair) (_ : Bool) : CapAnswer := capToCursor p t (slice q 0 72).toNat

/-- CPERM. -/
def capMask (_ : Rec) (p : Pair) (t : Bool) (q : Pair) (_ : Bool) : CapAnswer :=
  if !t then .fault 1 (capCursor p)
  else if capOtype p ≠ 0 then .fault 2 (capCursor p)
  else .pair ((capPerm p &&& slice q 0 12) ++ slice p 0 116) true

/-- A capability with its object type replaced. -/
def capTyped (p : Pair) (perm : BitVec 12) (o : Nat) : Pair :=
  perm ++ slice p 112 4 ++ BitVec.ofNat 8 o ++ slice p 0 104

/-- The check of an authority (08 R167): tagged, unsealed, with a permission, its cursor within its bounds. -/
def authority (q : Pair) (u : Bool) (perm : Nat) : Nat :=
  if !u then 1
  else if capOtype q ≠ 0 then 2
  else if !(capHasPerm q perm) then 5
  else if capCursor q < capBase q || capTop q ≤ capCursor q then 8
  else 99

/-- CSEAL (08 R165, R167). -/
def capSeal (_ : Rec) (p : Pair) (t : Bool) (q : Pair) (u : Bool) : CapAnswer :=
  if !t then .fault 1 (capCursor p)
  else if capOtype p ≠ 0 then .fault 2 (capCursor p)
  else
    let k := authority q u 0x080
    if k ≠ 99 then .fault k (capCursor q)
    else if capCursor q < 1 || 255 < capCursor q then .fault 6 (capCursor q)
    else .pair (capTyped p (capPerm p) (capCursor q)) true

/-- CUNSEAL (08 R165, R167). -/
def capUnseal (_ : Rec) (p : Pair) (t : Bool) (q : Pair) (u : Bool) : CapAnswer :=
  if !t then .fault 1 (capCursor p)
  else if capOtype p = 0 then .fault 2 (capCursor p)
  else
    let k := authority q u 0x100
    if k ≠ 99 then .fault k (capCursor q)
    else if capCursor q ≠ capOtype p then .fault 6 (capCursor q)
    else .pair (capTyped p (if capHasPerm q permGlobal then capPerm p else capPerm p &&& ~~~0x200#12) 0) true

/-- CTAG: tests or clears the tag (08 R165). -/
def capTag (r : Rec) (p : Pair) (t : Bool) (_ : Pair) (_ : Bool) : CapAnswer :=
  if r.fn = 0 then .pair (if t then 1 else 0) false else .pair p false

/-- CDIFF: the exact signed difference of the cursors (08 R165). -/
def capDiff (_ : Rec) (p : Pair) (_ : Bool) (q : Pair) (_ : Bool) : CapAnswer :=
  .pair (BitVec.ofInt 128 ((capCursor p : Int) - capCursor q)) false

/-- CDERIV (08 R168). -/
def capDerive (_ : Rec) (p : Pair) (_ : Bool) (_ : Pair) (_ : Bool) : CapAnswer :=
  if slice p 102 2 ≠ 0 || decide (61 < capExp p) then .fault 7 (capCursor p)
  else if 5 < capSpace p then .fault 9 (capCursor p)
  else .pair p true

/-- CGETF (08 R165). -/
def execCgetf (r : Rec) (s : State) : Result State := fire .cgetf r s (capForm capField)
/-- CSETB (08 R166). -/
def execCsetb (r : Rec) (s : State) : Result State := fire .csetb r s (capForm capSetBounds)
/-- CINC (08 R165). -/
def execCinc (r : Rec) (s : State) : Result State := fire .cinc r s (capForm capInc)
/-- CSETC (08 R165). -/
def execCsetc (r : Rec) (s : State) : Result State := fire .csetc r s (capForm capSetCursor)
/-- CPERM (08 R165). -/
def execCperm (r : Rec) (s : State) : Result State := fire .cperm r s (capForm capMask)
/-- CSEAL (08 R167). -/
def execCseal (r : Rec) (s : State) : Result State := fire .cseal r s (capForm capSeal)
/-- CUNSEAL (08 R167). -/
def execCunseal (r : Rec) (s : State) : Result State := fire .cunseal r s (capForm capUnseal)
/-- CTAG (08 R165). -/
def execCtag (r : Rec) (s : State) : Result State := fire .ctag r s (capForm capTag)
/-- CDIFF (08 R165). -/
def execCdiff (r : Rec) (s : State) : Result State := fire .cdiff r s (capForm capDiff)
/-- CDERIV (08 R168). -/
def execCderiv (r : Rec) (s : State) : Result State := fire .cderiv r s (capForm capDerive)

end Sys2Proof.Machine
end

