-- ==== Sys2Proof/Machine/Translate.lean ====
section
/-! DEFINITION. Translation: the walk, its checks, the tiers, and what a request has translated (10 R204 to R209; 20 R358). -/
namespace Sys2Proof.Machine

/-! ### Page table entries (10 R205) -/

/-- valid -/
def pteValid (w : Word) : Bool := bit w 0
/-- leaf -/
def pteLeaf (w : Word) : Bool := bit w 1
/-- typed -/
def pteTyped (w : Word) : Bool := bit w 2
/-- cmp -/
def pteCmp (w : Word) : Bool := bit w 3
/-- moving -/
def pteMoving (w : Word) : Bool := bit w 4
/-- tier -/
def pteTier (w : Word) : Nat := (slice w 5 2).toNat
/-- global -/
def pteGlobal (w : Word) : Bool := bit w 7
/-- The physical address of the page or of the next table. -/
def ptePa (w : Word) : Nat := (slice w 12 44).toNat * 4096

/-! ### Structure state and bytes (10 R219, R220) -/

/-- The structure state of the aligned word that holds a key, none where space 2 has never used it. -/
def State.struct? (s : State) (key : Nat) : Option StructState := (s.net.structs.find? fun x => x.1 = key / 8 * 8).map (·.2)

/-- A byte as a space 0 load sees it: in a word that space 2 has used the stored bits when it is full and zero otherwise, in every other
the stored bits (R220; log 73, DEDUCED). -/
def State.byteAt (s : State) (key : Nat) : Byte :=
  match s.struct? key with
  | some (.deferred _) | some .empty => 0
  | _ => Memory.get s.mem key

/-- The little-endian number of n bytes from a key. -/
def State.numAt (s : State) (key n : Nat) : Nat := bytesNat ((span key n).map s.byteAt)

/-- The word of HBM at a physical address; of an address above HBM the low bits (log 164). -/
def State.wordAt (s : State) (pa : Nat) : Word := BitVec.ofNat 64 (s.numAt (hbmKey pa) 8)

/-! ### The walk (10 R204, R206) -/

/-- What a walk finds: the page, and the address of its entry. -/
structure Walk where
  page : Page
  pte  : Nat
  deriving DecidableEq, Repr, Inhabited

/-- The index of a virtual address at a level. -/
def vaIndex (level va : Nat) : Nat := if level = 5 then va / 2 ^ 57 % 32768 else va / 2 ^ (12 + 9 * level) % 512

/-- The bytes that a leaf of a level maps. -/
def levelSize (level : Nat) : Nat := 2 ^ (12 + 9 * level)

/-- A leaf is malformed at a level: too high, misaligned, compressed but untyped, or moving and compressed where MIGR moves
nothing. -/
def leafBad (s : State) (level pte : Nat) (e : Word) : Bool :=
  decide (3 ≤ level) || decide (ptePa e % levelSize level ≠ 0) || (pteCmp e && !(pteTyped e)) ||
  (pteMoving e && pteCmp e && !(s.net.migs.any fun m => m.pte = pte))

/-- The walk from a table at a level: the page, or a code of class translation. -/
def walkFrom (s : State) (va table level : Nat) : Except Nat Walk :=
  let pte := table + 8 * vaIndex level va
  let e := s.wordAt pte
  if !(pteValid e) then .error 1
  else if pteLeaf e then
    if leafBad s level pte e then .error 3
    else .ok ⟨⟨va / levelSize level * levelSize level, levelSize level, e⟩, pte⟩
  else if slice e 2 10 ≠ 0 then .error 3
  else match level with
    | 0 => .error 3
    | n + 1 => walkFrom s va (ptePa e) n

/-- The walk of an ASID (10 R204). -/
def walk (s : State) (asid : BitVec 16) (va : Nat) : Except Nat Walk :=
  let e := s.wordAt (s.net.asidTab + 8 * asid.toNat)
  if !(pteValid e) then .error 1 else walkFrom s va (ptePa e) 5

/-- What an access asks of its leaf (10 R206). -/
inductive Need where
  | load | store | fetch | atomic
  deriving DecidableEq, Repr, Inhabited

/-- A leaf permits an access. -/
def pteAllows (e : Word) (n : Need) : Bool :=
  match n with
  | .load => bit e 8
  | .store => bit e 9
  | .fetch => bit e 10
  | .atomic => bit e 8 && bit e 9 && bit e 11

/-- A physical address lies in the range of its tier (10 R208). -/
def inRange (tier pa : Nat) : Bool :=
  match tier with
  | 0 => decide (pa < 2 ^ 39) && decide (pa % 2 ^ 36 / 4096 < Config.range)
  | 1 => decide (pa < 2 ^ 41)
  | _ => true

/-- The physical address of a virtual one in a page. -/
def Page.pa (p : Page) (va : Nat) : Nat := ptePa p.leaf + (va - p.va)

/-- A page holds a virtual address. -/
def Page.covers (p : Page) (va : Nat) : Bool := decide (p.va ≤ va) && decide (va < p.va + p.size)

/-- A page meets a range of virtual addresses. -/
def Page.meets (p : Page) (va n : Nat) : Bool := rangesMeet (p.va, p.size) (va, n)

/-- An access of an ASID through a page meets what an invalidation names (20 R358). -/
def Page.named (p : Page) (own asid : BitVec 16) (va n : Nat) : Bool := (own = asid || pteGlobal p.leaf) && p.meets va n

/-- The code of a leaf for an access (10 R206, R219); 99 where it passes. -/
def leafCode (p : Page) (va space : Nat) (n : Need) : Nat :=
  firstCode
    [ (!(pteAllows p.leaf n), 2),
      (!(inRange (pteTier p.leaf) (p.pa va)), 4),
      (space = 2 && (pteTier p.leaf ≠ 0 || pteTyped p.leaf), 5) ]

/-! ### What a request has translated (10 R207; 20 R358) -/

/-- A port's cached page for a virtual address, which it uses until an invalidation drops it (log 158). -/
def State.cached (s : State) (port : PortId) (asid : BitVec 16) (va : Nat) : Option Page :=
  (s.net.cache.find? fun c => c.port = port && (c.asid = asid || pteGlobal c.page.leaf) && c.page.covers va).map (·.page)

/-- The page of a request at a virtual address: taken already, or in its port's cache. -/
def State.pageOf (s : State) (q : Req) (va : Nat) : Option Page :=
  match q.trans.find? fun p => p.covers va with
  | some p => some p
  | none => s.cached q.port q.asid va

/-- The bytes that stored data spans. -/
def StoreData.size (d : StoreData) : Nat :=
  match d with
  | .bytes l | .area l | .packed l => l.length
  | .course _ | .narrow _ | .masked _ _ _ => 64
  | .pair _ _ => 16
  | .scalar ty _ => tySize ty

/-- The bytes that a request spans from its address. -/
def ReqKind.size (k : ReqKind) : Nat :=
  match k with
  | .load n _ | .engineRead _ _ n => n
  | .image _ _ _ => 256
  | .engineMap _ _ => 4096
  | .engineWords _ n => n
  | .store d => d.size
  | .atomic _ ty _ _ c _ => if c.isSome then 64 else tySize ty
  | .kvlen _ n _ => 8 * (n + 2)
  | .acquire _ | .release => 8
  | .kvapp _ vs => 64 * vs.length
  | .gather _ _ | .genLoad _ _ _ | .genStore _ _ _ | .engineTile _ _ => 64
  | .engineStop _ | .matrixStop _ | .chunkStop _ _ => 0

/-- What a request asks of its leaves. -/
def ReqKind.need (k : ReqKind) : Need :=
  match k with
  | .store _ | .genStore _ _ _ => .store
  | .atomic _ _ _ _ _ _ | .release | .kvapp _ _ | .kvlen _ _ _ => .atomic
  | _ => .load

/-- The lanes of an index course that a gather or scatter does not skip: lane and address (11 R246). -/
def indexLanes (ty : Ty) (base : Nat) (idx : Course) : List (Nat × Nat) :=
  (List.range ty.count).filterMap fun i =>
    let v := (BitVec.ofNat 32 (laneRaw 32 idx i)).toInt
    if v = -2147483648 then none
    else some (i, (((base : Int) + v * (ty.width / 8 : Nat)) % 2 ^ 72).toNat)

/-- One address in each 4 KiB that n bytes from an address touch. -/
def granuleVas (addr n : Nat) : List Nat :=
  addr :: (List.range (if n = 0 then 0 else (addr + n - 1) / 4096 - addr / 4096)).map fun i => (addr / 4096 + 1 + i) * 4096

/-- The addresses at which a request needs a page. -/
def Req.vas (q : Req) : List Nat :=
  match q.kind with
  | .gather ty idx => (indexLanes ty q.addr idx).map (·.2)
  | .image _ _ _ | .engineStop _ | .matrixStop _ | .chunkStop _ _ => []
  | k => granuleVas q.addr k.size

/-- A space that translates (10 R203). -/
def translates (space : Nat) : Bool := space = 0 || space = 2

/-- The first address of a request that has no page yet, or whose page refuses it with a code. -/
def State.firstMiss (s : State) (q : Req) : Option (Nat × Option Nat) :=
  if !(translates q.space) then none
  else q.vas.findSome? fun va =>
    match s.pageOf q va with
    | none => some (va, none)
    | some p => let k := leafCode p va q.space q.kind.need
                if k = 99 then none else some (va, some k)

/-- Every page of a request is there and admits it. -/
def State.translated (s : State) (q : Req) : Bool := (s.firstMiss q).isNone

/-- A request with the pages that it would use now taken for good. -/
def State.takePages (s : State) (q : Req) : Req :=
  { q with trans := q.trans ++ (q.vas.filterMap fun va =>
      if q.trans.any fun p => p.covers va then none else s.cached q.port q.asid va) }

/-- The range that a TLBI names: every page of the ASID where all is set (20 R358). -/
def Tlbi.range (t : Tlbi) : Nat × Nat := if t.all then (0, 2 ^ 72) else (t.page * 4096, t.count * 4096)

/-- Where a byte of a request stands: HBM, Undercroft, host, peer by leaf, or the pool. -/
structure Spot where
  tier  : Nat
  pa    : Nat
  key   : Nat
  typed : Bool
  deriving DecidableEq, Repr, Inhabited

/-- The tier number of the pool. -/
def poolTier : Nat := 4

/-- A page's spot at a virtual address. -/
def Page.spot (p : Page) (va : Nat) : Spot :=
  let pa := p.pa va
  ⟨pteTier p.leaf, pa, if pteTier p.leaf = 0 then hbmKey pa else croftKey pa, pteTyped p.leaf⟩

/-- Where a byte of a request stands; none in spaces 3 and 4. -/
def State.spot (s : State) (q : Req) (va : Nat) : Option Spot :=
  if q.space = 1 then some ⟨poolTier, va, scratchKey q.load_ (unitBay q.unit) va, false⟩
  else if translates q.space then (s.pageOf q va).map fun p => p.spot va
  else none

/-- Where a byte of a request will stand as the tables are now, its pages taken or not (17 R309). -/
def State.spotNow (s : State) (q : Req) (va : Nat) : Option Spot :=
  match s.spot q va with
  | some x => some x
  | none =>
    if !(translates q.space) then none
    else match walk s q.asid va with
      | .ok w => some (w.page.spot va)
      | .error _ => none

/-- A spot inside the device. -/
def Spot.inside (x : Spot) : Bool := x.tier = 0 || x.tier = 1 || x.tier = poolTier

/-- The page under a request's first byte is typed. -/
def State.typedAt (s : State) (q : Req) (va : Nat) : Bool := ((s.spot q va).map (·.typed)).getD false

/-- Every page of a request is typed. -/
def State.allTyped (s : State) (q : Req) : Bool := q.vas.all fun va => s.typedAt q va

/-- What an agent outside must answer for a request: its space is 3 or 4, or a leaf is of the host or a peer (10 R208;
18 R327, R334). -/
def State.outside (s : State) (q : Req) : Bool :=
  q.space = 3 || q.space = 4 ||
  (translates q.space && q.vas.any fun va => ((s.spot q va).map fun x => !x.inside).getD false)

/-- The message by which an access to a spot outside leaves the package (10 R208). -/
def Spot.message (x : Spot) (k : ReqKind) : OutMsg :=
  if x.tier = 3 then .space3 (x.pa / 2 ^ 34) (x.pa % 2 ^ 34) k else .space4 x.pa k

/-- The message by which a request leaves the package. -/
def State.outMsg (s : State) (q : Req) : OutMsg :=
  if q.space = 3 then .space3 (q.addr / 2 ^ 50) (q.addr % 2 ^ 50) q.kind
  else if q.space = 4 then .space4 q.addr q.kind
  else match s.spot q q.addr with
    | some x => x.message q.kind
    | none => .space4 q.addr q.kind

/-- The port that the tables name for a device (18 R333). -/
def State.routePort (s : State) (dst : Nat) : Nat :=
  let own := s.links.id.toNat
  if dst / 2048 ≠ own / 2048 then s.links.group.getD (dst / 2048) 99 else s.links.locals.getD (dst % 2048) 99

/-- The port on which a flit for a device leaves; none where the tables name none or the link is down. -/
def State.route (s : State) (dst : Nat) : Option Nat :=
  let p := s.routePort dst
  if ((s.links.ports[p]?).map (·.up)).getD false then some p else none

/-- A flit sent on a port with the port's next number, and held until it is acknowledged (18 R331). -/
def State.sendFlit (s : State) (p : Nat) (f : Flit) : State :=
  match s.links.ports[p]? with
  | none => s
  | some x =>
    let g := { f with seq := x.next }
    ({ s with links := { s.links with
      ports := modAt s.links.ports p fun y => { y with next := y.next + 1, unacked := y.unacked ++ [g] } } } : State).emit (.flit p g)

/-- The flits of a message to a device, on a virtual channel; what they hold of it no rule says (18 R330, R334, R336; log 7). -/
def State.sendFlits (s : State) (vc : BitVec 8) (dev : Nat) (l : List (BitVec 4 × BitVec 512)) : State :=
  match s.route dev with
  | none => s
  | some p =>
    let first := ((s.links.ports[p]?).map (·.next)).getD 0
    let fs : List Flit := l.zipIdx.map fun x => ⟨true, vc, BitVec.ofNat 22 dev, s.links.id, x.1.1, first + BitVec.ofNat 8 x.2, x.1.2⟩
    { s with
      links := { s.links with ports := modAt s.links.ports p fun y =>
        { y with next := y.next + BitVec.ofNat 8 fs.length, unacked := y.unacked ++ fs } }
      net := { s.net with out := s.net.out ++ fs.map (OutMsg.flit p) } }

/-- A message leaves the package: a request to a peer in flits of vc 0, a response to one in flits of vc 1 (18 R334). -/
def State.sendOut (s : State) (o : OutMsg) : State :=
  let flits := Config.messageFlits s.sched.moves
  match o with
  | .space3 dev _ _ => (s.emit o).sendFlits 0 dev flits
  | .reply dev _ _ _ => (s.emit o).sendFlits 1 dev flits
  | _ => s.emit o

/-- No way leads to the device that a message is for (18 R334). -/
def State.unreached (s : State) (o : OutMsg) : Bool :=
  match o with
  | .space3 dev _ _ => decide (dev ≠ s.links.id.toNat) && (s.route dev).isNone
  | _ => false

/-- The code with which an access outside the device is refused: 4 where no way leads to its peer, the peer's own, and 4 from the host
(18 R327, R334). -/
def State.extRefusal (s : State) (o : OutMsg) (x : Ext) : Option Nat :=
  if s.unreached o then some 4
  else if !x.err then none
  else match o with
    | .space3 _ _ _ => some (if x.code = 0 then 4 else x.code)
    | _ => some 4

/-- The code with which a request is refused from outside, if it goes there and is. -/
def State.refusedOutside (s : State) (q : Req) (x : Ext) : Option Nat :=
  if s.outside q then s.extRefusal (s.outMsg q) x else none

/-! ### The home of an address (10 R209 to R211) -/

/-- The live halls of a wing, ascending: slot i is the i-th (10 R209). -/
def State.liveHalls (s : State) (wing : Nat) : List Nat :=
  (List.range 64).filter fun h => wingOfHall h = wing && !(s.fab.dead.contains h)

/-- The live slices of a wing. -/
def State.liveSlices (s : State) (wing : Nat) : Nat := 8 - (s.fab.dead.filter fun h => wingOfHall h = wing).length

/-- The slot, the stripe and the stack granule of granule g of a stack with n live slices (10 R209). -/
def granuleHome (g n : Nat) : Nat × Nat × Nat :=
  let m := max 1 n
  (g % m, g / m, g % m * (Config.granules / m) + g / m)

/-- The granule of an HBM physical address in its stack; the stack is that of the wing (10 R208). -/
def hbmGranule (pa : Nat) : Nat := pa % 2 ^ 36 / 4096

/-- The hall whose slice is the home of an HBM physical address (10 R209). -/
def State.home (s : State) (pa : Nat) : Nat :=
  let l := s.liveHalls (pa / 2 ^ 36 % 8)
  l.getD (granuleHome (hbmGranule pa) l.length).1 64

/-- The granule of its stack that holds an HBM physical address (10 R209). -/
def State.stackGranule (s : State) (pa : Nat) : Nat := (granuleHome (hbmGranule pa) (s.liveSlices (pa / 2 ^ 36 % 8))).2.2

/-- Every live slice of the package, by die, wing and slot (10 R211). -/
def State.croftSlices (s : State) : List Nat := (List.range 8).flatMap s.liveHalls

/-- The hall whose slice is the home of a physical address of the Undercroft: granule g at slice g mod M (10 R211). -/
def State.croftHome (s : State) (pa : Nat) : Nat :=
  let l := s.croftSlices
  l.getD (pa / 4096 % max 1 l.length) 64

end Sys2Proof.Machine
end

