-- ==== Sys2Proof/Machine/Access.lean ====
section
/-! DEFINITION. What a request reads and writes where it is performed: bytes, courses, merges, structure words, forwarding from
an activation's own stores (10 R202, R212 to R220; 11 R242, R243; 20 R348, R353). -/
namespace Sys2Proof.Machine

/-! ### Order among requests (05 R99, R103 to R105; 11 R243; 17 R309; 20 R348) -/

/-- The address ranges of a request. -/
def Req.spans (q : Req) : List (Nat × Nat) :=
  match q.kind with
  | .gather ty idx => (indexLanes ty q.addr idx).map fun x => (x.2, tySize ty)
  | k => [(q.addr, k.size)]

/-- The places of a request, translated already or as the tables are now. -/
def State.places (s : State) (q : Req) : List (Nat × Nat) :=
  let near (va : Nat) : Nat := min (4096 - va % 4096) (q.addr + q.kind.size - va)
  match q.kind with
  | .gather ty _ => q.vas.filterMap fun va => (s.spotNow q va).map fun x => (x.key, tySize ty)
  | _ => q.vas.filterMap fun va => (s.spotNow q va).map fun x => (x.key, near va)

/-- Two requests name a byte in common, by address or by place. -/
def State.meets (s : State) (p q : Req) : Bool :=
  (spaceClass p.space = spaceClass q.space && p.asid = q.asid && p.spans.any fun x => q.spans.any fun y => rangesMeet x y) ||
  ((s.places p).any fun x => (s.places q).any fun y => rangesMeet x y)

/-- The destinations of a request: the class of each for the windows of its port (05 R104: 0 a slice, 2 the Undercroft, 3 the host, 4 a
peer; no request goes to a stack itself), and which of the class it is. What stays in the bay has none. -/
def State.dests (s : State) (q : Req) : List (Nat × Nat) :=
  let of (x : Spot) : Option (Nat × Nat) :=
    match x.tier with
    | 0 => some (0, s.home x.pa)
    | 1 => some (2, s.croftHome x.pa)
    | 2 => some (3, 0)
    | 3 => some (4, x.pa / 2 ^ 34)
    | _ => none
  if q.space = 3 then [(4, q.addr / 2 ^ 50)]
  else if q.space = 4 then [(3, 0)]
  else if q.space = 1 then []
  else q.vas.filterMap fun va => (s.spot q va).bind of

/-- Two requests have a destination in common. -/
def State.shareDest (s : State) (p q : Req) : Bool := (s.dests p).any fun x => (s.dests q).contains x

/-- The window of a port for a destination class (05 R104). -/
def State.window (s : State) (port : PortId) (cls : Nat) : PortWin :=
  (s.net.wins.find? fun w => w.port = port && w.cls = cls).getD ⟨port, cls, 64, 0, 0, 0, []⟩

/-- The window of a port for a destination class replaced. -/
def State.putWindow (s : State) (w : PortWin) : State :=
  { s with net := { s.net with wins := (s.net.wins.filter fun y => !(y.port = w.port && y.cls = w.cls)) ++ [w] } }

/-- The classes of the destinations of a request. -/
def State.classes (s : State) (q : Req) : List Nat := ((s.dests q).map (·.1)).dedup

/-- A request issues only while fewer than w are outstanding, in each class of its destinations (05 R104). -/
def State.windowOpen (s : State) (q : Req) : Bool :=
  (s.classes q).all fun c => decide ((s.window q.port c).out.length < (s.window q.port c).w)

/-- Two requests of one activation, whose commit leaves their order open (17 R310, R311). -/
def sameAct (p q : Req) : Bool :=
  p.unit = q.unit && p.ptr = q.ptr && p.tag = q.tag && p.stamp = q.stamp && p.birth = q.birth && p.load_ = q.load_

/-- A request of a unit's own that a later one to the same bytes must see the outcome of: a store, merge or atomic of an earlier commit,
whatever port carries it; a load of the same activation; and what any unit of the bay has sent into the pool (05 R99; 17 R309). -/
def seenFirst (p q : Req) : Bool :=
  let core (x : Req) : Bool := x.port.kind = 0 || x.port.kind = 1 || x.port.kind = 5
  let read : Bool := p.kind.isLoad || p.kind.isStream
  core p && core q && p.st ≠ .queued &&
  (if read then p.kind.isLoad && q.kind.isLoad && p.unit = q.unit
   else p.unit = q.unit || (p.sent.isSome && isElement p.unit && unitBay p.unit = unitBay q.unit))

/-- What keeps a request back: an older one of its stream that is held or refused "moved", or an older one whose outcome it must see
(10 R218; 17 R309; 20 R348). -/
def State.heldBack (s : State) (q : Req) : Bool :=
  s.net.reqs.any fun p => decide (p.id < q.id) && ((sameStream p q && p.st.stops) || (seenFirst p q && s.meets p q))

/-- A request waits for nothing but its translation, its window and its turn. -/
def State.couldGo (s : State) (q : Req) : Bool := q.st.goes && s.follows q.after && !(s.heldBack q)

/-- Bytes of a tier meet the courses of a moving page that are copied already (10 R217). -/
def State.copiedAt (s : State) (tier pa n : Nat) : Bool :=
  s.net.migs.any fun m => tier = pteTier m.old && rangesMeet (pa, n) (ptePa m.old, 64 * m.copied)

/-- A store or atomic of bytes whose course of a moving page is copied already: it is held at the old home (10 R217). -/
def State.copiedOver (s : State) (q : Req) : Bool :=
  q.kind.need ≠ .load && q.vas.any fun va => (s.spot q va).any fun x =>
    s.copiedAt x.tier x.pa (min (4096 - va % 4096) (q.addr + q.kind.size - va))

/-- Two requests of one commit: what an activation stores and its atomics (17 R310, R311). Its loads issue as they fire (11 R243). -/
def sameCommit (p q : Req) : Bool := sameAct p q && !p.kind.isLoad && !q.kind.isLoad

/-- A request may leave its port: its window is open, and no older one of the port to the same destination, of another commit, still
waits for that window (05 R103 to R105). -/
def State.mayLeave (s : State) (q : Req) : Bool :=
  s.couldGo q && s.windowOpen q && s.net.reqs.all fun p => decide (q.id ≤ p.id) ||
    !(p.port = q.port && p.sent.isNone && !(sameCommit p q) && s.couldGo p && s.translated p && s.shareDest p q)

/-- The tile of the package at which a port meets the gallery (05 R103): that of its bay; a Newel's is row 0 and column 0 of its die (24
R402). Where the engines of a link and the generators stand no rule says (log 134). -/
def State.portTile (s : State) (port : PortId) : Nat :=
  match port.kind with
  | 0 | 2 | 3 => s.tileOf port.index
  | 5 => port.index * 140
  | _ => 0

/-- The tile at which a destination meets the gallery: that of a slice with its hall; where the bridges to the host and the links stand no
rule says (log 134). -/
def State.destTile (s : State) (d : Nat × Nat) : Option Nat :=
  if d.1 = 0 || d.1 = 2 then some (s.tileOf (7 * d.2 + 6)) else none

/-- The routers that a packet passes between two tiles of a die: along the row, then along the column (05 R103). -/
def routers (x y : Nat) : List Nat :=
  let c := x % 28
  let d := y % 28
  let r := x / 28
  let e := y / 28
  (span (min c d) (max c d - min c d + 1)).map (fun k => r * 28 + k) ++ (span (min r e) (max r e - min r e + 1)).map fun k => k * 28 + d

/-- The routers on the way of a request of a port to a destination, as far as the spec places them. -/
def State.way (s : State) (port : PortId) (d : Nat × Nat) : List Nat :=
  let x := s.portTile port
  match s.destTile d with
  | some y => if x / 140 = y / 140 then routers x y else [x, y]
  | none => [x]

/-- A router marks what it forwards while at least 24 of its 32 queue entries are full; how full a queue is at a moment is open (05 R104;
log 134). -/
def State.marks (s : State) (port : PortId) (d : Nat × Nat) : Bool :=
  (s.way port d).any fun t => decide (24 ≤ Config.freeFill s.sched.moves t % 33)

/-- What a request takes in a class as it leaves: the next number, and the mark that the routers on its way put on it, or none (05 R104). -/
def State.part (s : State) (q : Req) (c : Nat) : Nat × Nat × Bool :=
  (c, (s.window q.port c).next, (s.dests q).any fun d => d.1 = c && s.marks q.port d)

/-- A window with one more request outstanding. -/
def State.sendPart (s : State) (port : PortId) (x : Nat × Nat × Bool) : State :=
  let w := s.window port x.1
  s.putWindow { w with next := w.next + 1, out := w.out ++ [x.2] }

/-- A request leaves its port, outstanding in each class of its destinations (05 R104). -/
def State.leave (s : State) (q : Req) : State :=
  if q.sent.isSome then s
  else
    let l := (s.classes q).map (s.part q)
    (l.foldl (fun t x => t.sendPart q.port x) s).modReq q.id fun y => { y with st := .waiting, sent := some ⟨s.sched.moves, l⟩ }

/-- A request left its port before another, which goes the same way (05 R103). -/
def sentBefore (p q : Req) : Bool :=
  match p.sent, q.sent with
  | some x, some y => decide (x.at_ < y.at_)
  | some _, none => true
  | none, _ => false

/-- A request may be performed: it has left its port or may, and nothing that left the port before it for its destination is still on
its way (05 R103; 11 R243; 17 R309; 20 R348; 10 R218). -/
def State.mayPerform (s : State) (q : Req) : Bool :=
  s.couldGo q && (q.sent.isSome || s.mayLeave q) && s.net.reqs.all fun p => p.id = q.id ||
    !(p.port = q.port && p.st = .waiting && sentBefore p q && !(s.heldBack p) && s.shareDest p q)

/-! ### Bytes -/

/-- The bytes of a course, byte 0 first (01 R12). -/
def courseBytes (c : Course) : List Byte := natBytes c.toNat 64
/-- A course of bytes. -/
def bytesCourse (l : List Byte) : Course := BitVec.ofNat 512 (bytesNat l)

/-- The bits of a course that the masked elements of a type take (03 R45). -/
def maskCourse (ty : Ty) (mask : BitVec 80) : Course :=
  (List.range ty.count).foldl
    (fun m i => if bit mask i then m ||| (BitVec.ofNat 512 (2 ^ ty.width - 1) <<< (16 + ty.width * i)) else m) 0

/-- A byte under a mask replaced. -/
def mergeByte (b m v : Byte) : Byte := (b &&& ~~~m) ||| (v &&& m)

/-- A course under a mask replaced. -/
def mergeCourse (c m v : Course) : Course := (c &&& ~~~m) ||| (v &&& m)

/-- The bytes of stored data, each with its mask (11 R242). -/
def StoreData.image (d : StoreData) : List (Byte × Byte) :=
  match d with
  | .bytes l | .area l | .packed l => l.map fun b => (0xFF#8, b)
  | .course c | .narrow c => (courseBytes c).map fun b => (0xFF#8, b)
  | .masked ty mask c => (courseBytes (maskCourse ty mask)).zip (courseBytes c)
  | .pair v _ => (natBytes v.toNat 16).map fun b => (0xFF#8, b)
  | .scalar ty v => (natBytes (v.toNat % 2 ^ ty.width) (tySize ty)).map fun b => (0xFF#8, b)

/-- Bytes from an address with stored data at another laid over them. -/
def overlay (base : List Byte) (addr saddr : Nat) (d : StoreData) : List Byte :=
  let im := d.image
  base.zipIdx.map fun x =>
    if saddr ≤ addr + x.2 then
      match im[addr + x.2 - saddr]? with
      | some (m, v) => mergeByte x.1 m v
      | none => x.1
    else x.1

/-! ### The task queue in the pool (13 R262, R263; log 28) -/

/-- The task record of a queue entry (13 R263): its A capability, its descriptor, and what the device writes. -/
def Task.record (t : Task) (ctx : Nat) : Course :=
  match t.kind with
  | .task cap _ d _ => 0#140 ++ t.tag ++ 0#4 ++ BitVec.ofNat 2 ctx ++ BitVec.ofNat 10 t.done ++ d.raw ++ cap
  | .load _ b => (BitVec.ofNat 384 (bytesNat ((List.range 48).map fun i => Config.freeByte i))) ++ b.cap

/-- The queue of a context in a bay. -/
def Ctx.queue (x : Ctx) (bay : Nat) : List Task := x.tasks.filter fun t => t.bay = bay

/-- The image of a context holds MTASK or MLDB (13 R262). -/
def Ctx.usesTasks (x : Ctx) : Bool :=
  x.image.blocks.any fun b => b.blk.nodes.any fun w => slice w 88 8 = 0xC0 || slice w 88 8 = 0xC1

/-- The offset of the queue in a scratchpad: its top 4 KiB (13 R262). -/
def Ctx.queueBase (x : Ctx) : Nat := x.scratch - 4096

/-- An access of n bytes at an offset touches the queue, which every context with a scratchpad has (13 R262). -/
def Ctx.inQueue (x : Ctx) (off n : Nat) : Bool := decide (x.queueBase < off + n) && decide (off < x.scratch)

/-- A byte of the queue: entry i of the queue stands in slot i, a slot without an entry reads a free byte (log 28). -/
def Ctx.queueByte (x : Ctx) (c bay off : Nat) : Byte :=
  let i := off - x.queueBase
  match (x.queue bay)[i / 64]? with
  | some t => slice (t.record c) (8 * (i % 64)) 8
  | none => Config.freeByte i

/-! ### Reading -/

/-- A byte of a request as it reads at its place, ext giving those from outside. -/
def State.readByte (s : State) (q : Req) (va : Nat) (ext : Byte) : Byte :=
  let x := s.homeCtx q.ctx q.load_
  if q.space = 1 && x.inQueue va 1 then x.queueByte q.ctx (unitBay q.unit) va
  else match s.spot q va with
    | some x => if x.inside then s.byteAt x.key else ext
    | none => ext

/-- The n bytes of a request from an address. -/
def State.readBytes (s : State) (q : Req) (va n : Nat) (ext : List Byte) : List Byte :=
  (List.range n).map fun i => s.readByte q (va + i) (ext.getD i 0)

/-- A byte of a request is poisoned (20 R353). -/
def State.poisonedAt (s : State) (q : Req) (va : Nat) : Bool :=
  match s.spot q va with
  | some x => x.inside && s.net.poison.contains (x.key / 8 * 8)
  | none => false

/-- Poison meets the n bytes at a key (20 R353). -/
def State.poisonIn (s : State) (key n : Nat) : Bool := (List.range n).any fun i => s.net.poison.contains ((key + i) / 8 * 8)

/-- A list in ascending order of a key, equal keys in their order. -/
def insertBy {α : Type} (f : α → Nat) (x : α) (l : List α) : List α :=
  match l with
  | [] => [x]
  | y :: t => if f x < f y then x :: y :: t else y :: insertBy f x t

/-- A list sorted by a key. -/
def sortBy {α : Type} (f : α → Nat) (l : List α) : List α := l.foldl (fun acc x => insertBy f x acc) []

/-- The stores of an activation that record j's loads from a space see, in record-index order (11 R243). -/
def Act.below (a : Act) (j space : Nat) : List BufStore :=
  sortBy (fun b => b.j) (a.stores.filter fun b => decide (b.j < j) && decide (spaceClass b.space = spaceClass space))

/-- Aligned courses of bytes changed one by one. -/
def mapCourses (fuel : Nat) (f : Course → Course) (l : List Byte) : List Byte :=
  match fuel with
  | 0 => l
  | n + 1 => if l.length < 64 then l else courseBytes (f (bytesCourse (l.take 64))) ++ mapCourses n f (l.drop 64)

/-- The bytes that a load of an activation returns: memory, with the buffered stores of lower records laid over; whole courses
of a typed page with Z applied before and set after (11 R243). -/
def State.loadBytes (s : State) (q : Req) (a : Act) (va n : Nat) (ext : List Byte) : List Byte :=
  let raw := s.readBytes q va n ext
  let whole := s.typedAt q va && decide (va % 64 = 0) && decide (n % 64 = 0)
  let base := if whole then mapCourses (n / 64) effective raw else raw
  let out := (a.below q.rec_ q.space).foldl (fun b x => overlay b va x.addr x.data) base
  if whole then mapCourses (n / 64) withZ out else out

/-- Bytes from memory with the buffered stores of the records below a load's laid over them (11 R243). -/
def Act.over (a : Act) (q : Req) (bytes : List Byte) : List Byte :=
  (a.below q.rec_ q.space).foldl (fun b x => overlay b q.addr x.addr x.data) bytes

/-- A form whose read is of memory as it stands, whatever its activation has buffered: LAND's snapshot and ACQ's word (11 R236, R250). -/
def Act.readsHome (a : Act) (j : Nat) : Bool :=
  match a.info j with
  | some (o, _) => o = .land || o = .acq
  | none => false

/-- Every byte that a load asks for is one that a lower record stores. -/
def Act.covers (a : Act) (j space va n : Nat) : Bool :=
  (List.range n).all fun i => (a.below j space).any fun b =>
    decide (b.addr ≤ va + i) && ((b.data.image[va + i - b.addr]?).map fun x => decide (x.1 = 0xFF#8)).getD false

/-- A buffered store writes one of the n bytes from an address: bytes that its mask leaves alone it does not write (11 R242). -/
def BufStore.writes (b : BufStore) (va n : Nat) : Bool :=
  b.data.image.zipIdx.any fun x => x.1.1 ≠ 0 && decide (va ≤ b.addr + x.2) && decide (b.addr + x.2 < va + n)

/-- The capability tag that a pair load at an address finds (08 R162; 11 R242): of the queue, memory, or the last lower store
that meets it. -/
def State.loadTag (s : State) (q : Req) (a : Act) (va : Nat) : Bool :=
  let x := s.ctx q.ctx
  let mem :=
    if q.space = 1 && x.inQueue va 16 then
      decide ((va - x.queueBase) % 64 = 0) &&
      (match (x.queue (unitBay q.unit))[(va - x.queueBase) / 64]? with
       | some t => (match t.kind with
         | .task _ tg _ _ => tg
         | .load _ _ => true)
       | none => false)
    else match s.spot q va with
      | some y => y.inside && s.net.captags.contains y.key
      | none => false
  (a.below q.rec_ q.space).foldl
    (fun t b => if b.writes va 16 then
        (match b.data with
         | .pair _ g => g && decide (b.addr = va)
         | _ => false)
      else t) mem

/-! ### Writing at a place -/

/-- Keys below a range's first byte are left, aligned words wholly written lose their poison (20 R353). -/
def clearPoison (l : List Nat) (key n : Nat) : List Nat := l.filter fun w => !(decide (key ≤ w) && decide (w + 8 ≤ key + n))

/-- The tags of pairs that a range meets are cleared (08 R162). -/
def clearTags (l : List Nat) (key n : Nat) : List Nat := l.filter fun p => !(rangesMeet (p, 16) (key, n))

/-- The words of a range that have a structure state. -/
def State.structsIn (s : State) (key n : Nat) : List (Nat × StructState) :=
  s.net.structs.filter fun x => rangesMeet (x.1, 8) (key, n)

/-- A deferred word lies in a range (10 R220). -/
def State.deferredIn (s : State) (key n : Nat) : Bool :=
  (s.structsIn key n).any fun x => match x.2 with
    | .deferred _ => true
    | .empty | .full => false

/-- The words of a list of structure states that meet a test emptied, as a space 0 store leaves them (10 R220). -/
def emptyWords (l : List (Nat × StructState)) (p : Nat → Bool) : List (Nat × StructState) :=
  l.map fun x => if p x.1 then (x.1, .empty) else x

/-- The places from a key whose bytes a masked image writes (11 R242). -/
def maskedKeys (key : Nat) (im : List (Byte × Byte)) : List Nat :=
  (im.zipIdx.filter fun x => x.1.1 ≠ 0).map fun x => key + x.2

/-- A deferred word holds a byte that a masked image writes (10 R220). -/
def State.deferredUnder (s : State) (key : Nat) (im : List (Byte × Byte)) : Bool :=
  (maskedKeys key im).any fun k => s.deferredIn k 1

/-- Bytes written from a key, as a space 0 store: the words that it touches become empty, tags are cleared, and the poison of the words
that it writes whole (10 R214, R220; 20 R353). -/
def State.writeAt (s : State) (key : Nat) (l : List Byte) : State :=
  { s with
    mem := Memory.store s.mem key l
    net := { s.net with
      structs := emptyWords s.net.structs fun k => rangesMeet (k, 8) (key, l.length)
      captags := clearTags s.net.captags key l.length
      poison := clearPoison s.net.poison key l.length } }

/-- Masked bytes written from a key: only the bytes with bits under the mask are stores; a part of a course clears no poison (10 R213,
R214; 11 R242; 20 R353). -/
def State.mergeAt (s : State) (key : Nat) (im : List (Byte × Byte)) : State :=
  let ks := maskedKeys key im
  { s with
    mem := (im.zipIdx).foldl
      (fun m x => if x.1.1 = 0 then m else Memory.set m (key + x.2) (mergeByte (Memory.get m (key + x.2)) x.1.1 x.1.2)) s.mem
    net := { s.net with
      structs := emptyWords s.net.structs fun w => ks.any fun k => rangesMeet (w, 8) (k, 1)
      captags := s.net.captags.filter fun p => !(ks.any fun k => rangesMeet (p, 16) (k, 1)) } }

/-- A course at a key. -/
def State.courseAt (s : State) (key : Nat) : Course := BitVec.ofNat 512 (s.numAt key 64)

/-- A course written at a key, Z set by the home slice (10 R212). -/
def State.putCourse (s : State) (key : Nat) (c : Course) : State := s.writeAt key (courseBytes (withZ c))

/-- The payload bits of a course. -/
def payloadMask : Course := BitVec.ofNat 512 (2 ^ 496 - 2 ^ 16)

/-- The elements of a course under a mask merged at a key into what it reads as, and Z set anew by the home slice (03 R47; 10 R213). A
course that read as zero by its Z takes its payload whole. -/
def State.mergeCourseAt (s : State) (key : Nat) (m v : Course) : State :=
  let z : Course := 1#512 <<< 501
  let old := s.courseAt key
  let own := if crsZ old then payloadMask else m
  s.mergeAt key ((courseBytes (own ||| z)).zip (courseBytes (withZ (mergeCourse (effective old) m v))))

/-- The element that a scalar store to a typed page names; none where its address is no element's (11 R242). -/
def scalarElement (ty : Ty) (va : Nat) : Option Nat :=
  let w := tySize ty
  if ty = .t6 || va % 64 < 2 || (va % 64 - 2) % w ≠ 0 || decide (ty.count ≤ (va % 64 - 2) / w) then none
  else some ((va % 64 - 2) / w)

/-- The code with which a store is refused by its data and the kind of its leaf, wherever that leads (10 R212; 11 R242, R401); 99 where
it passes. -/
def StoreData.leafCode (d : StoreData) (va : Nat) (typed : Bool) : Nat :=
    if typed then
      match d with
      | .course c | .narrow c => checkCourse c
      | .masked _ _ _ => 99
      | .scalar ty _ => if (scalarElement ty va).isNone then 25 else 99
      | .pair _ _ => 3
      | .area _ => 10
      | .packed _ => 8
      | .bytes l =>
        if va % 64 ≠ 0 || l.length % 64 ≠ 0 then 25
        else firstCode ((List.range (l.length / 64)).map fun i =>
          let k := checkCourse (bytesCourse ((l.drop (64 * i)).take 64))
          (k ≠ 99, k))
    else match d with
      | .scalar ty _ => if va % tySize ty = 0 then 99 else 25
      | .narrow _ => 7
      | _ => 99

/-- The format that a sub-course store needs its course to have (10 R213). -/
def StoreData.partFormat (d : StoreData) : Option Ty :=
  match d with
  | .masked ty _ _ | .scalar ty _ => some ty
  | _ => none

/-- The class and code with which a store is refused at its place (10 R212, R213, R219, R220; 11 R242, R401); none where it is
performed. -/
def State.storeRefusal (s : State) (space : Nat) (d : StoreData) (va : Nat) (x : Spot) : Option (Nat × Nat) :=
  let fmt := s.byteAt (x.key / 64 * 64)
  let struct := if space = 2 then s.struct? x.key = some .full else x.inside && s.deferredUnder x.key d.image
  let code := d.leafCode va x.typed
  if code ≠ 99 then some (4, code)
  else if x.typed && d.partFormat.any fun ty => fmt.toNat ≠ fmtCode ty then some (4, 9)
  else if struct then some (3, 7) else none

/-- The leaf of a request's first byte is typed; none where its space has no leaf. -/
def State.leafTyped (s : State) (q : Req) : Option Bool := if translates q.space then (s.spot q q.addr).map (·.typed) else none

/-- Stored data written at its place (10 R212 to R214; 11 R242). -/
def State.storeAt (s : State) (d : StoreData) (va : Nat) (x : Spot) : State :=
  let base := x.key / 64 * 64
  if x.typed then
    match d with
    | .course c | .narrow c => s.putCourse x.key c
    | .masked ty m c => s.mergeCourseAt base (maskCourse ty m) c
    | .scalar ty v =>
      let i := (scalarElement ty va).getD 0
      s.mergeCourseAt base (maskCourse ty (1#80 <<< i)) (zextTo 512 v <<< (16 + ty.width * i))
    | .pair _ _ | .area _ | .packed _ => s
    | .bytes l => s.writeAt x.key (mapCourses (l.length / 64) withZ l)
  else match d with
    | .pair _ tagged =>
      let s1 := s.writeAt x.key (d.image.map (·.2))
      if tagged then { s1 with net := { s1.net with captags := s1.net.captags ++ [x.key] } } else s1
    | .masked _ _ _ => s.mergeAt x.key d.image
    | _ => s.writeAt x.key (d.image.map (·.2))

/-- A store of space 2 written: the word becomes full; its queued readers (10 R219). -/
def State.structStore (s : State) (key : Nat) (l : List Byte) : State × List Nat :=
  let rs := match s.struct? key with
    | some (.deferred rs) => rs
    | _ => []
  let s1 := s.writeAt key l
  ({ s1 with net := { s1.net with structs := (s1.net.structs.filter fun x => x.1 ≠ key / 8 * 8) ++ [(key / 8 * 8, .full)] } }, rs)

/-- A store request performed at its place: the state, and the readers of a structure word to be answered. -/
def State.performStore (s : State) (q : Req) (d : StoreData) (ext : Ext) : State × List Nat :=
  if s.outside q then
    let leaf := ((s.leafTyped q).map (d.leafCode q.addr)).getD 99
    if leaf ≠ 99 then (s.holdReq q 4 leaf q.loops, [])
    else match s.refusedOutside q ext with
      | some k => (s.holdReq q 3 k q.loops, [])
      | none => ((s.sendOut (s.outMsg q)).dropReq q.id, [])
  else match s.spot q q.addr with
    | none => (s, [])
    | some x =>
      match s.storeRefusal q.space d q.addr x with
      | some (cls, code) => (s.holdReq q cls code q.loops, [])
      | none =>
        if q.space = 2 then
          let r := s.structStore x.key (d.image.map (·.2))
          (r.1.dropReq q.id, r.2)
        else ((s.storeAt d q.addr x).dropReq q.id, [])

/-- Bytes cut where they cross a 4 KiB granule: each piece with its address. -/
def splitBytes (fuel addr : Nat) (l : List Byte) : List (Nat × List Byte) :=
  match fuel with
  | 0 => []
  | n + 1 =>
    if l = [] then []
    else
      let k := 4096 - addr % 4096
      (addr, l.take k) :: splitBytes n (addr + k) (l.drop k)

end Sys2Proof.Machine
end

