-- ==== Sys2Proof/Machine/Memory.lean ====
section
/-! DEFINITION. The meanings of group 0xA: loads, stores, streams, fences and synchronisation objects (11 R240 to R250). -/
namespace Sys2Proof.Machine

/-- A buffered store added to an activation (11 R243). -/
def Act.store (a : Act) (j space addr : Nat) (d : StoreData) : Act := { a with stores := a.stores ++ [⟨j, space, addr, d⟩] }

/-- The capability code of an access of n bytes (08 R164; 10 R202, R203; 11 R240; 13 R262); 99 where it passes. -/
def accessCode (s : State) (v : View) (p : Pair) (t : Bool) (spaces : BitVec 8) (perm x n : Nat) (store aligned : Bool) : Nat :=
  let c := s.ctx v.c
  let k := capAccess p t spaces perm x n (if isElement v.u then c.scratch else 0)
  firstCode
    [ (k ≠ 99, k),
      (capSpace p = 4 && decide (2 ^ 56 ≤ x), 8),
      (capSpace p = 5 && decide (2 ^ 32 ≤ x), 8),
      (store && capSpace p = 1 && c.inQueue x n, 8),
      (!aligned, 10) ]

/-- A capability fault reports the cursor of its operand (08 R163). -/
def capFault (p : Pair) (code : Nat) : Fired := .fault 2 code 0 (capCursor p)

/-- The permissions of a space 5 access (08 R159). -/
def sysPerm (p : Pair) (q : Nat) : Nat := if capSpace p = 5 then q ||| permSystem else q

/-- The spaces of LD and ST: 0, 1, 3, 4, and 5 for a 64-bit scalar (11 R241). -/
def ldSpaces (r : Rec) : BitVec 8 := if r.sh = .scalar && r.ty.width = 64 then 0x3B else 0x1B

/-- A load leaves where its capability admits it. -/
def loadForm (spaces : View → BitVec 8) (perm : Nat) (size align : View → Nat) (off : View → Int) (kind : View → ReqKind)
    (s : State) (_ : Act) (v : View) : Fired :=
  let p := v.a.pair
  let x := accessAddr p (off v)
  let k := accessCode s v p v.a.tagged (spaces v) (sysPerm p perm) x (size v) false (decide (x % align v = 0))
  if k ≠ 99 then capFault p k else .issue (capSpace p) x (kind v)

/-- LD (11 R242). -/
def ldForm (s : State) (a : Act) (v : View) : Fired :=
  loadForm (fun v => ldSpaces v.r) permLoad (fun v => accessSize v.r) (fun v => accessSize v.r) (fun v => litOff v.r)
    (fun v => .load (accessSize v.r) (v.r.sh = .pair && capHasPerm v.a.pair permLoadCap)) s a v

/-- What a load request brings: its bytes, the tag of a pair, and whether its page is typed. -/
structure Loaded where
  bytes : List Byte
  tag   : Bool
  typed : Bool
  deriving DecidableEq, Repr, Inhabited

/-- A scalar load extended by its type (11 R242). -/
def extendScalar (ty : Ty) (n : Nat) : Word :=
  let m := n % 2 ^ ty.width
  if ty.signed then sextTo 64 (BitVec.ofNat 64 m <<< (64 - ty.width)) |>.sshiftRight (64 - ty.width) else BitVec.ofNat 64 m

/-- LD when its data returns (11 R242). -/
def ldReturn (_ : State) (a : Act) (v : View) (x : Loaded) : Fired :=
  match v.r.sh with
  | .scalar => give a noFlags (Val.ofWord (extendScalar v.r.ty (bytesNat x.bytes)))
  | .pair => if x.typed then .fault 4 3 0 0 else give a noFlags (Val.ofPair (BitVec.ofNat 128 (bytesNat x.bytes)) x.tag)
  | .course =>
    let c := bytesCourse x.bytes
    let k := checkTyped v.r.ty c
    if x.typed && k ≠ 99 then .fault 4 k 0 0 else give a noFlags (Val.ofCourse c)

/-- The value that ST stores, with the permission its tag needs (11 R242; 08 R159). -/
def stData (x : Act) (v : View) : StoreData × Nat :=
  match v.r.sh with
  | .scalar => (.scalar v.r.ty v.a.word, 0)
  | .course =>
    if bit v.r.ax 3 then (.masked v.r.ty (slice (v.k x).bits 0 80) (effective v.a.bits), 0) else (.course v.a.bits, 0)
  | .pair =>
    let keep := v.a.tagged && (capSpace v.b.pair = 1 || capHasPerm v.a.pair permGlobal)
    (.pair v.a.pair keep, if v.a.tagged then permStoreCap else 0)

/-- The code with which a form that takes a value of a type refuses a course operand A (03 R48); only R144's forms move a course of
any format (log 138). -/
def courseCode (v : View) : Nat := if v.r.sh = .course then checkTyped v.r.ty v.a.bits else 99

/-- A masked ST takes elements of its type out of its course and checks it (03 R48, R213); the home slice checks a whole one (10 R212;
log 138). -/
def stCode (v : View) : Nat := if bit v.r.ax 3 then courseCode v else 99

/-- ST (11 R242): a scalar may be element-aligned instead (R240, R401). -/
def stForm (s : State) (a : Act) (v : View) : Fired :=
  let p := v.b.pair
  let x := accessAddr p (litOff v.r)
  let n := accessSize v.r
  let (d, need) := stData a v
  let natural := decide (x % n = 0)
  let elem := v.r.sh = .scalar && (scalarElement v.r.ty x).isSome
  let k := accessCode s v p v.b.tagged (ldSpaces v.r) (sysPerm p (permStore ||| need)) x n true (natural || elem)
  if stCode v ≠ 99 then .fault 4 (stCode v) 0 0
  else if k ≠ 99 then capFault p k
  else if capSpace p = 1 && !natural then .fault 4 25 0 0
  else .done (a.store v.j (capSpace p) x d) noFlags none none

/-- LDC (11 R244): space 1 is untyped when the record fires (R401). -/
def ldcForm (s : State) (a : Act) (v : View) : Fired :=
  match loadForm (fun _ => 0x1B) permLoad (fun _ => 64) (fun _ => 64) (fun v => litOff v.r) (fun _ => .load 64 false) s a v with
  | .issue 1 _ _ => .fault 4 7 0 0
  | f => f

/-- The type of a format code among those LDC decodes. -/
def narrowTy (fmt : Nat) : Option Ty :=
  match fmt with
  | 0x0A => some .f32
  | 0x08 => some .f16
  | 0x09 => some .b16
  | 0x10 => some .t8
  | 0x11 => some .t6
  | _ => none

/-- LDC when its course returns (11 R244). -/
def ldcReturn (_ : State) (a : Act) (v : View) (x : Loaded) : Fired :=
  let c := bytesCourse x.bytes
  let k := checkCourse c
  if !x.typed then .fault 4 7 0 0
  else if k ≠ 99 then .fault 4 k 0 0
  else match narrowTy (crsFmt c) with
    | none => .fault 4 3 0 0
    | some ty =>
      let j := (slice v.r.ax 0 3).toNat
      let lanes := (List.range 15).map fun i =>
        if 15 * j + i < ty.count then laneBits ty c (15 * j + i) else (0, noFlags)
      give a (orFlags lanes) (Val.ofCourse (mkCourse 0x0A 127 (tailOf (crsL c) (crsK c) (crsQ c)) 32 (lanes.map (·.1))))

/-- The entries that STC reads. -/
def stcCount (ty : Ty) : Nat := (ty.count + 14) / 15

/-- STC (11 R244). -/
def stcForm (s : State) (a : Act) (v : View) : Fired :=
  let p := v.b.pair
  let x := accessAddr p (litOff v.r)
  let q := (slice v.r.ax 0 4).toNat
  let k := accessCode s v p v.b.tagged 0x1B permStore x 64 true (decide (x % 64 = 0))
  if k ≠ 99 then capFault p k
  else match ringTile (s.ctx v.c) a v.j q (slice v.r.ax 8 5).toNat (stcCount v.r.ty) with
    | none => .fault 6 14 q 0
    | some es =>
      let bad := firstCode (es.map fun c => let k := checkTyped .f32 c; (k ≠ 99, k))
      let c0 := es.headD 0
      if bad ≠ 99 then .fault 4 bad 0 0
      else if es.any fun c => crsL c ≠ crsL c0 then .fault 4 5 0 0
      else if capSpace p = 1 then .fault 4 7 0 0
      else
        let nums := (List.range v.r.ty.count).map fun e => (laneNum .f32 (es.getD (e / 15) 0) (e % 15)).1
        let y := floatCourse v.r.ty (tailOf (crsL c0) (crsK c0) false) nums
        .done (a.store v.j (capSpace p) x (.narrow y.1)) y.2 none none

/-! ### Streams (11 R245) -/

/-- The counts and strides of a stream descriptor. -/
def streamDesc (c : Course) : List Int × List Int :=
  let ls := laneInts .i32 c
  (ls.take 4, (ls.drop 4).take 4)

/-- The code of a stream descriptor: 24 is "descriptor". -/
def streamCode (c : Course) : Nat :=
  let k := checkTyped .i32 c
  let (cs, ss) := streamDesc c
  firstCode
    [ (k ≠ 99, k),
      (cs.any (fun x => decide (x < 1)) || decide (32 < cs.foldl (· * ·) 1) || ss.any (fun x => decide (x % 64 ≠ 0)), 24) ]

/-- The byte offsets of a stream in loop order, i0 fastest. -/
def streamOffs (cs : List Nat) (ss : List Int) : List Int :=
  (cs.zip ss).foldl (fun acc x => (List.range x.1).flatMap fun (i : Nat) => acc.map fun o => o + (i : Int) * x.2) [0]

/-- A stream's count of courses. -/
def streamCount (cs : List Nat) : Nat := cs.foldl (· * ·) 1

/-- The checks of a stream form, then its effect and cursor move. -/
def streamForm (load : Bool) (s : State) (a : Act) (v : View) : Fired :=
  let cap := if load then v.a else v.b
  let p := cap.pair
  let q := (slice v.r.lit 0 4).toNat
  let d := (v.k a).bits
  let k := streamCode d
  let (ci, ss) := streamDesc d
  let cs := ci.map Int.toNat
  let m := streamCount cs
  let addrs := (streamOffs cs ss).map fun o => accessAddr p o
  let bad := firstCode (addrs.map fun x =>
    let c := accessCode s v p cap.tagged 0x19 (if load then permLoad else permStore) x 64 (!load) (decide (x % 64 = 0))
    (c ≠ 99, c))
  let x := s.ctx v.c
  if k ≠ 99 then .fault 4 k 0 0
  else if bad ≠ 99 then capFault p bad
  else if load then
    match ringSpot x a v.j q 0 m with
    | .breach => .fault 6 14 q 0
    | .wait => .wait
    | .at_ n =>
      .done (({ a with moves := a.moves ++ [⟨v.j, q, false, m⟩] } : Act).effect v.j (.genLoad v.r.ty q n (capSpace p) addrs cs))
        noFlags none none
  else
    match ringAdvance x a v.j q m with
    | .breach => .fault 6 14 q 0
    | .wait => .wait
    | .at_ n =>
      .done (({ a with moves := a.moves ++ [⟨v.j, q, true, m⟩] } : Act).effect v.j
        (.genStore v.r.ty q (n - m) (capSpace p) addrs cs)) noFlags none none

/-! ### Gather and scatter (11 R246) -/

/-- The code of the lanes of a gather or scatter. -/
def laneCode (s : State) (v : View) (cap : Val) (perm : Nat) (store : Bool) (lanes : List (Nat × Nat)) : Nat :=
  let n := tySize v.r.ty
  firstCode (lanes.map fun x =>
    let ok := decide (x.2 % n = 0) || (store && (scalarElement v.r.ty x.2).isSome)
    let k := accessCode s v cap.pair cap.tagged 0x1B perm x.2 n store ok
    (k ≠ 99, k))

/-- LDX (11 R246). -/
def ldxForm (s : State) (_ : Act) (v : View) : Fired :=
  let p := v.a.pair
  let k := checkTyped .i32 v.b.bits
  let lanes := indexLanes v.r.ty (capCursor p) v.b.bits
  let bad := laneCode s v v.a permLoad false lanes
  if k ≠ 99 then .fault 4 k 0 0
  else if bad ≠ 99 then capFault p bad
  else .issue (capSpace p) (capCursor p) (.gather v.r.ty v.b.bits)

/-- LDX when its lanes return: the bytes hold every lane in order, skipped lanes zero (11 R246). -/
def ldxReturn (_ : State) (a : Act) (v : View) (x : Loaded) : Fired :=
  let n := tySize v.r.ty
  let lanes := (List.range v.r.ty.count).map fun i => fieldAt x.bytes (n * i) n
  give a noFlags (Val.ofCourse (rawCourse v.r.ty 127 0 lanes))

/-- STX (11 R246). -/
def stxForm (s : State) (a : Act) (v : View) : Fired :=
  let p := v.b.pair
  let idx := (v.k a).bits
  let k1 := checkTyped v.r.ty v.a.bits
  let k2 := checkTyped .i32 idx
  let lanes := indexLanes v.r.ty (capCursor p) idx
  let bad := laneCode s v v.b permStore true lanes
  if k1 ≠ 99 then .fault 4 k1 0 0
  else if k2 ≠ 99 then .fault 4 k2 0 0
  else if bad ≠ 99 then capFault p bad
  else if capSpace p = 1 && lanes.any fun x => x.2 % tySize v.r.ty ≠ 0 then .fault 4 25 0 0
  else
    let put (b : Act) (x : Nat × Nat) : Act :=
      b.store v.j (capSpace p) x.2 (.scalar v.r.ty (BitVec.ofNat 64 (laneRaw v.r.ty.width v.a.bits x.1)))
    .done (lanes.foldl put a) noFlags none none

/-! ### Structure memory, fences and synchronisation objects (11 R248 to R250) -/

/-- LDS (11 R248). -/
def ldsForm (s : State) (a : Act) (v : View) : Fired :=
  loadForm (fun _ => 0x04) permLoad (fun _ => 8) (fun _ => 8) (fun v => litOff v.r) (fun _ => .load 8 false) s a v

/-- LDS when its word returns. -/
def ldsReturn (_ : State) (a : Act) (_ : View) (x : Loaded) : Fired :=
  give a noFlags (Val.ofWord (BitVec.ofNat 64 (bytesNat x.bytes)))

/-- STS (11 R248). -/
def stsForm (s : State) (a : Act) (v : View) : Fired :=
  let p := v.b.pair
  let x := accessAddr p (litOff v.r)
  let k := accessCode s v p v.b.tagged 0x04 permStore x 8 true (decide (x % 8 = 0))
  if k ≠ 99 then capFault p k else .done (a.store v.j 2 x (.scalar .n64 v.a.word)) noFlags none none

/-- The scope of a synchronising record (11 R223). -/
def scopeOf (r : Rec) : Nat := (slice r.ax 0 3).toNat

/-- ACQ (11 R250). -/
def acqForm (s : State) (a : Act) (v : View) : Fired :=
  loadForm (fun _ => 0x01) (permLoad ||| permAtomic) (fun _ => 8) (fun _ => 8) (fun _ => 0) (fun v => .acquire v.b.word) s a v

/-- ACQ when it reads its word: the word is a release count that has reached B, or it waits (11 R250). -/
def acqReturn (_ : State) (a : Act) (v : View) (x : Loaded) : Fired :=
  let w : Word := BitVec.ofNat 64 (bytesNat x.bytes)
  if x.typed then .fault 4 8 0 0
  else if (w - v.b.word).toNat < 2 ^ 63 then give a noFlags (Val.ofWord w)
  else .wait

/-- REL (11 R250). -/
def relForm (s : State) (a : Act) (v : View) : Fired :=
  let p := v.a.pair
  let x := capCursor p
  let k := accessCode s v p v.a.tagged 0x01 (permLoad ||| permAtomic) x 8 false (decide (x % 8 = 0))
  if k ≠ 99 then capFault p k else .done (a.effect v.j (.release (scopeOf v.r) x)) noFlags none none

/-- LD (11 R242). -/
def execLd (r : Rec) (s : State) : Result State := fire .ld r s ldForm
/-- ST (11 R242). -/
def execSt (r : Rec) (s : State) : Result State := fire .st r s stForm
/-- LDC (11 R244). -/
def execLdc (r : Rec) (s : State) : Result State := fire .ldc r s ldcForm
/-- STC (11 R244). -/
def execStc (r : Rec) (s : State) : Result State := fire .stc r s stcForm
/-- LDQ (11 R245). -/
def execLdq (r : Rec) (s : State) : Result State := fire .ldq r s (streamForm true)
/-- STQ (11 R245). -/
def execStq (r : Rec) (s : State) : Result State := fire .stq r s (streamForm false)
/-- PREF (11 R247): no visible effect; it never faults. -/
def execPref (r : Rec) (s : State) : Result State := fire .pref r s fun _ a _ => .done a noFlags none none
/-- LDX (11 R246). -/
def execLdx (r : Rec) (s : State) : Result State := fire .ldx r s ldxForm
/-- STX (11 R246). -/
def execStx (r : Rec) (s : State) : Result State := fire .stx r s stxForm
/-- LDS (11 R248). -/
def execLds (r : Rec) (s : State) : Result State := fire .lds r s ldsForm
/-- STS (11 R248). -/
def execSts (r : Rec) (s : State) : Result State := fire .sts r s stsForm
/-- FENCE (11 R249): its orders act at commit and on later loads. -/
def execFence (r : Rec) (s : State) : Result State :=
  fire .fence r s fun _ a v => give (a.effect v.j (.fence (scopeOf v.r))) noFlags (Val.ofWord v.a.word)
/-- ACQ (11 R250). -/
def execAcq (r : Rec) (s : State) : Result State := fire .acq r s acqForm
/-- REL (11 R250). -/
def execRel (r : Rec) (s : State) : Result State := fire .rel r s relForm

end Sys2Proof.Machine
end

