-- ==== Sys2Proof/Machine/Rings.lean ====
section
/-! DEFINITION. The meanings of group 0x8: rings, frames and tags (11 R224 to R231; 15 R286). -/
namespace Sys2Proof.Machine

/-! ### Rings (11 R227) -/

/-- The ring of LIT[3:0]. -/
def litRing (r : Rec) : Nat := (slice r.lit 0 4).toNat

/-- A ring entry read at an offset, as a record's answer. -/
def ringAnswer (x : RingAnswer) (q : Nat) (f : Val → Fired) : Fired :=
  match x with
  | .val v => f v
  | .wait => .wait
  | .breach => .fault 6 14 q 0
  | .reserved => .fault 4 15 q 0

/-- A ring place, as a record's answer. -/
def ringPlaced (x : RingSpot) (q : Nat) (f : Nat → Fired) : Fired :=
  match x with
  | .at_ n => f n
  | .wait => .wait
  | .breach => .fault 6 14 q 0

/-- RRD (11 R227). -/
def rrdForm (s : State) (a : Act) (v : View) : Fired :=
  let q := litRing v.r
  ringAnswer (ringRead (s.ctx v.c) a v.j q v.a.word.toNat) q fun x => give a noFlags (x.at v.r.sh)

/-- RWR (11 R227). -/
def rwrForm (s : State) (a : Act) (v : View) : Fired :=
  let q := litRing v.r
  if courseCode v ≠ 99 then .fault 4 (courseCode v) 0 0
  else ringPlaced (ringSpot (s.ctx v.c) a v.j q v.b.word.toNat 1) q fun n =>
    .done { a with rwrites := a.rwrites ++ [⟨v.j, q, n, v.a.at v.r.sh⟩] } noFlags (some (Val.ofWord v.b.word)) none

/-- RADV and WADV (11 R227). -/
def moveForm (read : Bool) (s : State) (a : Act) (v : View) : Fired :=
  let q := litRing v.r
  let n := (slice v.r.lit 4 6).toNat
  let x := s.ctx v.c
  ringPlaced (if read then ringAdvance x a v.j q n else ringSpot x a v.j q 0 n) q fun _ =>
    .done { a with moves := a.moves ++ [⟨v.j, q, read, n⟩] } noFlags (some (Val.ofWord v.a.word)) none

/-- The operator of an activation. -/
def Act.op (a : Act) (x : Ctx) : Nat := (x.opOf? a.w.ptr).getD 0

/-- The two counts of RFILL (11 R227; 15 R286). -/
def ringCounts (x : Ctx) (a : Act) (j q : Nat) : Nat × Nat :=
  match x.ring? q with
  | none => (0, 0)
  | some g =>
    let rd := a.moved j q true
    let wr := a.moved j q false
    let full := match g.kind with
      | .const => g.depth
      | .stream => (a.view q).fill - rd
      | .fibre => g.filled - rd
    let free := match g.kind with
      | .const => 0
      | .stream => (a.view q).free - wr
      | .fibre => g.space - wr
    (if g.kind = .const || g.cons = a.op x then full else 0, if g.kind ≠ .const && g.prod = a.op x then free else 0)

/-- RFILL (11 R227). -/
def rfillForm (s : State) (a : Act) (v : View) : Fired :=
  let n := ringCounts (s.ctx v.c) a v.j (litRing v.r)
  give a noFlags (Val.ofNat (n.1 % 65536 + 65536 * (n.2 % 65536)))

/-! ### Frames (11 R228, R229) -/

/-- The frame that matches a block under a tag word, wherever it waits or executes (02 R26). -/
def State.frame? (s : State) (c : Nat) (ptr : BlockPtr) (tag : TagWord) : Option Waiting :=
  (s.allFrames c).find? fun w => w.kind = .frame && w.ptr = ptr && w.tag = tag

/-- The block ordinal of LIT[11:0]. -/
def litBlock (r : Rec) : Nat := (slice r.lit 0 12).toNat
/-- The port of LIT[16:12]. -/
def litPort (r : Rec) : Nat := (slice r.lit 12 5).toNat

/-- Tag word B with the own context (11 R228). -/
def View.tagB (v : View) : TagWord := tagWithCtx v.b.word v.c

/-- FLDS (11 R229). -/
def fldsForm (s : State) (a : Act) (v : View) : Fired :=
  let x := s.ctx v.c
  let got := do
    let b ← x.block? (litBlock v.r)
    let w ← s.frame? v.c b.ptr v.tagB
    let sl ← w.slots[litPort v.r]?
    sl.val
  match got with
  | some y => .done a noFlags (some (y.at v.r.sh)) (some (Val.ofNat 1))
  | none => .done a noFlags (some (Val.zero v.r.sh)) (some (Val.ofNat 0))

/-- FSTS (11 R229): the token has the tag word B and the emitted stamp (log 165). -/
def fstsForm (_ : State) (a : Act) (v : View) : Fired :=
  if courseCode v ≠ 99 then .fault 4 (courseCode v) 0 0
  else .done (a.effect v.j (.fsts (litBlock v.r) (litPort v.r) v.tagB (v.a.at v.r.sh) none)) noFlags none none

/-- SENDT (11 R230). -/
def sendtForm (_ : State) (a : Act) (v : View) : Fired :=
  if courseCode v ≠ 99 then .fault 4 (courseCode v) 0 0
  else .done { a with outs := a.outs ++ [⟨v.j, (slice v.r.lit 0 4).toNat, some (v.a.at v.r.sh), some v.tagB, none⟩] }
    noFlags none none

/-! ### Tags (11 R231; 07 R131) -/

/-- The first tag from one upwards, cyclically, that is not live. -/
def freeTag (live : List LiveTag) (fuel : Nat) (t : BitVec 16) : Option (BitVec 16) :=
  match fuel with
  | 0 => none
  | n + 1 => if live.any fun x => x.iter = t then freeTag live n (t + 1) else some t

/-- TAGN (11 R231). -/
def tagnForm (s : State) (a : Act) (v : View) : Fired :=
  let x := s.ctx v.c
  if x.tagEff ≤ x.live.length then .wait
  else match freeTag x.live 65536 (x.tagnAt + 1) with
    | none => .wait
    | some t =>
      let y := some (Val.ofWord (zextTo 64 (tagWord v.c 0 t.toNat)))
      .doneCtx { x with live := x.live ++ [⟨t, true, s.epoch (unitDie v.u), false⟩], tagnAt := t } (a.effect v.j (.tagn t))
        noFlags y y

/-- RRD (11 R227). -/
def execRrd (r : Rec) (s : State) : Result State := fire .rrd r s rrdForm
/-- RWR (11 R227). -/
def execRwr (r : Rec) (s : State) : Result State := fire .rwr r s rwrForm
/-- RADV (11 R227). -/
def execRadv (r : Rec) (s : State) : Result State := fire .radv r s (moveForm true)
/-- WADV (11 R227). -/
def execWadv (r : Rec) (s : State) : Result State := fire .wadv r s (moveForm false)
/-- RFILL (11 R227). -/
def execRfill (r : Rec) (s : State) : Result State := fire .rfill r s rfillForm
/-- FALLOC (11 R229). -/
def execFalloc (r : Rec) (s : State) : Result State :=
  fire .falloc r s fun _ a v => .done (a.effect v.j (.falloc (litBlock v.r) v.tagB)) noFlags none none
/-- FFREE (11 R229). -/
def execFfree (r : Rec) (s : State) : Result State :=
  fire .ffree r s fun _ a v => .done (a.effect v.j (.ffree (litBlock v.r) v.tagB)) noFlags none none
/-- FLDS (11 R229). -/
def execFlds (r : Rec) (s : State) : Result State := fire .flds r s fldsForm
/-- FSTS (11 R229). -/
def execFsts (r : Rec) (s : State) : Result State :=
  fire .fsts r s fstsForm
/-- SENDT (11 R230). -/
def execSendt (r : Rec) (s : State) : Result State := fire .sendt r s sendtForm
/-- TAGN (11 R231). -/
def execTagn (r : Rec) (s : State) : Result State := fire .tagn r s tagnForm
/-- TAGR (11 R231). -/
def execTagr (r : Rec) (s : State) : Result State :=
  fire .tagr r s fun _ a v => .done (a.effect v.j (.tagr (slice v.a.word 0 16))) noFlags none none

end Sys2Proof.Machine
end

