-- ==== Sys2Proof/Machine/Atomics.lean ====
section
/-! DEFINITION. The meanings of group 0xB: atomics on memory and combining tokens, with their functions (17 R311 to R314). -/
namespace Sys2Proof.Machine

/-! ### The functions (17 R312, R313) -/

/-- An integer function by its number: 0 add, 1 min, 2 max, 3 and, 4 or, 5 xor, 6 swap. -/
def atomicInt (fn : Nat) (ty : Ty) (old b : Nat) : Nat :=
  let lo := readInt ty (BitVec.ofNat 64 old)
  let hi := readInt ty (BitVec.ofNat 64 b)
  match fn with
  | 0 => (old + b) % 2 ^ ty.width
  | 1 => if lo ≤ hi then old else b
  | 2 => if lo ≤ hi then b else old
  | 3 => old &&& b
  | 4 => old ||| b
  | 5 => old ^^^ b
  | _ => b

/-- A float function by its number: 8 add, 9 min, 10 max. -/
def atomicFloat (fn : Nat) (x y : FNum) : FNum × BitVec 6 :=
  match fn with
  | 8 => addNum 0 x y
  | 9 => minNum x y
  | _ => maxNum x y

/-- One element combined by a function, raw, with its flags: lanes of a course flush, scalars keep subnormals. -/
def atomicElem (fn : Nat) (ty : Ty) (lane : Bool) (old b : Nat) : Nat × BitVec 6 :=
  if fn < 8 then (atomicInt fn ty old b, noFlags)
  else
    let f := fmtOf ty
    let get (x : Nat) : FNum := readFmt f (if lane then flushIn f x else x)
    let s := atomicFloat fn (get old) (get b)
    let z := if lane then laneFmt f s.1 else roundFmt f 0 s.1
    (z.1, s.2 ||| z.2)

/-- The memory step of AOP, ACAS and AFADD on an element: the new element and its flags (17 R312); 7 is compare and swap with
expected value e. -/
def atomicStep (fn : Nat) (ty : Ty) (old b e : Nat) : Nat × BitVec 6 :=
  if fn = 7 then (if old = e then b else old, noFlags) else atomicElem fn ty false old b

/-- A course combined lane by lane; scale, L, k and Q stay those of the first (17 R312). -/
def atomicCourse (fn : Nat) (ty : Ty) (old b : Course) : Course × BitVec 6 :=
  let xs := (List.range ty.count).map fun i => atomicElem fn ty true (laneRaw ty.width old i) (laneRaw ty.width b i)
  (mkCourse (crsFmt old) (crsScale old) (tailOf (crsL old) (crsK old) (crsQ old)) ty.width (xs.map (·.1)), orFlags xs)

/-- The value of a slot combined with an arriving one (17 R313). -/
def combineVal (c : Comb) (old b : Val) : Val × BitVec 6 :=
  match c.sh with
  | .course =>
    let y := atomicCourse c.fn c.ty old.bits b.bits
    (Val.ofCourse y.1, y.2)
  | _ =>
    let y := atomicElem c.fn c.ty false (rawInt c.ty old.word) (rawInt c.ty b.word)
    (Val.ofWord (extInt c.ty y.1), y.2)

/-! ### The forms (17 R311, R312, R314) -/

/-- The output port of a destination. -/
def outPort (d : Dest) : Option Nat :=
  match d with
  | .out k => some k.val
  | _ => none

/-- An output port that an atomic will write counts as written (17 R311). -/
def Act.claimOut (a : Act) (j : Nat) (d : Dest) : Act :=
  match outPort d with
  | none => a
  | some k => { a with outs := a.outs ++ [⟨j, k, none, none, none⟩] }

/-- The permissions of an atomic. -/
def permAtom : Nat := permLoad ||| permStore ||| permAtomic

/-- AOP, ACAS and AFADD at fire (17 R311): fn and the expected value e. -/
def atomicForm (fn : View → Nat) (e : Act → View → Word) (s : State) (a : Act) (v : View) : Fired :=
  let p := v.a.pair
  let x := accessAddr p (litOff v.r)
  let n := tySize v.r.ty
  let k := accessCode s v p v.a.tagged 0x0B permAtom x n true (decide (x % n = 0))
  if k ≠ 99 then capFault p k
  else
    .done ((a.claimOut v.j v.r.d0).effect v.j
      (.atomic (outPort v.r.d0) (fn v) v.r.ty (capSpace p) x v.b.word (e a v) none)) noFlags none none

/-- ARED at fire: its course is A, its capability B (17 R312). -/
def aredForm (s : State) (a : Act) (v : View) : Fired :=
  let p := v.b.pair
  let x := accessAddr p (litOff v.r)
  let c := checkTyped v.r.ty v.a.bits
  let k := accessCode s v p v.b.tagged 0x0B permAtom x 64 true (decide (x % 64 = 0))
  if c ≠ 99 then .fault 4 c 0 0
  else if k ≠ 99 then capFault p k
  else if capSpace p = 1 then .fault 4 7 0 0
  else .done (a.effect v.j (.atomic none v.r.fn.toNat v.r.ty (capSpace p) x 0 0 (some v.a.bits))) noFlags none none

/-- The combination that CMB and CMBI carry, with a count. -/
def combOf (r : Rec) (n : Nat) : Comb := ⟨r.fn.toNat, r.ty, r.sh, n⟩

/-- A course of a combining form is checked as it is read (03 R48). -/
def combCode (v : View) : Nat := courseCode v

/-- CMB (17 R314). -/
def cmbForm (_ : State) (a : Act) (v : View) : Fired :=
  let c := combOf v.r ((slice v.r.lit 4 12).toNat + 1)
  if combCode v ≠ 99 then .fault 4 (combCode v) 0 0
  else .done { a with outs := a.outs ++ [⟨v.j, (slice v.r.lit 0 4).toNat, some (v.a.at v.r.sh), none, some c⟩] }
    noFlags none none

/-- CMBI (17 R314). -/
def cmbiForm (_ : State) (a : Act) (v : View) : Fired :=
  let c := combOf v.r ((slice v.r.ax 0 12).toNat + 1)
  if combCode v ≠ 99 then .fault 4 (combCode v) 0 0
  else .done (a.effect v.j (.fsts (litBlock v.r) (litPort v.r) v.tagB (v.a.at v.r.sh) (some c))) noFlags none none

/-- AOP (17 R312). -/
def execAop (r : Rec) (s : State) : Result State := fire .aop r s (atomicForm (fun v => v.r.fn.toNat) fun _ _ => 0)
/-- ACAS (17 R312). -/
def execAcas (r : Rec) (s : State) : Result State := fire .acas r s (atomicForm (fun _ => 7) fun a v => (v.k a).word)
/-- AFADD (17 R312). -/
def execAfadd (r : Rec) (s : State) : Result State := fire .afadd r s (atomicForm (fun _ => 8) fun _ _ => 0)
/-- ARED (17 R312). -/
def execAred (r : Rec) (s : State) : Result State := fire .ared r s aredForm
/-- CMB (17 R314). -/
def execCmb (r : Rec) (s : State) : Result State := fire .cmb r s cmbForm
/-- CMBI (17 R314). -/
def execCmbi (r : Rec) (s : State) : Result State := fire .cmbi r s cmbiForm

end Sys2Proof.Machine
end

