-- ==== Sys2Proof/Machine/Demand.lean ====
section
/-! DEFINITION. The meanings of group 0x9: demand and stream time (04 R77, R90 to R93; 11 R232 to R239). -/
namespace Sys2Proof.Machine

/-- A number lies in the range of stream time (11 R233). -/
def inStamps (x : Int) : Bool := decide (-(2 ^ 47 : Int) ≤ x) && decide (x ≤ 2 ^ 47 - 1)

/-- A number clamped to the range of stream time. -/
def clampStamp (x : Int) : Int := min (max x (-(2 ^ 47 : Int))) (2 ^ 47 - 1)

/-- An interval packed into a pair (11 R234). -/
def ivalPair (iv : Ival) : Pair := BitVec.ofInt 64 iv.hi ++ BitVec.ofInt 64 iv.lo
/-- The interval of a pair. -/
def pairIval (p : Pair) : Ival := ⟨(slice p 0 64).toInt, (slice p 64 64).toInt⟩

/-- Some edge feeds a sink (04 R77). -/
def Ctx.fed (x : Ctx) (k : Nat) : Bool := x.edges.any fun e => e.cons = .sink k

/-- The status of DMD by the state of its target (11 R233). -/
def demandStatus (x : Ctx) (k : Nat) : Nat :=
  if x.status = .absent || x.status = .loading then 1
  else if !(x.fed k) then 2
  else if x.status = .evicting then 4
  else 0

/-- DMD (11 R233). -/
def dmdForm (s : State) (a : Act) (v : View) : Fired :=
  let lo := v.a.word.toInt
  let hi := v.b.word.toInt
  let k := (slice v.r.lit 0 4).toNat
  let c := if bit v.r.lit 6 then (slice v.r.lit 4 2).toNat else v.c
  let st := demandStatus (s.ctx c) k
  let say (n : Nat) : Option Val := some (Val.ofNat n)
  if !(inStamps lo) || !(inStamps hi) then .fault 7 4 k 0
  else if hi < lo then .done a noFlags (say 3) none
  else if 4096 < hi - lo + 1 then .fault 7 3 k 0
  else if st = 0 || st = 4 then .done (a.effect v.j (.demand c k ⟨lo, hi⟩ (st = 4))) noFlags (say st) none
  else .done a noFlags (say st) none

/-- DGET (11 R234). -/
def dgetForm (_ : State) (a : Act) (v : View) : Fired :=
  let iv := pairIval v.a.pair
  give a noFlags (Val.ofPair (BitVec.ofInt 128 (if v.r.fn = 0 then iv.lo else iv.hi)) false)

/-- DXFM (11 R234). -/
def dxfm (a b : Pair) (lit : BitVec 32) : Ival :=
  if bit lit 20 then
    ⟨(slice a 0 48).toInt, (slice b 0 48).toInt⟩
  else
    let m : Int := (slice lit 0 16).toNat
    let d : Int := 2 ^ (slice lit 16 4).toNat
    let iv := pairIval a
    ⟨clampStamp (((iv.lo * m + (slice b 0 32).toInt) / d)), clampStamp ((iv.hi * m + (slice b 32 32).toInt) / d)⟩

/-- The description of the operator of an activation. -/
def Act.opDesc (a : Act) (x : Ctx) : OpDesc := (x.image.ops[a.op x]?).getD default

/-- The operator is unbounded (04 R90). -/
def OpDesc.unbounded (o : OpDesc) : Bool := o.state = 2

/-- The state of the operator of an activation. -/
def Act.opState (a : Act) (x : Ctx) : OpState := (x.ops[a.op x]?).getD default

/-- STSET (11 R235). -/
def stsetForm (_ : State) (a : Act) (v : View) : Fired :=
  if !(inStamps v.b.word.toInt) then .fault 7 4 0 0
  else give (a.effect v.j (.stset (stampOf v.b.word.toInt))) noFlags (Val.ofWord v.a.word)

/-- The count n of LAND and LREST. -/
def landBytes (r : Rec) : Nat := (slice r.lit 0 12).toNat

/-- The slot of a stamp in a landing area (11 R236). -/
def landSlot (c : Int) (l : Nat) : Nat := ((c / (max 1 l : Nat)) % 64).toNat

/-- The capability code of a landing area (11 R236). -/
def areaCode (s : State) (v : View) (p : Pair) (t : Bool) (perm : Nat) : Nat :=
  accessCode s v p t 0x01 perm (capCursor p) 262144 false (decide (capCursor p % 4096 = 0))

/-- LAND: the checks of its state and its area, then the read of the state (11 R236). -/
def landForm (s : State) (_ : Act) (v : View) : Fired :=
  let n := landBytes v.r
  let p := v.a.pair
  let k := accessCode s v p v.a.tagged 0x03 permLoad (capCursor p) n false true
  let k2 := areaCode s v v.b.pair v.b.tagged permStore
  if k ≠ 99 then capFault p k
  else if k2 ≠ 99 then capFault v.b.pair k2
  else .issue (capSpace p) (capCursor p) (.load n false)

/-- The 64 header bytes of a landing slot (11 R236). -/
def landHeader (c : Int) (n : Nat) : List Byte :=
  natBytes (BitVec.ofInt 64 c).toNat 8 ++ natBytes n 4 ++ natBytes 1 4 ++ List.replicate 48 0

/-- LAND when the state is read (11 R236). -/
def landReturn (s : State) (a : Act) (v : View) (x : Loaded) : Fired :=
  let c := a.w.stamp.toInt
  let slot := landSlot c (a.opDesc (s.ctx v.c)).landing
  .done (a.effect v.j (.landing (capCursor v.b.pair + 4096 * slot) c (landHeader c (landBytes v.r) ++ x.bytes)))
    noFlags none none

/-- LREST: its mode and checks, then the read of the slot (11 R237). -/
def lrestForm (s : State) (a : Act) (v : View) : Fired :=
  let n := landBytes v.r
  let p := v.a.pair
  let q := v.b.pair
  let k := accessCode s v p v.a.tagged 0x03 permStore (capCursor p) n true true
  let k2 := areaCode s v q v.b.tagged permLoad
  if !a.w.restore then .fault 7 8 0 0
  else if k ≠ 99 then capFault p k
  else if k2 ≠ 99 then capFault q k2
  else .issue 0 (capCursor q + 4096 * landSlot a.w.stamp.toInt (a.opDesc (s.ctx v.c)).landing) (.load (64 + n) false)

/-- LREST when the slot is read (11 R237, R238). -/
def lrestReturn (_ : State) (a : Act) (v : View) (x : Loaded) : Fired :=
  let n := landBytes v.r
  let p := v.a.pair
  if x.bytes.take 16 ≠ (landHeader a.w.stamp.toInt n).take 16 then .fault 7 1 0 0
  else
    let put (b : Act) (y : Nat × List Byte) : Act := b.store v.j (capSpace p) y.1 (.bytes y.2)
    .done ((splitBytes (n + 1) (capCursor p) (x.bytes.drop 64)).foldl put a) noFlags none none

/-- LFIND (11 R237). -/
def lfindForm (s : State) (a : Act) (v : View) : Fired :=
  let x := s.ctx v.c
  let at_ := v.a.word.toInt
  let ls := (a.opState x).landings.filter fun c => decide (c ≤ at_)
  match ls with
  | c :: t => .done a noFlags (some (Val.ofWord (BitVec.ofInt 64 (t.foldl max c)))) (some (Val.ofNat 1))
  | [] =>
    match (a.opDesc x).origin with
    | some o => .done a noFlags (some (Val.ofWord (BitVec.ofInt 64 o))) (some (Val.ofNat 2))
    | none => .done a noFlags (some (Val.ofNat 0)) (some (Val.ofNat 0))

/-- The run-mode bits of SILENT (11 R237). -/
def silentBits (x : Ctx) (a : Act) : Nat :=
  let o := a.opDesc x
  if !o.unbounded then 0
  else (if a.w.silent then 1 else 0) + (if a.w.restore then 2 else 0) + (if a.w.origin then 4 else 0) +
    (if a.w.stamp.toInt % (max 1 o.landing : Nat) = 0 then 8 else 0)

/-- DMD (11 R233). -/
def execDmd (r : Rec) (s : State) : Result State := fire .dmd r s dmdForm
/-- DGET (11 R234). -/
def execDget (r : Rec) (s : State) : Result State := fire .dget r s dgetForm
/-- DXFM (11 R234). -/
def execDxfm (r : Rec) (s : State) : Result State :=
  fire .dxfm r s fun _ a v => give a noFlags (Val.ofPair (ivalPair (dxfm v.a.pair v.b.pair v.r.lit)) false)
/-- STIME (11 R235). -/
def execStime (r : Rec) (s : State) : Result State :=
  fire .stime r s fun s a v =>
    give a noFlags (Val.ofWord (if (a.opDesc (s.ctx v.c)).unbounded then BitVec.ofInt 64 a.stime else sextTo 64 a.w.stamp))
/-- STSET (11 R235). -/
def execStset (r : Rec) (s : State) : Result State := fire .stset r s stsetForm
/-- LAND (11 R236). -/
def execLand (r : Rec) (s : State) : Result State := fire .land r s landForm
/-- LFIND (11 R237). -/
def execLfind (r : Rec) (s : State) : Result State := fire .lfind r s lfindForm
/-- LREST (11 R237). -/
def execLrest (r : Rec) (s : State) : Result State := fire .lrest r s lrestForm
/-- SILENT (11 R237). -/
def execSilent (r : Rec) (s : State) : Result State :=
  fire .silent r s fun s a v => give a noFlags (Val.ofNat (silentBits (s.ctx v.c) a))
/-- DDONE (11 R239). -/
def execDdone (r : Rec) (s : State) : Result State :=
  fire .ddone r s fun _ a v =>
    if !(inStamps v.a.word.toInt) || !(inStamps v.b.word.toInt) then .fault 7 4 0 0
    else .done (a.effect v.j (.ddone (slice v.r.lit 0 4).toNat ⟨v.a.word.toInt, v.b.word.toInt⟩)) noFlags none none

end Sys2Proof.Machine
end

