-- ==== Sys2Proof/Machine/Sync.lean ====
section
/-! DEFINITION. The meanings of group 0xD: barriers, copy tags, and the forms that start an engine (17 R315 to R323). -/
namespace Sys2Proof.Machine

/-! ### Barriers (17 R315) -/

/-- A barrier of a context in a bay, zero where nothing has touched it. -/
def Ctx.barrier (x : Ctx) (bay id : Nat) : Barrier :=
  (x.bars.find? fun b => b.bay = bay && b.id = id).getD ⟨bay, id, 0, 0, 0, 0, false, []⟩

/-- A barrier of a context replaced. -/
def Ctx.putBarrier (x : Ctx) (b : Barrier) : Ctx :=
  { x with bars := (x.bars.filter fun y => !(y.bay = b.bay && y.id = b.id)) ++ [b] }

/-- How often a barrier flips: the loop of R315 in one count, zero where it expects nothing. -/
def Barrier.flips (b : Barrier) : Nat :=
  if b.expArr = 0 then (if b.expBytes = 0 then 0 else b.bytes / b.expBytes.toNat)
  else if b.expBytes = 0 then b.arr / b.expArr.toNat
  else Nat.min (b.arr / b.expArr.toNat) (b.bytes / b.expBytes.toNat)

/-- A barrier after a contribution, its counts saturating at 16 and 40 bits (17 R315; log 30). -/
def Barrier.contribute (b : Barrier) (na nb : Nat) : Barrier :=
  let c : Barrier := { b with arr := min 0xFFFF (b.arr + na), bytes := min (2 ^ 40 - 1) (b.bytes + nb) }
  let n := c.flips
  { c with
    arr := c.arr - n * c.expArr.toNat
    bytes := c.bytes - n * c.expBytes.toNat
    phase := if n % 2 = 1 then !c.phase else c.phase
    waiters := if n = 0 then c.waiters else [] }

/-- The phase as a value. -/
def phaseVal (p : Bool) : Val := Val.ofNat (if p then 1 else 0)

/-- A record that waits on a unit completes and delivers a value to both destinations. -/
def State.completeWaiting (s : State) (u : UnitId) (j : Nat) (v : Val) : State :=
  match s.act u with
  | none => s
  | some a =>
    match a.info j with
    | none => s
    | some (_, r) => s.putAct u (a.complete s.clock.steps j r noFlags (some v) (some v))

/-- A contribution at a barrier of a context: a flip releases the BARWs registered on it, with the phase after that flip
(17 R315, R318). -/
def State.contribute (s : State) (c bay id na nb : Nat) : State :=
  let b := (s.ctx c).barrier bay id
  let b' := b.contribute na nb
  let s1 := s.modCtx c fun x => x.putBarrier b'
  if b.waiters ≠ [] && b'.waiters = [] then
    b.waiters.foldl (fun t w => t.completeWaiting w.1 w.2 (phaseVal (!b.phase))) s1
  else s1

/-- The expectations of a barrier set, then counted afresh (17 R316). -/
def State.expect (s : State) (c bay id arr bytes : Nat) : State :=
  let b := (s.ctx c).barrier bay id
  (s.modCtx c fun x =>
    x.putBarrier { b with expArr := BitVec.ofNat 16 arr, expBytes := BitVec.ofNat 40 bytes }).contribute c bay id 0 0

/-- The barrier of LIT. -/
def litBar (r : Rec) : Nat := (slice r.lit 0 7).toNat

/-- The bay of LIT for BARV: the own bay for 0x1FF. -/
def litBay (v : View) : Nat :=
  let b := (slice v.r.lit 7 9).toNat
  if b = 0x1FF then unitBay v.u else b

/-- The state word of BARQ (17 R316). -/
def Barrier.word (b : Barrier) : Word :=
  0#15 ++ BitVec.ofBool b.phase ++ BitVec.ofNat 16 (min 0xFFFF b.arr) ++ BitVec.ofNat 32 (min (2 ^ 32 - 1) b.bytes)

/-- BARW (17 R318). -/
def barwForm (s : State) (a : Act) (v : View) : Fired :=
  let x := s.ctx v.c
  let b := x.barrier (unitBay v.u) (litBar v.r)
  if b.phase ≠ v.b.truth then give a noFlags (phaseVal b.phase)
  else if b.waiters.contains (v.u, v.j) then .wait
  else .waitCtx (x.putBarrier { b with waiters := b.waiters ++ [(v.u, v.j)] })

/-! ### Copy tags (17 R319) -/

/-- The copy tags of a context in a bay. -/
def Ctx.copyTags (x : Ctx) (bay : Nat) : CopyTags :=
  (x.tags.find? fun t => t.bay = bay).getD ⟨bay, 0, List.replicate 64 0⟩

/-- The copy tags of a context in a bay replaced. -/
def Ctx.putTags (x : Ctx) (t : CopyTags) : Ctx := { x with tags := (x.tags.filter fun y => y.bay ≠ t.bay) ++ [t] }

/-- An operation under a tag begins: the bit clears and the count rises. -/
def CopyTags.raise (t : CopyTags) (n : Nat) : CopyTags :=
  { t with bitmap := t.bitmap &&& ~~~(1#64 <<< n), counts := modAt t.counts n (· + 1) }

/-- An operation under a tag completes: the count falls, and at 0 the bit is set. -/
def CopyTags.lower (t : CopyTags) (n : Nat) : CopyTags :=
  let cs := modAt t.counts n (· - 1)
  { t with counts := cs, bitmap := if cs.getD n 0 = 0 then t.bitmap ||| (1#64 <<< n) else t.bitmap }

/-- TCLR at commit: the bits of a mask that have no outstanding operation are cleared. -/
def CopyTags.clear (t : CopyTags) (m : Word) : CopyTags :=
  let keep (b : Word) (i : Nat) : Word := if bit m i && t.counts.getD i 0 = 0 then b &&& ~~~(1#64 <<< i) else b
  { t with bitmap := (List.range 64).foldl keep t.bitmap }

/-- The bits of the mask that the bitmap of the issuing bay has set. -/
def tagBits (s : State) (v : View) : Word := ((s.ctx v.c).copyTags (unitBay v.u)).bitmap &&& v.b.word

/-- TWALL and TWANY: all of the mask, or any. -/
def tagWaitForm (all : Bool) (s : State) (a : Act) (v : View) : Fired :=
  let m := tagBits s v
  let ok := if all then decide (m = v.b.word) else decide (m ≠ 0) || decide (v.b.word = 0)
  if ok then give a noFlags (Val.ofWord m) else .wait

/-- TFFR. -/
def tffrForm (s : State) (a : Act) (v : View) : Fired :=
  let m := tagBits s v
  give a noFlags (Val.ofNat (((List.range 64).find? fun i => bit m i).getD 64))

/-! ### Engines (17 R320 to R323) -/

/-- The capability code of a range of n bytes from a cursor, aligned to al (17 R320; 11 R240). -/
def rangeCode (s : State) (v : View) (c : Val) (spaces : BitVec 8) (store : Bool) (n al : Nat) : Nat :=
  let p := c.pair
  let x := capCursor p
  let k := accessCode s v p c.tagged spaces (if store then permStore else permLoad) x n store (decide (x % al = 0))
  if k ≠ 99 then k else if capSpace p = 4 && decide (2 ^ 56 < x + n) then 8 else 99

/-- A record whose source and destination ranges pass starts an engine operation at commit. -/
def engineStart (s : State) (a : Act) (v : View) (k : EngineKind) (sa da : BitVec 8) (sn dn sal dal : Nat) : Fired :=
  let c1 := rangeCode s v v.a sa false sn sal
  let c2 := rangeCode s v v.b da true dn dal
  if c1 ≠ 99 then capFault v.a.pair c1
  else if c2 ≠ 99 then capFault v.b.pair c2
  else .done (a.effect v.j (.engine k v.a.pair v.b.pair (slice v.r.lit 0 6).toNat (slice v.r.lit 6 7).toNat (bit v.r.lit 13)))
    noFlags none none

/-- CPY (17 R320, R321). -/
def cpyForm (s : State) (a : Act) (v : View) : Fired :=
  let n := (v.k a).word.toNat
  if n = 0 || decide (2 ^ 30 < n) then .fault 4 24 0 0 else engineStart s a v (.cpy n) 0x1B 0x1B n n 1 1

/-- CPYQ (17 R320, R321): one course a row is checked at fire, the rest where the format is known (log 31); space 1 is untyped when the
record fires (11 R401). -/
def cpyqForm (s : State) (a : Act) (v : View) : Fired :=
  let n := (v.k a).word.toNat
  if n % 64 ≠ 0 then .fault 4 24 0 0
  else match engineStart s a v (.cpyq (v.r.fn = 1) n) 0x03 0x03 (59 * n + 64) 3840 64 64 with
    | .done b f d0 d1 => if capSpace v.a.pair = 1 || capSpace v.b.pair = 1 then .fault 4 7 0 0 else .done b f d0 d1
    | f => f

/-- CXPT (17 R320, R322). -/
def cxptForm (s : State) (a : Act) (v : View) : Fired :=
  let n := (v.k a).word.toNat
  if n = 0 || decide (262144 < n) then .fault 4 24 0 0
  else engineStart s a v (.cxpt n) 0x01 0x03 (4096 * n) (8 * n) 4096 8

/-- The code of a COLL descriptor's lanes: 23 is "collective" (17 R323). -/
def collCode (s : State) (op : Nat) (l : List Int) : Nat :=
  let at_ (i : Nat) : Int := l.getD i 0
  let n := at_ 0
  let dev (i : Int) : Int := at_ 5 + i * at_ 6
  let within (lo x hi : Int) : Bool := decide (lo ≤ x) && decide (x ≤ hi)
  let ok :=
    within 2 n 4096 && within 0 (at_ 1) (n - 1) && within 1 (at_ 2) (2 ^ 24) && within 0 (at_ 3) 2 && within 0 (at_ 4) 65535 &&
    within 0 (dev 0) (2 ^ 22 - 1) && within 0 (dev (n - 1)) (2 ^ 22 - 1) &&
    (if op = 3 then within 0 (at_ 7) (n - 1) else decide (at_ 7 = 0)) &&
    ((List.range 7).all fun i => decide (at_ (8 + i) = 0)) &&
    decide (dev (at_ 1) = (s.links.id.toNat : Int)) &&
    !(s.net.engines.any fun e => match e.kind with
      | .coll _ _ _ _ _ g _ _ _ => decide ((g : Int) = at_ 4)
      | _ => false)
  if ok then 99 else 23

/-- The bytes of the source and the destination of a collective (17 R323). -/
def collBytes (op n count : Nat) : Nat × Nat :=
  match op with
  | 0 => (4 * count, 4 * n * count)
  | 1 => (4 * n * count, 4 * count)
  | _ => (4 * count, 4 * count)

/-- COLL (17 R323): op is 0 gather, 1 rsum, 2 asum, 3 bcast. -/
def collForm (op : Nat) (s : State) (a : Act) (v : View) : Fired :=
  let d := (v.k a).bits
  let k := checkTyped .i32 d
  let l := laneInts .i32 d
  let at_ (i : Nat) : Nat := (l.getD i 0).toNat
  let step := l.getD 6 0
  if k ≠ 99 then .fault 4 k 0 0
  else if collCode s op l ≠ 99 then .fault 4 23 0 0
  else
    let z := collBytes op (at_ 0) (at_ 2)
    engineStart s a v (.coll op (at_ 0) (at_ 1) (at_ 2) (at_ 3) (at_ 4) (at_ 5) step (at_ 7)) 0x01 0x01 z.1 z.2 4 4

/-- CPY (17 R320). -/
def execCpy (r : Rec) (s : State) : Result State := fire .cpy r s cpyForm
/-- CPYQ (17 R320). -/
def execCpyq (r : Rec) (s : State) : Result State := fire .cpyq r s cpyqForm
/-- TWALL (17 R319). -/
def execTwall (r : Rec) (s : State) : Result State := fire .twall r s (tagWaitForm true)
/-- TWANY (17 R319). -/
def execTwany (r : Rec) (s : State) : Result State := fire .twany r s (tagWaitForm false)
/-- TFFR (17 R319). -/
def execTffr (r : Rec) (s : State) : Result State := fire .tffr r s tffrForm
/-- TCLR (17 R319). -/
def execTclr (r : Rec) (s : State) : Result State :=
  fire .tclr r s fun _ a v => .done (a.effect v.j (.tclr v.b.word)) noFlags none none
/-- BARI (17 R316). -/
def execBari (r : Rec) (s : State) : Result State :=
  fire .bari r s fun _ a v =>
    .done (a.effect v.j (.bari (litBar v.r) (slice v.a.word 0 16).toNat (slice v.b.word 0 40).toNat)) noFlags none none
/-- BARV (17 R316). -/
def execBarv (r : Rec) (s : State) : Result State :=
  fire .barv r s fun _ a v =>
    .done (a.effect v.j (.barv (litBay v) (litBar v.r) (slice v.b.word 0 40).toNat)) noFlags none none
/-- BARW (17 R318). -/
def execBarw (r : Rec) (s : State) : Result State := fire .barw r s barwForm
/-- BARQ (17 R316). -/
def execBarq (r : Rec) (s : State) : Result State :=
  fire .barq r s fun s a v =>
    give a noFlags (Val.ofWord ((s.ctx v.c).barrier (unitBay v.u) (litBar v.r)).word)
/-- COLL.gather (17 R323). -/
def execCollGather (r : Rec) (s : State) : Result State := fire .collGather r s (collForm 0)
/-- COLL.rsum (17 R323). -/
def execCollRsum (r : Rec) (s : State) : Result State := fire .collRsum r s (collForm 1)
/-- COLL.asum (17 R323). -/
def execCollAsum (r : Rec) (s : State) : Result State := fire .collAsum r s (collForm 2)
/-- COLL.bcast (17 R323). -/
def execCollBcast (r : Rec) (s : State) : Result State := fire .collBcast r s (collForm 3)
/-- CXPT (17 R320). -/
def execCxpt (r : Rec) (s : State) : Result State := fire .cxpt r s cxptForm

end Sys2Proof.Machine
end

