-- ==== Sys2Proof/Machine/Sparse.lean ====
section
/-! DEFINITION. The meanings of group 0xE: fibres, sparse accumulators, sequences and softmax triples (15 R284 to R303). -/
namespace Sys2Proof.Machine

/-! ### Fibre words (15 R284, R285) -/

/-- A coordinate word is a stop. -/
def isStop (c : Nat) : Bool := decide (0xFFFFFFF0 ≤ c) && decide (c ≤ 0xFFFFFFF7)
/-- A coordinate word is an element. -/
def isElem (c : Nat) : Bool := decide (c < 0xFFFFFFF0)
/-- The pad word. -/
def padWord : Nat := 0xFFFFFFFF

/-- The coordinate word of a fibre token. -/
def fibreCoord (v : Val) : Nat := (slice v.bits 0 32).toNat
/-- The value lane of a fibre token. -/
def fibreLane (v : Val) : Nat := (slice v.bits 32 32).toNat
/-- A fibre token; a stop's value lane is 0. -/
def fibreTok (c x : Nat) : Val := Val.ofNat (c + 2 ^ 32 * (if isStop c then 0 else x))

/-- Two elements in a row without a stop between are out of order. -/
def fibreBad (prev : Option Nat) (c : Nat) : Bool :=
  match prev with
  | some p => isElem c && decide (c ≤ p)
  | none => false

/-! ### XSECT (15 R288) -/

/-- The answer of the intersection unit: what it delivers with the advances of X and Y, a wait, a fault code of class format,
or a breach of ring q. -/
inductive XAnswer where
  | out (p : Nat) (nx ny : Nat) | wait | bad (code q : Nat) | breach (q : Nat)
  deriving DecidableEq, Repr, Inhabited

/-- The loop of XSECT: n and m entries of X and Y passed so far, px and py the last elements passed. -/
def xsectLoop (fuel : Nat) (x : Ctx) (a : Act) (j qx qy n m : Nat) (px py : Option Nat) : XAnswer :=
  match fuel with
  | 0 => .wait
  | k + 1 =>
    match ringRead x a j qx n with
    | .wait => .wait
    | .breach => .breach qx
    | .reserved => .bad 15 qx
    | .val u =>
      let cx := fibreCoord u
      if fibreBad px cx then .bad 16 0
      else match ringRead x a j qy m with
        | .wait => .wait
        | .breach => .breach qy
        | .reserved => .bad 15 qy
        | .val w =>
          let cy := fibreCoord w
          if fibreBad py cy then .bad 16 0
          else if isStop cx && isStop cy then
            if cx ≠ cy then .bad 17 0 else .out cx (n + 1) (m + 1)
          else if isStop cx then xsectLoop k x a j qx qy n (m + 1) px (some cy)
          else if isStop cy then xsectLoop k x a j qx qy (n + 1) m (some cx) py
          else if cx < cy then xsectLoop k x a j qx qy (n + 1) m (some cx) py
          else if cy < cx then xsectLoop k x a j qx qy n (m + 1) px (some cy)
          else .out (cx + 2 ^ 32 * fibreLane u + 2 ^ 64 * fibreLane w) (n + 1) (m + 1)

/-- XSECT. -/
def xsectForm (s : State) (a : Act) (v : View) : Fired :=
  let qx := (slice v.r.lit 0 4).toNat
  let qy := (slice v.r.lit 4 4).toNat
  match xsectLoop 8194 (s.ctx v.c) a v.j qx qy 0 0 none none with
  | .wait => .wait
  | .bad k q => .fault 4 k q 0
  | .breach q => .fault 6 14 q 0
  | .out p n m =>
    give { a with moves := a.moves ++ [⟨v.j, qx, true, n⟩, ⟨v.j, qy, true, m⟩] } noFlags (Val.ofPair (BitVec.ofNat 128 p) false)

/-! ### FIBRD, FIBWR, STOPN (15 R289 to R291) -/

/-- The ring of AX[3:0]. -/
def axRing (r : Rec) : Nat := (slice r.ax 0 4).toNat

/-- FIBRD: its access. -/
def fibrdForm (s : State) (a : Act) (v : View) : Fired :=
  loadForm (fun _ => 0x1B) permLoad (fun _ => 128) (fun _ => 64) (fun v => litOff v.r) (fun _ => .load 128 false) s a v

/-- The tokens of a fibre block, or a code of class format (15 R284). -/
def fibreTokens (c w : Course) (lanes : List Nat) (prev : Option Nat) : Except Nat (List Val) :=
  match lanes with
  | [] => .ok []
  | i :: t =>
    let k := laneRaw 32 c i
    if k = padWord then fibreTokens c w t prev
    else if !(isElem k) && !(isStop k) then .error 15
    else if fibreBad prev k then .error 16
    else match fibreTokens c w t (if isElem k then some k else none) with
      | .error e => .error e
      | .ok l => .ok (fibreTok k (laneRaw 32 w i) :: l)

/-- FIBRD when its block returns: its tokens written to the ring, or a wait for its slots. -/
def fibrdReturn (s : State) (a : Act) (v : View) (y : Loaded) : Fired :=
  let c := bytesCourse (y.bytes.take 64)
  let w := bytesCourse (y.bytes.drop 64)
  let k := firstCode
    [ (crsFmt c ≠ 0x20 || crsFmt w ≠ 0x21, 15),
      (slice c 496 4 ≠ 0 || slice w 496 4 ≠ 0, 4) ]
  let q := axRing v.r
  if k ≠ 99 then .fault 4 k 0 0
  else match fibreTokens c w (List.range 15) none with
    | .error e => .fault 4 e 0 0
    | .ok l =>
      match ringSpot (s.ctx v.c) a v.j q 0 l.length with
      | .wait => .wait
      | .breach => .fault 6 14 q 0
      | .at_ n =>
        let ws := l.zipIdx.map fun x => (⟨v.j, q, n + x.2, x.1⟩ : RingWrite)
        .done { a with rwrites := a.rwrites ++ ws, moves := a.moves ++ [⟨v.j, q, false, l.length⟩] } noFlags
          (some (Val.ofNat l.length)) none

/-- The tokens that FIBWR takes from offset n on, at most fuel, ending with a stop; or the answer that stops it. -/
def fibreTake (fuel : Nat) (x : Ctx) (a : Act) (j q n : Nat) : Except Fired (List Val) :=
  match fuel with
  | 0 => .ok []
  | k + 1 =>
    match ringRead x a j q n with
    | .wait => .error .wait
    | .breach => .error (.fault 6 14 q 0)
    | .reserved => .error (.fault 4 15 q 0)
    | .val v =>
      let c := fibreCoord v
      if isStop c then .ok [v]
      else match fibreTake k x a j q (n + 1) with
        | .error e => .error e
        | .ok l => .ok (v :: l)

/-- The fibre block of at most 15 tokens: its coordinate and value course. -/
def fibreBlock (l : List Val) : Course × Course :=
  let c := (l.map fibreCoord) ++ List.replicate (15 - l.length) padWord
  let w := l.map fun v => if isStop (fibreCoord v) then 0 else fibreLane v
  (mkCourse 0x20 127 0 32 c, mkCourse 0x21 127 0 32 w)

/-- FIBWR. -/
def fibwrForm (s : State) (a : Act) (v : View) : Fired :=
  let p := v.b.pair
  let x := accessAddr p (litOff v.r)
  let q := axRing v.r
  let k := accessCode s v p v.b.tagged 0x1B permStore x 128 true (decide (x % 64 = 0))
  if k ≠ 99 then capFault p k
  else match fibreTake 15 (s.ctx v.c) a v.j q 0 with
    | .error f => f
    | .ok l =>
      let y := fibreBlock l
      let b := (a.store v.j (capSpace p) x (.course y.1)).store v.j (capSpace p) ((x + 64) % 2 ^ 72) (.course y.2)
      .done { b with moves := b.moves ++ [⟨v.j, q, true, l.length⟩] } noFlags (some (Val.ofNat l.length)) none

/-- The number STOPN delivers for a coordinate word. -/
def stopLevel (c : Nat) : Nat := if isElem c then 0 else if isStop c then c - 0xFFFFFFF0 + 1 else 9

/-! ### Sparse accumulators (15 R292 to R294) -/

/-- A sparse accumulator of an element, empty where nothing has touched it. -/
def ElemCtx.spa (e : ElemCtx) (i : Nat) : Spa := (e.spas.find? fun p => p.id = i).getD ⟨i, []⟩

/-- A coordinate's lane with a value added: the lane becomes the value when unoccupied, else their rounded sum. -/
def spaLane (l : List (Nat × BitVec 32)) (c : Nat) (v : BitVec 32) : BitVec 32 × BitVec 6 :=
  match l.find? fun x => x.1 = c with
  | none => (v, noFlags)
  | some x =>
    let s := addNum 0 (readFmt f32 x.2.toNat) (readFmt f32 v.toNat)
    let y := roundFmt f32 0 s.1
    (BitVec.ofNat 32 y.1, s.2 ||| y.2)

/-- The lanes of an accumulator with one coordinate written, ascending. -/
def spaPut (l : List (Nat × BitVec 32)) (c : Nat) (v : BitVec 32) : List (Nat × BitVec 32) :=
  match l with
  | [] => [(c, v)]
  | x :: t => if c < x.1 then (c, v) :: x :: t else if c = x.1 then (c, v) :: t else x :: spaPut t c v

/-- An effect applied to an accumulator: SPACC adds, SPFL empties. -/
def Spa.apply (p : Spa) (e : Effect) : Spa :=
  match e with
  | .spacc i c v => if i = p.id then { p with vals := spaPut p.vals c (spaLane p.vals c v).1 } else p
  | .spfl i => if i = p.id then { p with vals := [] } else p
  | _ => p

/-- The accumulator i as record j of an activation sees it: the element's, with the lower records' effects in order. -/
def spaSeen (s : State) (a : Act) (v : View) (i : Nat) : Spa :=
  ((sortBy (fun e => e.1) (a.effects.filter fun e => decide (e.1 < v.j))).map (·.2)).foldl Spa.apply
    (((s.ctx v.c).elem v.u).spa i)

/-- The accumulator of LIT. -/
def litSpa (r : Rec) : Nat := (slice r.lit 0 2).toNat

/-- A float operand converted exactly to binary32; a binary32 operand is taken as it is. -/
def toF32 (ty : Ty) (w : Word) : BitVec 32 × BitVec 6 :=
  if ty = .f32 then (slice w 0 32, noFlags)
  else
    let x := floatIn ty w
    (BitVec.ofNat 32 (roundFmt f32 0 x).1, flagIf x.isSig flagNv)

/-- SPACC. -/
def spaccForm (s : State) (a : Act) (v : View) : Fired :=
  let c := (slice v.a.word 0 32).toNat
  let i := litSpa v.r
  let x := toF32 v.r.ty v.b.word
  if 4096 ≤ c then .fault 4 18 0 0
  else .done (a.effect v.j (.spacc i c x.1)) (x.2 ||| (spaLane (spaSeen s a v i).vals c x.1).2) none none

/-- The value lane that SPFL emits by type. -/
def spaOut (ty : Ty) (x : BitVec 32) : Nat × BitVec 6 :=
  if ty = .f32 then (x.toNat, noFlags)
  else
    let n := readFmt f32 x.toNat
    let y := roundFmt (fmtOf ty) 0 n
    (y.1, y.2 ||| flagIf n.isSig flagNv)

/-- SPFL. -/
def spflForm (s : State) (a : Act) (v : View) : Fired :=
  let i := litSpa v.r
  let q := axRing v.r
  let vals := (spaSeen s a v i).vals
  let outs := vals.map fun x => (x.1, spaOut v.r.ty x.2)
  let toks := (outs.map fun x => fibreTok x.1 x.2.1) ++ [fibreTok (0xFFFFFFF0 + (slice v.r.lit 2 3).toNat) 0]
  let x := s.ctx v.c
  if ((x.ring? q).map (·.depth)).getD 0 < toks.length then .fault 4 19 0 0
  else match ringSpot x a v.j q 0 toks.length with
    | .wait => .wait
    | .breach => .fault 6 14 q 0
    | .at_ n =>
      let ws := toks.zipIdx.map fun y => (⟨v.j, q, n + y.2, y.1⟩ : RingWrite)
      let b : Act := { a with rwrites := a.rwrites ++ ws, moves := a.moves ++ [⟨v.j, q, false, toks.length⟩] }
      .done (b.effect v.j (.spfl i)) (outs.foldl (fun f y => f ||| y.2.2) noFlags) (some (Val.ofNat toks.length)) none

/-! ### Positions and sequences (15 R295, R296, R300) -/

/-- The address of the table entry that PXLT reads. -/
def pxltEntry (v : View) : Nat :=
  accessAddr v.b.pair (8 * (v.a.word.toInt / 2 ^ (slice v.r.lit 0 4).toNat))

/-- PXLT. -/
def pxltForm (s : State) (_ : Act) (v : View) : Fired :=
  let p := v.b.pair
  let x := pxltEntry v
  let k := accessCode s v p v.b.tagged 0x03 permLoad x 8 false (decide (x % 8 = 0))
  if v.a.word.toInt < 0 then capFault p 8 else if k ≠ 99 then capFault p k else .issue (capSpace p) x (.load 8 false)

/-- PXLT when its entry returns. -/
def pxltReturn (_ : State) (a : Act) (v : View) (y : Loaded) : Fired :=
  let e := bytesNat y.bytes
  let sh := (slice v.r.lit 0 4).toNat
  let pos := v.a.word.toNat
  let k := v.k a
  if e % 2 = 0 || e / 2 % 32 ≠ 0 then .fault 2 8 0 (pxltEntry v)
  else
    match capToCursor k.pair k.tagged ((e - 1 + pos % 2 ^ sh * 2 ^ (slice v.r.lit 4 4).toNat) % 2 ^ 72) with
    | .fault c x => .fault 2 c 0 x
    | .pair p t => .done a noFlags (some (Val.ofPair p t)) (some v.a)

/-- The courses that KVAPP appends to. -/
def kvCount (r : Rec) : Nat := (slice r.lit 0 4).toNat + 1

/-- KVAPP. -/
def kvappForm (s : State) (a : Act) (v : View) : Fired :=
  let p := v.a.pair
  let n := kvCount v.r
  let x := capCursor p
  let k := checkTyped .f32 (v.k a).bits
  let c := accessCode s v p v.a.tagged 0x01 permAtom x (64 * n) true (decide (x % 64 = 0))
  if v.b.word.toInt < 0 then .fault 4 20 0 0
  else if k ≠ 99 then .fault 4 k 0 0
  else if c ≠ 99 then capFault p c
  else .issue (capSpace p) x (.load (64 * n) false)

/-- The code of a course that KVAPP would update: format mismatch or scale (15 R296). -/
def kvCode (c : Course) : Nat :=
  match narrowTy (crsFmt c) with
  | none => 3
  | some ty => if isTaper ty && crsScale c = 255 then 21 else 99

/-- KVAPP when its courses return: each must be on a typed page and take the append. -/
def kvappReturn (_ : State) (a : Act) (v : View) (y : Loaded) : Fired :=
  let n := kvCount v.r
  let k := firstCode ((List.range n).map fun i =>
    let c := kvCode (bytesCourse ((y.bytes.drop (64 * i)).take 64))
    (c ≠ 99, c))
  if !y.typed then .fault 4 7 0 0
  else if k ≠ 99 then .fault 4 k 0 0
  else .done (a.effect v.j (.kvapp (capCursor v.a.pair) n v.b.word.toNat (effective (v.k a).bits))) noFlags none none

/-- The least E2 above E for which |v| / 2^E2 fits in a tapered code of n bits, at most 127 (15 R296). -/
def kvScale (fuel n : Nat) (v : FNum) (e : Int) : Int :=
  match fuel with
  | 0 => 127
  | k + 1 => if (taperEncode n (.dir 0) (v.scaleBy (-e))).2 &&& flagSat = 0 then e else if 127 ≤ e then 127 else kvScale k n v (e + 1)

/-- One course updated by KVAPP at its home slice: the course, its flags, whether it rescaled (15 R296); its lane of tK and the elements
that it decodes are flushed as they are read (03 R56). -/
def kvAppend (c : Course) (pos : Nat) (v : BitVec 32) : Course × BitVec 6 × Bool :=
  let ty := (narrowTy (crsFmt c)).getD .f32
  let x := readFmt f32 (flushIn f32 v.toNat)
  let e := pos % ty.count
  let lanes := lanesRaw ty c
  if isTaper ty then
    let w := ty.width
    let e0 : Int := if crsZ c then scaleExp [x] else (crsScale c : Int) - 127
    let fits := (taperEncode w (.dir 0) (x.scaleBy (-e0))).2 &&& flagSat = 0
    let res := !(crsZ c) && !(x.isInf) && !fits
    let e2 := if res then kvScale 255 w x (e0 + 1) else e0
    let old := lanes.zipIdx.map fun y =>
      if res && y.2 ≠ e then taperEncode w (.dir 0) ((readFmt f32 (flushIn f32 (taperDecode w (crsScale c) y.1).1)).scaleBy (-e2)) else (y.1, noFlags)
    let new := taperEncode w (.dir 0) (x.scaleBy (-e2))
    let ls := modAt old e fun _ => new
    (mkCourse (crsFmt c) (e2 + 127).toNat (tailOf (crsL c) (crsK c) (crsQ c || res)) w (ls.map (·.1)), orFlags ls, res)
  else
    let y := laneFmt (fmtOf ty) x
    (mkCourse (crsFmt c) (crsScale c) (tailOf (crsL c) (crsK c) (crsQ c)) ty.width (modAt lanes e fun _ => y.1),
      y.2 ||| flagIf x.isSig flagNv, false)

/-- KVLEN: it reads the record's first words. -/
def kvlenForm (s : State) (_ : Act) (v : View) : Fired :=
  let p := v.a.pair
  let x := capCursor p
  let c := accessCode s v p v.a.tagged 0x01 permAtom x 16 true (decide (x % 64 = 0))
  if v.b.word.toInt < -1 then .fault 4 20 0 0
  else if c ≠ 99 then capFault p c
  else .issue (capSpace p) x (.load 16 false)

/-- KVLEN when the words return. -/
def kvlenReturn (s : State) (a : Act) (v : View) (y : Loaded) : Fired :=
  let p := v.a.pair
  let n := fieldAt y.bytes 8 8
  let layer := (slice v.r.lit 0 6).toNat
  let pos := v.b.word.toInt
  let c := accessCode s v p v.a.tagged 0x01 permAtom (capCursor p) (8 * (n + 2)) true true
  let b := if 0 ≤ pos then a.effect v.j (.kvlen (capCursor p) layer n pos.toNat) else a
  if y.typed then .fault 4 8 0 0
  else if n ≤ layer then .fault 4 22 0 0
  else if c ≠ 99 then capFault p c
  else .done b noFlags (some (Val.ofNat (fieldAt y.bytes 0 8))) (some (Val.ofWord v.a.word))

/-! ### Softmax triples (15 R301 to R303) -/

/-- A scalar of a triple: m is the low half, s the high half. -/
def tripM (v : Val) : FNum := readFmt f32 (slice v.bits 0 32).toNat
/-- s of a triple. -/
def tripS (v : Val) : FNum := readFmt f32 (slice v.bits 32 32).toNat

/-- The factor exp2(m - top) as a binary32 number (15 R302). -/
def tripFactor (m top : FNum) : Nat × BitVec 6 :=
  if m.isInf && top.isInf && m = top then ((roundFmt f32 0 (FNum.ofInt 1)).1, noFlags)
  else
    let d := addNum 0 m top.negate
    let x := exp2Num d.1
    let y := roundFmt f32 0 x.1
    (y.1, x.2 ||| y.2)

/-- The sum x f1 + y f2, exact but for the products' own special cases. -/
def tripSum (x y f1 f2 : FNum) : FNum × BitVec 6 :=
  let p := mulNum x f1
  let q := mulNum y f2
  let z := addNum 0 p.1 q.1
  (z.1, p.2 ||| q.2 ||| z.2)

/-- A scalar token of m and s. -/
def tripWord (m s : Nat) : Val := Val.ofNat (m + 2 ^ 32 * s)

/-- The merge of two triples: course, token and flags (15 R302). -/
def tripMerge (a1 a2 : COp) (k j : Val) : Course × Val × BitVec 6 :=
  let m1 := tripM k
  let m2 := tripM j
  let low (x : FNum) : Bool := x = .inf true
  if m1.isNan || m2.isNan then
    (mkCourse 0x0A 127 0 32 (List.replicate 15 f32.nanBits), tripWord f32.nanBits f32.nanBits, flagIf (m1.isSig || m2.isSig) flagNv)
  else if low m1 && low m2 then (mkCourse 0x0A 127 0 32 (List.replicate 15 0), tripWord (f32.sign true + f32.infBits) 0, noFlags)
  else if low m1 then (a2.raw, Val.ofWord j.word, noFlags)
  else if low m2 then (a1.raw, Val.ofWord k.word, noFlags)
  else
    let m := (maxNum m1 m2).1
    let mb := if m.isZero then 0 else (roundFmt f32 0 m).1
    let f1 := tripFactor m1 m
    let f2 := tripFactor m2 m
    let g1 := readFmt f32 f1.1
    let g2 := readFmt f32 f2.1
    let s := tripSum (tripS k) (tripS j) g1 g2
    let sb := roundFmt f32 0 s.1
    let ls := (a1.nums.zip a2.nums).map fun x => tripSum x.1 x.2 g1 g2
    let ys := ls.map fun x => laneFmt f32 x.1
    (mkCourse 0x0A 127 0 32 (ys.map (·.1)), tripWord mb sb.1,
      f1.2 ||| f2.2 ||| s.2 ||| sb.2 ||| ls.foldl (fun f x => f ||| x.2) noFlags ||| orFlags ys)

/-- A course operand of a triple: L must be 0 (15 R301). -/
def tripCourse (c : Course) : Except Nat COp :=
  match readCourse .f32 c with
  | .error k => .error k
  | .ok o => if o.l ≠ 0 then .error 5 else .ok { o with raw := c }

/-- SMXM. -/
def smxmForm (_ : State) (a : Act) (v : View) : Fired :=
  match tripCourse v.a.bits, tripCourse v.b.bits with
  | .error k, _ => .fault 4 k 0 0
  | _, .error k => .fault 4 k 0 0
  | .ok x, .ok y =>
    let z := tripMerge x y (v.k a) (a.temp v.j (slice v.r.ax 3 3).toNat)
    .done a z.2.2 (some (Val.ofCourse z.1)) (some z.2.1)

/-- SMXF. -/
def smxfForm (_ : State) (a : Act) (v : View) : Fired :=
  match tripCourse v.a.bits with
  | .error k => .fault 4 k 0 0
  | .ok x =>
    let s := tripS v.b
    let ds := x.nums.map fun y => divNum y s
    let ys := ds.map fun y => laneFmt f32 y.1
    give a (ds.foldl (fun f y => f ||| y.2) noFlags ||| orFlags ys) (Val.ofCourse (mkCourse 0x0A 127 0 32 (ys.map (·.1))))

/-- XSECT (15 R288). -/
def execXsect (r : Rec) (s : State) : Result State := fire .xsect r s xsectForm
/-- FIBRD (15 R289). -/
def execFibrd (r : Rec) (s : State) : Result State := fire .fibrd r s fibrdForm
/-- FIBWR (15 R290). -/
def execFibwr (r : Rec) (s : State) : Result State := fire .fibwr r s fibwrForm
/-- STOPN (15 R291). -/
def execStopn (r : Rec) (s : State) : Result State :=
  fire .stopn r s fun _ a v => give a noFlags (Val.ofNat (stopLevel (slice v.a.word 0 32).toNat))
/-- SPACC (15 R293). -/
def execSpacc (r : Rec) (s : State) : Result State := fire .spacc r s spaccForm
/-- SPFL (15 R294). -/
def execSpfl (r : Rec) (s : State) : Result State := fire .spfl r s spflForm
/-- PXLT (15 R295). -/
def execPxlt (r : Rec) (s : State) : Result State := fire .pxlt r s pxltForm
/-- KVAPP (15 R296). -/
def execKvapp (r : Rec) (s : State) : Result State := fire .kvapp r s kvappForm
/-- KVLEN (15 R300). -/
def execKvlen (r : Rec) (s : State) : Result State := fire .kvlen r s kvlenForm
/-- SMXM (15 R302). -/
def execSmxm (r : Rec) (s : State) : Result State := fire .smxm r s smxmForm
/-- SMXF (15 R303). -/
def execSmxf (r : Rec) (s : State) : Result State := fire .smxf r s smxfForm

end Sys2Proof.Machine
end

