-- ==== Sys2Proof/Machine/Matrix.lean ====
section
/-! DEFINITION. The meanings of group 0xC: weights, tasks and accumulator nodes (13 R255 to R274). -/
namespace Sys2Proof.Machine

/-! ### Nodes (13 R258 to R261) -/

/-- A node of a context in a bay, unconfigured where the loader made none. -/
def Ctx.node (x : Ctx) (bay id : Nat) : Node :=
  (x.nodes.find? fun n => n.bay = bay && n.id = id).getD ⟨bay, id, 0, 0, false, 0, 0, false, [], [], 0, [], []⟩

/-- A node of a context changed. -/
def Ctx.modNode (x : Ctx) (bay id : Nat) (f : Node → Node) : Ctx :=
  { x with nodes := x.nodes.map fun n => if n.bay = bay && n.id = id then f n else n }

/-- The courses of a node row. -/
def Node.width (n : Node) : Nat := (n.cols + 14) / 15

/-- The bytes of a node's rows. -/
def Node.size (n : Node) : Nat := n.rows * n.width * 64

/-- A lane of a node. -/
def Node.lane (n : Node) (row col : Nat) : BitVec 32 := getKey n.lanes (row, col) 0

/-- A lane of a node written; a lane at +0 is not listed. -/
def Node.putLane (n : Node) (row col : Nat) (v : BitVec 32) : Node :=
  let rest := n.lanes.filter fun x => x.1 ≠ (row, col)
  { n with lanes := if v = 0 then rest else rest ++ [((row, col), v)] }

/-- The tail of a node row. -/
def Node.tail (n : Node) (row : Nat) : BitVec 16 := getKey n.tails row 0

/-- The tail of a node row written. -/
def Node.putTail (n : Node) (row : Nat) (v : BitVec 16) : Node :=
  let rest := n.tails.filter fun x => x.1 ≠ row
  { n with tails := if v = 0 then rest else rest ++ [(row, v)] }

/-- add_lane (13 R258): flush(rne(acc + v)). -/
def Node.addLane (n : Node) (row col : Nat) (v : FNum) : Node × BitVec 6 :=
  let s := addNum 0 (readFmt f32 (n.lane row col).toNat) v
  let y := laneFmt f32 s.1
  (n.putLane row col (BitVec.ofNat 32 y.1), s.2 ||| y.2)

/-- The course of a node row from a column: lanes at or beyond cols are +0 (13 R271, R272). -/
def Node.course (n : Node) (row col : Nat) : Course :=
  mkCourse 0x0A 127 (n.tail row) 32
    ((List.range 15).map fun i => if col + i < n.cols then (n.lane row (col + i)).toNat else 0)

/-- Lanes 0 to 14 of a course added to a node row from a column (13 R271). -/
def Node.addCourse (n : Node) (row col : Nat) (c : Course) : Node × BitVec 6 :=
  (List.range 15).foldl
    (fun acc i =>
      if col + i < n.cols then
        let y := acc.1.addLane row (col + i) (laneNum .f32 c i).1
        (y.1, acc.2 ||| y.2)
      else acc) (n, noFlags)

/-- The bay of the node that a task accumulates into: its home position in the hall of the queue (13 R263). -/
def Task.nodeBay (t : Task) (d : TaskDesc) : Nat := hallOfBay t.bay * 7 + d.home

/-- The node of a task record. -/
def Task.node? (t : Task) : Option (Nat × Nat) :=
  match t.kind with
  | .task _ _ d _ => some (t.nodeBay d, d.node)
  | .load _ _ => none

/-- The records queued or running for a node. -/
def Ctx.nodeTasks (x : Ctx) (bay id : Nat) : List Task := x.tasks.filter fun t => t.node? = some (bay, id)

/-- A record is running. -/
def Task.running (t : Task) : Bool :=
  match t.st with
  | .running _ _ _ => true
  | _ => false

/-- A node is idle: no record for it is queued or running and no release is queued (13 R273). -/
def Ctx.nodeIdle (x : Ctx) (bay id : Nat) : Bool :=
  decide (x.nodeTasks bay id = []) && decide ((x.node bay id).releases = [])

/-- No row tag of a node is running. -/
def Ctx.nodeStill (x : Ctx) (bay id : Nat) : Bool := (x.nodeTasks bay id).all fun t => !t.running

/-- A node after its reset by MZRO to a shape (13 R273). -/
def Node.zero (n : Node) (rows cols : Nat) (pair : Bool) : Node :=
  { n with rows := rows, cols := cols, pair := pair, lanes := [], tails := [], got := 0, lastKc := [] }

/-! ### Descriptors (13 R263, R264, R270) -/

/-- The payload of a descriptor course as bits [319:128] of a record and on. -/
def descField (c : Course) (lo n : Nat) : Nat := (slice (payload c) lo n).toNat

/-- The element type of a format of A or B rows. -/
def rowTy (fmt : Nat) : Option Ty := narrowTy fmt

/-- The planes of a code p of a descriptor; none for CX.MPLN. -/
def planesOf (p : Nat) : Option Nat := if p = 0 then none else some (2 * p + 2)

/-- The descriptor of MTASK read from its course. -/
def readDesc (c : Course) : TaskDesc where
  node := descField c 0 6
  home := descField c 6 3
  w := descField c 9 4
  p := descField c 13 3
  m := descField c 32 9 + 1
  row0 := descField c 48 9
  col0 := descField c 64 10
  kc := descField c 96 8
  after := descField c 104 8
  as_ := descField c 112 8
  stride := descField c 128 32
  afmt := descField c 160 8
  k := descField c 168 8 + 1
  raw := slice (payload c) 0 192

/-- A descriptor breaks a rule of R263, R264 or R270. -/
def descBad (c : Course) : Bool :=
  let d := readDesc c
  decide (descField c 16 16 ≠ 0) || decide (descField c 41 7 ≠ 0) || decide (descField c 57 7 ≠ 0) ||
  decide (descField c 74 22 ≠ 0) || decide (descField c 120 8 ≠ 0) || decide (descField c 176 16 ≠ 0) ||
  decide (descField c 192 288 ≠ 0) || decide (6 ≤ d.p) || decide (d.home = 7) || (rowTy d.afmt).isNone ||
  decide (d.stride % 64 ≠ 0) || decide (240 < d.k) || decide (384 < d.m)

/-- The courses of a row of k elements of a format. -/
def rowCourses (fmt k : Nat) : Nat :=
  match rowTy fmt with
  | some ty => (k + ty.count - 1) / ty.count
  | none => 0

/-! ### The forms -/

/-- The node of LIT[5:0] in the issuing bay. -/
def litNode (r : Rec) : Nat := (slice r.lit 0 6).toNat
/-- The row of LIT[14:6]. -/
def litRow (r : Rec) : Nat := (slice r.lit 6 9).toNat
/-- The column of LIT[24:15]. -/
def litCol (r : Rec) : Nat := (slice r.lit 15 10).toNat

/-- The binding that MLDB describes (13 R256). -/
def bindingOf (s : State) (v : View) : Binding where
  ctx := (s.ctx v.c).stream
  bay := unitBay v.u
  cap := v.a.pair
  stride := v.b.word.toNat
  k := (slice v.r.lit 4 8).toNat + 1
  n := (slice v.r.lit 12 10).toNat + 1
  ty := v.r.ty
  b16 := v.r.fn = 1
  seq := 0

/-- MLDB completes with its binding. -/
def mldbDone (s : State) (a : Act) (v : View) : Fired :=
  .done (a.effect v.j (.mldb (slice v.r.lit 0 4).toNat (bindingOf s v))) noFlags none none

/-- MLDB at fire (13 R270): in space 0 its pages are read for their type. -/
def mldbForm (s : State) (a : Act) (v : View) : Fired :=
  let p := v.a.pair
  let b := bindingOf s v
  let x := capCursor p
  let k := accessCode s v p v.a.tagged 0x03 permLoad x (b.k * b.stride) false (decide (x % 64 = 0) && decide (b.stride % 64 = 0))
  if k ≠ 99 then capFault p k
  else if capSpace p = 1 then mldbDone s a v
  else .issue 0 x (.load (b.k * b.stride) false)

/-- MLDB when its pages are known. -/
def mldbReturn (s : State) (a : Act) (v : View) (y : Loaded) : Fired := if y.typed then mldbDone s a v else .fault 4 7 0 0

/-- MTASK at fire (13 R264, R270): 11 is "task". -/
def mtaskForm (s : State) (a : Act) (v : View) : Fired :=
  let c := (v.k a).bits
  let k := checkTyped .i32 c
  let d := readDesc c
  let p := v.a.pair
  let x := capCursor p
  let n := (d.m - 1) * d.stride + rowCourses d.afmt d.k * 64
  let q := accessCode s v p v.a.tagged 0x03 permLoad x n false (decide (x % 64 = 0))
  if k ≠ 99 then .fault 4 k 0 0
  else if descBad c then .fault 4 11 0 0
  else if q ≠ 99 then capFault p q
  else .done (a.effect v.j (.mtask p v.a.tagged d)) noFlags none none

/-- A place of a node row is outside its shape (13 R271): 12 is "node". -/
def rowOutside (n : Node) (row col : Nat) : Bool := decide (n.rows ≤ row) || decide (n.cols ≤ col)

/-- MROW (13 R271). -/
def mrowForm (s : State) (a : Act) (v : View) : Fired :=
  let n := (s.ctx v.c).node (unitBay v.u) (litNode v.r)
  if rowOutside n (litRow v.r) (litCol v.r) then .fault 4 12 0 0
  else give a noFlags (Val.ofCourse (n.course (litRow v.r) (litCol v.r)))

/-- MACC (13 R271). -/
def maccForm (s : State) (a : Act) (v : View) : Fired :=
  let n := (s.ctx v.c).node (unitBay v.u) (litNode v.r)
  let k := checkTyped .f32 v.a.bits
  if k ≠ 99 then .fault 4 k 0 0
  else if rowOutside n (litRow v.r) (litCol v.r) then .fault 4 12 0 0
  else .done (a.effect v.j (.macc (litNode v.r) (litRow v.r) (litCol v.r) v.a.bits)) noFlags none none

/-- The capability code of a node's area: its rows and more bytes (13 R272, R273). -/
def nodeArea (s : State) (v : View) (store : Bool) (more : Nat) : Nat :=
  let p := v.a.pair
  let n := (s.ctx v.c).node (unitBay v.u) (litNode v.r)
  let x := capCursor p
  accessCode s v p v.a.tagged 0x03 (if store then permStore else permLoad) x (n.size + more) store (decide (x % 64 = 0))

/-- MEOR at fire (13 R272). -/
def meorForm (s : State) (a : Act) (v : View) : Fired :=
  let n := v.b.word.toNat
  let k := nodeArea s v true 0
  if n = 0 || decide (65535 < n) then .fault 4 12 0 0
  else if k ≠ 99 then capFault v.a.pair k
  else .done (a.effect v.j (.meor (litNode v.r) (slice v.r.lit 6 7).toNat n v.a.pair)) noFlags none none

/-- MSPL at fire (13 R273). -/
def msplForm (s : State) (a : Act) (v : View) : Fired :=
  let k := nodeArea s v true 64
  if k ≠ 99 then capFault v.a.pair k
  else .done (a.effect v.j (.mspl (litNode v.r) (slice v.r.lit 6 7).toNat v.a.pair)) noFlags none none

/-- MRST at fire (13 R273): the image is read at commit. -/
def mrstForm (s : State) (a : Act) (v : View) : Fired :=
  let k := nodeArea s v false 64
  if k ≠ 99 then capFault v.a.pair k else .done (a.effect v.j (.mrst (litNode v.r) v.a.pair none)) noFlags none none

/-- MZRO (13 R273). -/
def mzroForm (_ : State) (a : Act) (v : View) : Fired :=
  .done (a.effect v.j (.mzro (litNode v.r) (litRow v.r + 1) (litCol v.r + 1) (bit v.r.lit 25))) noFlags (some v.a) none

/-- The word of MQRY (13 R274). -/
def nodeWord (x : Ctx) (bay id : Nat) : Word :=
  let n := x.node bay id
  BitVec.ofNat 64 (n.got % 65536 + 2 ^ 16 * min 255 (x.nodeTasks bay id).length + 2 ^ 24 * n.releases.length +
    2 ^ 27 * (if n.rows = 0 then 0 else 1) + 2 ^ 28 * (if n.pair then 1 else 0))

/-- MLDB (13 R270). -/
def execMldb (r : Rec) (s : State) : Result State := fire .mldb r s mldbForm
/-- MTASK (13 R270). -/
def execMtask (r : Rec) (s : State) : Result State := fire .mtask r s mtaskForm
/-- MROW (13 R271). -/
def execMrow (r : Rec) (s : State) : Result State := fire .mrow r s mrowForm
/-- MACC (13 R271). -/
def execMacc (r : Rec) (s : State) : Result State := fire .macc r s maccForm
/-- MEOR (13 R272). -/
def execMeor (r : Rec) (s : State) : Result State := fire .meor r s meorForm
/-- MSPL (13 R273). -/
def execMspl (r : Rec) (s : State) : Result State := fire .mspl r s msplForm
/-- MRST (13 R273). -/
def execMrst (r : Rec) (s : State) : Result State := fire .mrst r s mrstForm
/-- MZRO (13 R273). -/
def execMzro (r : Rec) (s : State) : Result State := fire .mzro r s mzroForm
/-- MPLN (13 R274). -/
def execMpln (r : Rec) (s : State) : Result State :=
  fire .mpln r s fun _ a v => .done (a.effect v.j (.mpln (slice v.r.lit 0 4).toNat)) noFlags (some v.a) none
/-- MQRY (13 R274). -/
def execMqry (r : Rec) (s : State) : Result State :=
  fire .mqry r s fun s a v => give a noFlags (Val.ofWord (nodeWord (s.ctx v.c) (unitBay v.u) (litNode v.r)))
/-- MCUT (13 R274). -/
def execMcut (r : Rec) (s : State) : Result State :=
  fire .mcut r s fun _ a v =>
    .done (a.effect v.j (.mcut (slice v.r.lit 0 8).toNat (bit v.r.lit 8))) noFlags (some v.a) none

end Sys2Proof.Machine
end

