-- ==== Sys2Proof/Machine/Registers.lean ====
section
/-! DEFINITION. The control registers that CRD and CWR reach: what a read gives and what a write does (20 R343, R363, R364; 22 R369 to
R382). -/
namespace Sys2Proof.Machine

/-- A sum of 32 bits that saturates. -/
def sat32 (n : Nat) : BitVec 32 := BitVec.ofNat 32 (min (2 ^ 32 - 1) n)

/-- The stall counter of reason j for a block, in a unit's copy (07 R126). -/
def ElemCtx.stallOf (e : ElemCtx) (blk j : Nat) : Nat := ((getKey e.stall blk []).getD j 0).toNat

/-- The stall counters of a unit's copy with reason j of a block set. -/
def ElemCtx.putStall (e : ElemCtx) (blk j n : Nat) : ElemCtx :=
  let old := getKey e.stall blk (List.replicate 6 0)
  { e with stall := setKey e.stall blk (modAt old j fun _ => BitVec.ofNat 48 (min (2 ^ 48 - 1) n)) }

/-- The copies of a register that a read or a write by a unit concerns: its own, or every copy for a Newel (20 R363). -/
def Ctx.copies (x : Ctx) (u : UnitId) : List (UnitId × ElemCtx) := if isNewel u then x.elems else [(u, x.elem u)]

/-- CX.FLAGS as a unit reads it: from a Newel the OR of the copies, hrec their saturating sum (03 R60). -/
def Ctx.flagsSeen (x : Ctx) (u : UnitId) : Word :=
  let l := (x.copies u).map (·.2.flags)
  flagsWord (l.foldl (fun t w => t ||| trapBits w) 0) (sumNat (l.map hrecOf)) (l.foldl (fun t w => t ||| slice w 0 6) 0)

/-- CX.TAGLIM as read (07 R132; 22 R380): bit store, and bit pwr, is 1 where that limit is below the set value (log 88, DEDUCED). -/
def Ctx.taglim (x : Ctx) : Word :=
  BitVec.ofNat 16 x.live.length ++ 0#9 ++ BitVec.ofBool (decide (x.pwrLim < x.tagSet)) ++ BitVec.ofBool (decide (x.storeLim < x.tagSet)) ++
  0#5 ++ BitVec.ofNat 16 x.tagEff ++ x.tagSet

/-- An FT register by its number (20 R343). -/
def ftReg (c : Course) (reg : Nat) : Word :=
  match reg with
  | 0x0100 => slice c 0 64
  | 0x0101 => slice c 64 64
  | 0x0102 => 0#32 ++ slice c 144 16 ++ 0#14 ++ slice c 128 2
  | 0x0103 => zextTo 64 (slice c 192 36)
  | 0x0104 => slice c 256 64
  | 0x0105 => slice c 320 64
  | 0x0106 => 0#40 ++ slice c 384 8 ++ slice c 400 16
  | 0x0107 => zextTo 64 (slice c 416 32)
  | 0x0108 => zextTo 64 (slice c 448 16)
  | 0x0109 => zextTo 64 (slice c 464 16)
  | _ => zextTo 64 (slice c 480 16)

/-- A context register as a unit reads it (20 R364). -/
def Ctx.readReg (x : Ctx) (u : UnitId) (reg : Nat) : Word :=
  let sum (f : ElemCtx → Nat) : Nat := sumNat ((x.copies u).map fun e => f e.2)
  if 0x0041 ≤ reg && decide (reg ≤ 0x0048) then
    BitVec.ofNat 64 (min (2 ^ 48 - 1) (sum fun e => e.stallOf x.stsel.toNat (reg - 0x0041)))
  else match reg with
  | 0x0001 => zextTo 64 x.asid
  | 0x0002 => x.part
  | 0x0003 => x.flagsSeen u
  | 0x0004 => zextTo 64 x.prio
  | 0x0005 => x.taglim
  | 0x0006 => zextTo 64 x.seed
  | 0x0010 => zextTo 64 x.thr
  | 0x0020 => zextTo 64 x.mpln
  | 0x0021 => zextTo 64 (sat32 (sum fun e => e.burst.toNat))
  | 0x0022 => zextTo 64 (sat32 (sum fun e => e.kvrs.toNat))
  | 0x0040 => zextTo 64 x.stsel
  | _ => ftReg x.ft reg

/-- PW.VREG (22 R369). -/
def Hall.vreg (h : Hall) : Word :=
  BitVec.ofBool h.uv ++ BitVec.ofBool h.lock ++ 0#6 ++ h.cetgt ++ h.floor ++ h.safe ++ h.mv
/-- PW.THS (22 R371). -/
def Hall.ths (h : Hall) : Word :=
  0#45 ++ BitVec.ofBool h.hard ++ BitVec.ofBool h.thr ++ BitVec.ofBool h.warn ++ h.temp
/-- PW.HBMT (10 R222). -/
def Stack.word (s : Stack) : Word := 0#45 ++ BitVec.ofBool s.hot ++ s.band ++ s.temp

/-- A stack. -/
def State.stack (s : State) (i : Nat) : Stack := s.fab.hbm.getD i ⟨0, 0, false⟩

/-- The slot offset of the device, in units of 2 us (18 R336). -/
def State.slot (s : State) : Nat := s.links.id.toNat % 64

/-- The events pending at a Newel, as a mask (22 R382, R385). -/
def Newel.pending (n : Newel) : BitVec 32 :=
  (List.range 32).foldl (fun m i => if n.queued.any fun q => q.1 = i then m ||| (1#32 <<< i) else m) 0

/-- NW.EVT.n as read, pend from the queue (22 R382). -/
def Newel.evtWord (n : Newel) (i : Nat) : Word :=
  let w := n.evt.getD i 0
  slice w 2 62 ++ BitVec.ofBool (bit n.pending i) ++ slice w 0 1

/-- A Newel-only register as the Newel of a die reads it (20 R364; 22). -/
def State.readNewelReg (s : State) (die reg : Nat) : Word :=
  let p := s.power
  if reg < 0x0210 then (s.hall (die * 16 + (reg - 0x0200))).ths
  else if 0x0220 ≤ reg && decide (reg < 0x0230) then (s.hall (die * 16 + (reg - 0x0220))).vreg
  else if 0x0240 ≤ reg && decide (reg < 0x0248) then (s.stack (reg - 0x0240)).word
  else if 0x0300 ≤ reg then (s.newels.getD die Newel.reset).evtWord (reg - 0x0300)
  else match reg with
  | 0x0210 => 0#42 ++ p.thhall ++ p.thmax
  | 0x0211 => zextTo 64 p.twarn
  | 0x0212 => zextTo 64 p.tthr
  | 0x0213 => zextTo 64 p.thard
  | 0x0230 => zextTo 64 p.w
  | 0x0231 => 0#32 ++ p.margin ++ p.cap
  | 0x0232 => zextTo 64 p.wus
  | 0x0233 => zextTo 64 p.balset
  | 0x0234 => zextTo 64 p.capi
  | 0x0250 => BitVec.ofBool p.stagEn ++ BitVec.ofBool p.lock ++ 0#55 ++ BitVec.ofNat 7 s.slot
  | _ => 0

/-- A context that is there for another context's register access (20 R363). -/
def Ctx.there (x : Ctx) : Bool := x.status = .resident || x.status = .evicting

/-- What CRD reads (20 R363). -/
def State.readReg (s : State) (u : UnitId) (c : Nat) (other : Bool) (reg : Nat) : Word :=
  if 0x0200 ≤ reg then s.readNewelReg (unitDie u) reg
  else if other && !(s.ctx c).there then 0
  else (s.ctx c).readReg u reg

/-! ### Writes -/

/-- PRIO at commit (04 R74): the base level, and the levels gained by ageing dropped. -/
def Ctx.setPrio (x : Ctx) (level : Nat) : Ctx :=
  { x with prio := BitVec.ofNat 4 level, waiting := x.waiting.map fun w => { w with gain := 0, refused := 0 } }

/-- PRIO at commit: the activations that units have chosen but not begun drop their gain too. -/
def State.setPrio (s : State) (c level : Nat) : State :=
  if (s.ctx c).there then
    let s1 := s.modCtx c fun x => x.setPrio level
    let drop (w : Waiting) : Waiting := if tagCtx w.tag = c then { w with gain := 0, refused := 0 } else w
    { s1 with cells := s1.cells.map fun y => (y.1, { y.2 with chosen := y.2.chosen.map drop }) }
  else s

/-- The copies that a write by a unit changes (20 R363). What a Newel writes as a count stands in the elements' copies alone, so that a
read sums it once for each element (03 R60; 13 R281; 15 R298). -/
def Ctx.modCopies (x : Ctx) (u : UnitId) (f : UnitId → ElemCtx → ElemCtx) : Ctx :=
  if isNewel u then { x with elems := x.elems.map fun e => (e.1, f e.1 e.2) } else x.modElem u (f u)

/-- A count that a Newel writes, as the copy of a unit takes it. -/
def elementOnly (writer w : UnitId) (n : BitVec 32) : BitVec 32 := if isNewel writer && !(isElement w) then 0 else n

/-- The word of CX.FLAGS that a write gives the copy of a unit: hrec is a count (03 R60). -/
def flagsFor (writer w : UnitId) (v : Word) : Word :=
  writeFlags (if isNewel writer && !(isElement w) then v &&& ~~~(0xFFFF00#64) else v)

/-- CWR of a context register other than CX.PRIO at commit (20 R363, R364). CX.PART is written by no CWR: 01 R15's map gives its
fields the access RW, 20 R364 calls the register RO, and the later rule, which is about this register, is followed (log 136). -/
def Ctx.writeReg (x : Ctx) (u : UnitId) (reg : Nat) (v : Word) : Ctx :=
  if 0x0041 ≤ reg && decide (reg ≤ 0x0048) then x.modCopies u fun _ e => e.putStall x.stsel.toNat (reg - 0x0041) 0
  else match reg with
  | 0x0003 => x.modCopies u fun w e => { e with flags := flagsFor u w v }
  | 0x0005 => { x with tagSet := if slice v 0 16 = 0 then 1 else slice v 0 16 }
  | 0x0006 =>
    { x with seed := slice v 0 32, seeds := x.seeds + 1, elems := x.elems.map fun e => (e.1, { e.2 with rng := seedFor (slice v 0 32) e.1 }) }
  | 0x0010 => { x with thr := slice v 0 32 }
  | 0x0020 =>
    let p := (slice v 0 4).toNat
    if p = 4 || p = 6 || p = 8 || p = 10 || p = 12 then { x with mpln := slice v 0 4 } else x
  | 0x0021 => x.modCopies u fun w e => { e with burst := elementOnly u w (slice v 0 32) }
  | 0x0022 => x.modCopies u fun w e => { e with kvrs := elementOnly u w (slice v 0 32) }
  | 0x0040 => { x with stsel := slice v 0 12 }
  | _ => x

/-- A hall at a voltage setting from a moment on: a setting that changes is held anew (22 R370). -/
def Hall.setMv (h : Hall) (now : Nat) (mv : BitVec 16) : Hall :=
  if mv = h.mv then h else { h with mv := mv, heldAt := now }

/-- PW.VREG written (22 R369): undervolting turned off returns the hall to 800 mV. -/
def Hall.write (h : Hall) (now : Nat) (v : Word) : Hall :=
  if slice v 48 8 = 0 then h
  else ({ h with uv := bit v 63, cetgt := slice v 48 8 } : Hall).setMv now (if bit v 63 then h.mv else 800)

/-- A threshold written, refused where the order of R373 would break. -/
def Power.threshold (p : Power) (reg : Nat) (t : BitVec 16) : Power :=
  let q : Power := match reg with
    | 0x0211 => { p with twarn := t }
    | 0x0212 => { p with tthr := t }
    | _ => { p with thard := t }
  if q.twarn ≤ q.tthr ∧ q.tthr ≤ q.thard ∧ q.thard ≤ 0x0780 then q else p

/-- The controller once its cap has changed: the draw as measured passes it now, or no longer does (22 R380). -/
def Power.passes (p : Power) (now : Nat) : Power :=
  { p with aboveAt := if 16 * p.cap.toNat < p.w.toNat then some (p.aboveAt.getD now) else none }

/-- NW.EVT.n written by a CWR of a context (22 R382). -/
def Newel.writeEvt (n : Newel) (i c : Nat) (v : Word) : Newel :=
  let word (w : Word) : Word :=
    slice v 6 58 ++ BitVec.ofBool (bit w 5 && !(bit v 5)) ++ 0#1 ++ BitVec.ofNat 2 c ++ 0#1 ++ slice v 0 1
  if bit v 0 && slice v 6 58 = 0 then n else { n with evt := modAt n.evt i word }

/-- CWR of a Newel-only register at commit (22). -/
def State.writeNewelReg (s : State) (die c reg : Nat) (v : Word) : State :=
  let p := s.power
  let put (q : Power) : State := { s with power := q }
  if 0x0220 ≤ reg && decide (reg < 0x0230) then s.modHall (die * 16 + (reg - 0x0220)) fun h => h.write s.clock.ns v
  else if 0x0240 ≤ reg && decide (reg < 0x0248) then
    { s with fab := { s.fab with hbm := modAt s.fab.hbm (reg - 0x0240) fun k => { k with hot := k.hot && !(bit v 18) } } }
  else if 0x0300 ≤ reg then s.modNewel die fun n => n.writeEvt (reg - 0x0300) c v
  else if 0x0211 ≤ reg && decide (reg ≤ 0x0213) then put (p.threshold reg (slice v 0 16))
  else match reg with
  | 0x0231 => if 3000 < (slice v 0 16).toNat then s else put (({ p with cap := slice v 0 16, margin := slice v 16 16 } : Power).passes s.clock.ns)
  | 0x0232 => put { p with wus := slice v 0 16 }
  | 0x0233 => if p.cap < slice v 0 16 then s else put { p with balset := slice v 0 16 }
  | 0x0250 => put { p with stagEn := bit v 63 }
  | _ => s

/-- CWR at commit by a unit whose activation is of context own, on context c (20 R363). -/
def State.writeReg (s : State) (u : UnitId) (own c reg : Nat) (v : Word) : State :=
  if 0x0200 ≤ reg then s.writeNewelReg (unitDie u) own reg v
  else if c ≠ own && !(s.ctx c).there then s
  else if reg = 0x0004 then (if 11 < (slice v 0 4).toNat then s else s.setPrio c (slice v 0 4).toNat)
  else s.modCtx c fun x => x.writeReg u reg v

end Sys2Proof.Machine
end

