-- ==== Sys2Proof/Machine/System.lean ====
section
/-! DEFINITION. The meanings of group 0xF: power phases, registers, translation, contexts, faults and events (04 R71 to R76; 13 R275,
R276; 20 R349, R358 to R363; 22 R376, R379, R385, R386). -/
namespace Sys2Proof.Machine

/-- A form that delivers A and acts at commit. -/
def passEffect (e : View → Effect) (_ : State) (a : Act) (v : View) : Fired := give (a.effect v.j (e v)) noFlags v.a

/-! ### Power (13 R275; 22 R376, R379) -/

/-- The effect of PHASE. -/
def phaseEffect (v : View) : Effect :=
  .phase (slice v.r.lit 0 10).toNat ((slice v.r.lit 10 4).toNat + 1) (slice v.r.lit 14 16).toNat

/-- The macro set of a bay. -/
def State.macroSet (s : State) (bay : Nat) : MacroSet := getKey s.fab.sets bay MacroSet.empty

/-- The ballast groups running on a set. -/
def MacroSet.ballast (m : MacroSet) : Nat := sumNat (m.bursts.map (·.1))

/-- The ballast groups that run in a hall. -/
def State.running (s : State) (hall : Nat) : Nat := sumNat ((span (7 * hall) 7).map fun b => (s.macroSet b).ballast)

/-- A task runs on the set of a bay, or on the set of its pair's first bay. -/
def State.setBusy (s : State) (bay : Nat) : Bool :=
  s.ctxs.any fun x => x.tasks.any fun t =>
    match t.st with
    | .running b _ _ =>
      b = bay || (b + 1 = bay && (match t.kind with
        | .task _ _ d _ => (x.node (t.nodeBay d) d.node).pair
        | .load _ _ => false))
    | _ => false

/-- The groups that executing activations have taken for their commit, on a bay or in a hall. -/
def State.ballastTaken (s : State) (p : UnitId → Bool) : Nat :=
  sumNat (s.cells.map fun x =>
    match x.2.act with
    | some a =>
      if p x.1 then sumNat (a.effects.map fun e => match e.2 with
        | .ballast h => h
        | _ => 0) else 0
    | none => 0)

/-- The ballast groups that BALL takes for a bay: at most g, of those idle there, and of the hall's grant those that do not run yet (22 R378,
R379). -/
def State.ballastFor (s : State) (u : UnitId) (c g : Nat) : Nat :=
  let bay := unitBay u
  let idle := if s.setBusy bay then 0 else 8 - (s.macroSet bay).ballast
  let inBay (w : UnitId) : Bool := unitBay w = bay
  let hall := hallOfBay bay
  let inHall (w : UnitId) : Bool := isElement w && hallOfBay (unitBay w) = hall
  if (s.ctx c).prio ≠ 0 || !(isElement u) then 0
  else min g (min (idle - s.ballastTaken inBay) ((s.hall hall).grant - s.running hall - s.ballastTaken inHall))

/-- BALL (22 R379). -/
def ballForm (s : State) (a : Act) (v : View) : Fired :=
  let h := s.ballastFor v.u v.c ((slice v.r.lit 0 3).toNat + 1)
  .done (a.effect v.j (.ballast h)) noFlags (some (Val.ofNat h)) none

/-- THRT (22 R376). -/
def thrtForm (s : State) (a : Act) (v : View) : Fired :=
  let all := bit v.a.word 6
  let h := (slice v.a.word 0 6).toNat
  .done (a.effect v.j (.throttle h all (min v.b.word.toNat 15))) noFlags
    (some (Val.ofNat (s.hall (if all then 0 else h)).ksw)) none

/-! ### Registers (20 R363) -/

/-- The context of CRD and CWR: the own, or LIT[17:16] with other. -/
def regCtx (v : View) : Nat := if bit v.r.lit 18 then (slice v.r.lit 16 2).toNat else v.c

/-- CRD (20 R363). -/
def crdForm (s : State) (a : Act) (v : View) : Fired :=
  give a noFlags (Val.ofWord (s.readReg v.u (regCtx v) (bit v.r.lit 18) (slice v.r.lit 0 16).toNat))

/-! ### Contexts (04 R71 to R76) -/

/-- The capability code of CTXL's A: tagged, unsealed, space 0 or 2, load, n bytes at an address (04 R71). -/
def imageCap (p : Pair) (t : Bool) (x n : Nat) : Nat := capAccess p t 0x05 permLoad x n 0

/-- CTXL (04 R71): the load itself is an event. -/
def ctxlForm (resume : Bool) (_ : State) (_ : Act) (v : View) : Fired :=
  let p := v.a.pair
  let x := if resume then capBase p else capCursor p
  let k := imageCap p v.a.tagged x (if resume then 1 else 256)
  if k ≠ 99 then capFault p k else .issue (capSpace p) x (.image p resume (if resume then 0 else v.b.word))

/-- The bays that a context occupies. -/
def Ctx.bays (x : Ctx) : List Nat := (x.place.filterMap fun u => if isElement u then some (unitBay u) else none).dedup

/-- The claim of a CX.PART in units of 32 KiB. -/
def claimUnits (part : Word) : Nat :=
  (slice part 0 8).toNat + (slice part 8 8).toNat + (slice part 16 8).toNat + (slice part 24 8).toNat

/-- The bytes of a context's save area (04 R75). -/
def Ctx.saveSize (x : Ctx) : Nat := x.bays.length * (claimUnits x.part * 32768 + 4096)

/-- A status word (04 R71). -/
def statusVal (code bay : Nat) : Val := Val.ofNat (code + 65536 * bay)

/-- The code of CTXE for a context and its area (04 R75). -/
def evictCode (x : Ctx) (p : Pair) : Nat :=
  if x.status = .absent then 6
  else if x.status ≠ .resident then 1
  else if capTop p - capBase p < x.saveSize then 7
  else 0

/-- CTXE (04 R75): no condition is on A's bounds but its length. -/
def ctxeForm (s : State) (a : Act) (v : View) : Fired :=
  let p := v.a.pair
  let d := (slice v.r.lit 0 2).toNat
  let k := capAccess p v.a.tagged 0x01 (permStore ||| permStoreCap) (capBase p) 0 0
  let code := evictCode (s.ctx d) p
  let b := if code = 0 then a.effect v.j (.evict d p) else a
  if k ≠ 99 then capFault p k else give b noFlags (statusVal code 0xFFFF)

/-! ### RETRY (20 R349) -/

/-- The request held at a port: the oldest one (20 R349). -/
def State.heldAt (s : State) (port : Nat) : Option Req :=
  s.net.reqs.find? fun q => portCode q.port = port && (match q.st with
    | .held _ _ => true
    | _ => false)

/-- A parked activation of a block under a tag word. -/
def State.parkedAt (s : State) (c blk : Nat) (tag : TagWord) : Option Waiting :=
  match (s.ctx c).block? blk with
  | none => none
  | some b => (s.ctx c).waiting.find? fun w => w.parked && w.ptr = b.ptr && w.tag = tag

/-- RETRY of a port: it finds its target when it fires (20 R349). -/
def retryPortForm (s : State) (a : Act) (v : View) : Fired :=
  let t := (s.heldAt (slice v.a.word 0 16).toNat).map (·.id)
  .done (a.effect v.j (.retryPort t (bit v.r.lit 2))) noFlags (some (Val.ofNat (if t.isSome then 0 else 1))) none

/-- RETRY of a frame: it finds its target when it fires (20 R349). -/
def retryFrameForm (s : State) (a : Act) (v : View) : Fired :=
  let c := (slice v.r.lit 16 2).toNat
  let blk := (slice v.r.lit 4 12).toNat
  let tag := tagWithCtx v.a.word c
  let t := (s.parkedAt c blk tag).map fun w => (w.unit, w.made, w.stamp)
  .done (a.effect v.j (.retryFrame c blk tag t (bit v.r.lit 2))) noFlags (some (Val.ofNat (if t.isSome then 0 else 1))) none

/-! ### Translation (20 R358 to R361) -/

/-- The effect of TLBI. -/
def tlbiEffect (v : View) : Effect :=
  .tlbi (slice v.a.word 0 60).toNat v.b.word.toNat (slice v.r.lit 0 16).toNat (bit v.r.lit 16)

/-- TLBS (20 R359): no TLBI that committed no later than this activation began, the same step counted in, has still to drain. -/
def tlbsForm (s : State) (a : Act) (v : View) : Fired :=
  if s.net.tlbis.any fun t => t.step ≤ a.began then .wait else .done a noFlags (some v.a) none

/-- The status of MIGR for a walk and a new leaf (20 R360). -/
def migrCode (s : State) (w : Except Nat Walk) (new : Word) : Nat :=
  match w with
  | .error _ => 1
  | .ok x =>
    let old := x.page.leaf
    if pteMoving old then 2
    else if !(pteValid new) || !(pteLeaf new) || pteMoving new || decide (ptePa new % x.page.size ≠ 0) ||
        pteTyped new != pteTyped old || pteCmp new != pteCmp old then 3
    else if !(inRange (pteTier new) (ptePa new)) || !(inRange (pteTier new) (ptePa new + x.page.size - 1)) then 4
    else if 8 ≤ s.net.migs.length then 5
    else 0

/-- The ASID that MIGR walks. -/
def migrAsid (s : State) (v : View) : BitVec 16 :=
  if bit v.r.lit 16 then slice v.r.lit 0 16 else (s.ctx v.c).asid

/-- MIGR (20 R360). -/
def migrForm (s : State) (a : Act) (v : View) : Fired :=
  let p := v.a.pair
  let k := capAccess p v.a.tagged 0x01 permMigrate (capCursor p) 1 0
  let w := walk s (migrAsid s v) (capCursor p)
  let code := migrCode s w v.b.word
  let b := match w with
    | .ok x => if code = 0 then a.effect v.j (.migrate (migrAsid s v).toNat (capCursor p) v.b.word x.page.leaf) else a
    | .error _ => a
  if k ≠ 99 then capFault p k else .done b noFlags (some (Val.ofNat code)) none

/-! ### Events (22 R385, R386) -/

/-- WFE (22 R385). -/
def wfeForm (s : State) (a : Act) (v : View) : Fired :=
  let m := slice v.b.word 0 32
  let p := (s.newels.getD (unitDie v.u) Newel.reset).pending &&& m
  if m = 0 then .done a noFlags (some (Val.ofNat 0)) (some (Val.ofNat 32))
  else if p = 0 then .wait
  else .done a noFlags (some (Val.ofNat p.toNat)) (some (Val.ofNat (((List.range 32).find? fun i => bit p i).getD 32)))

/-- The effect of EVSIG. -/
def signalEffect (v : View) : Effect := .signal (slice v.r.lit 5 2).toNat (slice v.r.lit 0 5).toNat v.a.word

/-- PHASE (13 R275, R276). -/
def execPhase (r : Rec) (s : State) : Result State := fire .phase r s (passEffect phaseEffect)
/-- PHEND (13 R276). -/
def execPhend (r : Rec) (s : State) : Result State := fire .phend r s (passEffect fun _ => .phend)
/-- BALL (22 R379). -/
def execBall (r : Rec) (s : State) : Result State := fire .ball r s ballForm
/-- CRD (20 R363). -/
def execCrd (r : Rec) (s : State) : Result State := fire .crd r s crdForm
/-- CWR (20 R363). -/
def execCwr (r : Rec) (s : State) : Result State :=
  fire .cwr r s (passEffect fun v => .cwr (slice v.r.lit 0 16).toNat (regCtx v) v.a.word)
/-- TLBI (20 R358). -/
def execTlbi (r : Rec) (s : State) : Result State := fire .tlbi r s (passEffect tlbiEffect)
/-- TLBS (20 R359). -/
def execTlbs (r : Rec) (s : State) : Result State := fire .tlbs r s tlbsForm
/-- IRET (20 R362). -/
def execIret (r : Rec) (s : State) : Result State :=
  fire .iret r s fun _ a v => .done (a.effect v.j .iret) noFlags none none
/-- PRIO (04 R74). -/
def execPrio (r : Rec) (s : State) : Result State :=
  fire .prio r s (passEffect fun v => .prio (slice v.r.lit 4 2).toNat (slice v.r.lit 0 4).toNat)
/-- CTXL, load form (04 R71). -/
def execCtxlLoad (r : Rec) (s : State) : Result State := fire .ctxlLoad r s (ctxlForm false)
/-- CTXL, resume form (04 R71). -/
def execCtxlResume (r : Rec) (s : State) : Result State := fire .ctxlResume r s (ctxlForm true)
/-- CTXE (04 R75, R76). -/
def execCtxe (r : Rec) (s : State) : Result State := fire .ctxe r s ctxeForm
/-- RETRY, port form (20 R349). -/
def execRetryPort (r : Rec) (s : State) : Result State := fire .retryPort r s retryPortForm
/-- RETRY, frame form (20 R349). -/
def execRetryFrame (r : Rec) (s : State) : Result State := fire .retryFrame r s retryFrameForm
/-- WFE (22 R385). -/
def execWfe (r : Rec) (s : State) : Result State := fire .wfe r s wfeForm
/-- EVSIG (22 R386). -/
def execEvsig (r : Rec) (s : State) : Result State :=
  fire .evsig r s fun _ a v => .done (a.effect v.j (signalEffect v)) noFlags none none
/-- MIGR (20 R360). -/
def execMigr (r : Rec) (s : State) : Result State := fire .migr r s migrForm
/-- THRT (22 R376). -/
def execThrt (r : Rec) (s : State) : Result State := fire .thrt r s thrtForm

end Sys2Proof.Machine
end

