-- ==== Sys2Proof/Machine/Sched.lean ====
section
/-! DEFINITION. Readiness, the choice function, fetch, and what the scheduler counts (02 R32; 06 R108, R120 to R124; 07 R125 to R130;
20 R346). -/
namespace Sys2Proof.Machine

/-! ### Readiness (02 R32; 07 R135; 15 R286; 20 R346) -/

/-- The description of the block with a pointer. -/
def Ctx.blockAt (x : Ctx) (p : BlockPtr) : Option BlkDesc := x.image.blocks.find? fun b => b.ptr = p

/-- The rings that a block names in its ring-use mask. -/
def Ctx.ringsUsed (x : Ctx) (b : BlkDesc) : List Ring := x.rings.filter fun g => decide (g.q < 16) && bit b.blk.rings g.q

/-- A ring an operator's block consumes holds what firing needs. -/
def ringFull (op : Nat) (g : Ring) : Bool :=
  g.cons ≠ op || (match g.kind with
    | .const => true
    | .stream => decide (g.take ≤ g.filled)
    | .fibre => decide (1 ≤ g.filled))

/-- A ring an operator's block produces has the room that firing needs. -/
def ringFree (op : Nat) (g : Ring) : Bool :=
  g.prod ≠ op || (match g.kind with
    | .const => true
    | .stream => decide (g.give ≤ g.space)
    | .fibre => decide (1 ≤ g.space))

/-- The merge node of an edge, where its producer has clones, holds its 64 tokens (07 R139). -/
def Ctx.mergeFull (x : Ctx) (e : Edge) : Bool :=
  ((x.ops[e.prod]?).any fun st => decide (st.clones ≠ [])) && decide (64 ≤ e.flight.length)

/-- A token that was offered again to the port that an edge feeds waits for room: the edge's track is back-pressured, and its tokens stay behind
that one (02 R405; 07 R135; log 145). -/
def Ctx.waitsOffered (x : Ctx) (e : Edge) : Bool :=
  match e.cons with
  | .op o i => x.offered.any fun y => y.2.2.1 = i && ((x.image.ops[o]?).bind fun d => x.block? d.entry).any fun b => b.ptr = y.1
  | .sink _ => false

/-- An exit of a block names an output port bound to a back-pressured track (07 R135, R139). -/
def Ctx.tracksBlocked (x : Ctx) (b : BlkDesc) : Bool :=
  x.edges.any fun e => (e.blocked || x.waitsOffered e || x.mergeFull e) && e.prod = b.op && (b.blk.exits.any fun w => bit (slice w 66 16) e.oport)

/-- A parked activation of a ring-consuming block keeps the block's others from beginning (20 R346). -/
def Ctx.parkedRing (x : Ctx) (b : BlkDesc) : Bool :=
  ((x.ringsUsed b).any fun g => g.cons = b.op && g.kind ≠ .const) && x.waiting.any fun w => w.parked && w.ptr = b.ptr

/-- Every input slot is present. -/
def Waiting.complete (w : Waiting) : Bool := w.slots.all fun l => l.val.isSome

/-- A waiting activation is ready (02 R32). -/
def Ctx.ready (x : Ctx) (w : Waiting) : Bool :=
  !w.parked && w.complete && (match x.blockAt w.ptr with
    | none => true
    | some b =>
      ((x.ringsUsed b).all fun g => ringFull b.op g && ringFree b.op g) && !(x.tracksBlocked b) && !(x.parkedRing b))

/-- The effective level of a waiting activation (07 R127; 22 R384). -/
def Ctx.level (x : Ctx) (w : Waiting) : Nat :=
  match w.kind with
  | .handler _ _ => 11
  | _ => if x.prio = 0 then 0 else min 11 (x.prio.toNat + w.gain)

/-- The ready activations of a unit: context and activation (07 R129), those of an evicting context among them; a context to be
replayed begins none (20 R352). -/
def State.readyOn (s : State) (u : UnitId) : List (Nat × Waiting) :=
  [0, 1, 2, 3].flatMap fun c =>
    let x := s.ctx c
    if (x.status = .resident || x.status = .evicting) && !x.replay then
      (x.waiting.filter fun w => w.unit = u && s.follows w.after && x.ready w).map fun w => (c, w)
    else []

/-- The ready activations of a unit that may begin: those of contexts that are not being evicted (07 R129). -/
def State.candOn (s : State) (u : UnitId) : List (Nat × Waiting) :=
  (s.readyOn u).filter fun y => (s.ctx y.1).status ≠ .evicting

/-! ### The choice (07 R129, R130; 22 R375) -/

/-- The four bits of a number reversed. -/
def brev4 (c : BitVec 4) : Nat := c.toNat % 2 * 8 + c.toNat / 2 % 2 * 4 + c.toNat / 4 % 2 * 2 + c.toNat / 8

/-- k_eff of a hall (22 R375). -/
def State.keff (s : State) (h : Nat) : Nat := max (s.hall h).ksw (max (s.hall h).khw s.power.kp)

/-- The opportunity of an element is suppressed; a Newel or demand unit belongs to no hall. -/
def State.suppressed (s : State) (u : UnitId) : Bool :=
  isElement u && decide (brev4 (s.cell u).opp < s.keff (hallOfBay (unitBay u)))

/-- An element of a bay has a ready activation at level 1 or more, as every element of the bay sees it (07 R130; log 162). -/
def State.bayBusy (s : State) (bay : Nat) : Bool :=
  (List.range 8).any fun i => (s.readyOn (.element (bay * 8 + i))).any fun y => decide (1 ≤ (s.ctx y.1).level y.2)

/-- Epoch p is older than q (07 R128). -/
def older (p q : BitVec 32) : Bool := decide ((p - q).toInt < 0)

/-- The oldest birth of a list. -/
def oldestBirth (l : List (Nat × Waiting)) : BitVec 32 :=
  match l with
  | [] => 0
  | y :: t => t.foldl (fun b z => if older z.2.birth b then z.2.birth else b) y.2.birth

/-- The frame index of a tag word. -/
def tagFrame (t : TagWord) : Nat := (slice t 16 18).toNat

/-- The lexicographic order of two lists of numbers. -/
def lexLess (l m : List Int) : Bool :=
  match l, m with
  | a :: l', b :: m' => if a < b then true else if b < a then false else lexLess l' m'
  | _, _ => false

/-- A waiting activation comes before another of its context: frame index, block ordinal, stamp, then the one ready first. -/
def Ctx.before (x : Ctx) (v w : Waiting) : Bool :=
  let key (y : Waiting) : List Int :=
    [(tagFrame y.tag : Int), ((x.ordinal? y.ptr).getD 4096 : Nat), y.stamp.toInt, (y.since : Nat)]
  lexLess (key v) (key w)

/-- The first of a list by a strict order. -/
def firstBy {α : Type} (lt : α → α → Bool) (l : List α) : Option α :=
  match l with
  | [] => none
  | y :: t => some (t.foldl (fun b z => if lt z b then z else b) y)

/-- The candidate of a list that begins by the keys of the choice function; which of those that tie on every key is open (07 R129; 24 R399;
log 156). -/
def State.chooseAmong (s : State) (x : Ctx) (l : List Waiting) : Option Waiting :=
  (firstBy x.before l).map fun w =>
    match l.filter fun y => !(x.before w y) with
    | [] | [_] => w
    | ties => ties.getD (Config.freeTie s.sched.moves % ties.length) w

/-- The pick of the choice function with its level (07 R129). -/
def State.pick (s : State) (u : UnitId) : Option (Nat × Nat × Waiting) :=
  let cand := s.candOn u
  let lv (y : Nat × Waiting) : Nat := (s.ctx y.1).level y.2
  let top := cand.foldl (fun m y => max m (lv y)) 0
  if top = 0 && isElement u && s.bayBusy (unitBay u) then none
  else
    let c1 := cand.filter fun y => lv y = top
    let b := oldestBirth c1
    let c2 := c1.filter fun y => y.2.birth = b
    let last := (s.cell u).last.getD top 0
    match (span (last + 1) 4).find? fun n => c2.any fun y => y.1 = n % 4 with
    | none => none
    | some n => (s.chooseAmong (s.ctx (n % 4)) ((c2.filter fun y => y.1 = n % 4).map (·.2))).map fun w => (top, n % 4, w)

/-- A waiting activation refused once more (07 R129). -/
def Waiting.refuse (w : Waiting) : Waiting :=
  if w.refused + 1 = 65536 then { w with gain := w.gain + 1, refused := 0 } else { w with refused := w.refused + 1 }

/-- The refusals of one opportunity on a unit; the pick has left the waiting list. -/
def Ctx.refuseOthers (x : Ctx) (u : UnitId) (ready : List Waiting) : Ctx :=
  if x.prio = 0 || decide (11 ≤ x.prio) then x
  else { x with waiting := x.waiting.map fun w =>
           if w.unit = u && ready.contains w && decide (x.level w < 11) then w.refuse else w }

/-- A list without the first element equal to one. -/
def removeOne {α : Type} [DecidableEq α] (l : List α) (y : α) : List α :=
  match l with
  | [] => []
  | z :: t => if z = y then t else z :: removeOne t y

/-- One opportunity of a unit (07 R129): the element is free and an activation is ready on it; the refusals pass over the contexts
that are being evicted. -/
def State.choose (s : State) (u : UnitId) : State :=
  let cell := s.cell u
  let ready := s.candOn u
  if cell.act.isSome || cell.chosen.isSome || s.readyOn u = [] then s
  else
    let s1 := s.putCell u { cell with opp := cell.opp + 1, denied := s.suppressed u }
    if s.suppressed u then s1
    else match s.pick u with
      | none => s1
      | some (top, c, w) =>
        let s2 := s1.modCtx c fun x => { x with waiting := removeOne x.waiting w }
        let s3 := [0, 1, 2, 3].foldl
          (fun t d => t.modCtx d fun x => x.refuseOthers u ((ready.filter fun y => y.1 = d).map (·.2))) s2
        let y := s3.cell u
        s3.putCell u { y with chosen := some w, last := modAt y.last top fun _ => c }

/-! ### Fetch (06 R108, R120 to R124) -/

/-- A page of a port for a virtual address: in its cache, or walked; the code of a failing walk (10 R206, R207). -/
def State.pageFor (s : State) (port : PortId) (asid : BitVec 16) (va : Nat) : Except Nat Page :=
  match s.cached port asid va with
  | some p => .ok p
  | none => match walk s asid va with
    | .ok w => .ok w.page
    | .error k => .error k

/-- Bytes read for a fetch, or the class, code and address of a fault; bytes of a page outside come from outside. -/
def State.fetchBytes (s : State) (port : PortId) (asid : BitVec 16) (va n off : Nat) (ext : Ext) :
    Except (Nat × Nat × Nat) (List Byte) := do
  let pages ← (granuleVas va n).mapM fun x =>
    match s.pageFor port asid x with
    | .error k => .error (3, k, x)
    | .ok p => if leafCode p x 0 .fetch ≠ 99 then .error (3, leafCode p x 0 .fetch, x) else .ok p
  let spots := (List.range n).map fun i => ((pages.find? fun p => p.covers (va + i)).map fun p => p.spot (va + i)).getD default
  let refused := (spots.find? fun y => !y.inside).bind fun y => s.extRefusal (y.message (.load n false)) ext
  if let some k := refused then .error (3, k, va)
  else if spots.any fun y => y.inside && s.net.poison.contains (y.key / 8 * 8) then .error (8, 3, va)
  else .ok (spots.zipIdx.map fun y => if y.1.inside then s.byteAt y.1.key else ext.data.getD (off + y.2) 0)

/-- A block fetched and decoded by a unit for a context, or the class, code, record and address of a fault (06 R108, R120). -/
def State.fetchBlock (s : State) (u : UnitId) (c : Nat) (ptr : BlockPtr) (ext : Ext) : Except (Nat × Nat × Nat × Nat) Block :=
  let x := s.ctx c
  let va := ptr.toNat * 64
  let say {α : Type} (y : Except (Nat × Nat × Nat) α) : Except (Nat × Nat × Nat × Nat) α :=
    match y with
    | .ok v => .ok v
    | .error (k, m, z) => .error (k, m, 0xFF, z)
  do
    let head ← say (s.fetchBytes (unitPort u) x.asid va 12 0 ext)
    let h := readHeader (recordAt head 0)
    if h.bad then .error (1, 1, 0xFF, 0)
    else
      let img ← say (s.fetchBytes (unitPort u) x.asid va (12 * h.count) 0 ext)
      match decodeBlock u x.sys ptr img with
      | .ok b => .ok b
      | .error (k, j) => .error (1, k, j, 0)

/-- An activation that has no records yet, for a fault at fetch. -/
def Waiting.bare (w : Waiting) : Act where
  w := w
  ctx := tagCtx w.tag
  blk := default
  recs := []
  temps := []
  outs := []
  exits := []
  redirs := []
  views := []
  moves := []
  rwrites := []
  stores := []
  effects := []
  flags := 0
  recon := 0
  thr := 0
  trap := 0
  seeded := 0
  rng := 0
  stime := 0
  began := 0
  stage := .running

/-- An activation after input i is delivered to the ports of its input record (06 R116). -/
def Act.input (a : Act) (now i : Nat) (v : Option Val) : Act :=
  (inputDests (a.blk.ins.getD i 0)).foldl (fun b d => b.deliver now [] 0 ((Dest.ofCode d).getD .none) v) a

/-- The window of a ring when an activation begins (11 R224). -/
def Ring.window (g : Ring) : RingView := ⟨g.q, g.rd, g.wr, g.filled, g.space⟩

/-- The mode of a run and the silent window, as the activation takes them from its operator (11 R237). -/
def Ctx.withMode (x : Ctx) (w : Waiting) : Waiting :=
  match x.opOf? w.ptr with
  | none => w
  | some o =>
    let d := (x.image.ops[o]?).getD default
    let st := (x.ops[o]?).getD default
    if !d.unbounded then w
    else { w with
      restore := w.restore || decide (st.mode = 1)
      origin := w.origin || decide (st.mode = 2)
      silent := st.silent.any fun v => decide (v.lo ≤ w.stamp.toInt) && decide (w.stamp.toInt ≤ v.hi) }

/-- An activation begun on a unit with its block (02 R21 to R25; 11 R224; 17 R313). -/
def State.beginAct (s : State) (u : UnitId) (w : Waiting) (b : Block) : Act :=
  let c := tagCtx w.tag
  let x := s.ctx c
  let e := x.elem u
  let w1 := { x.withMode w with gain := 0, refused := 0 }
  let st := ((x.opOf? w.ptr).bind fun o => x.ops[o]?).map (·.stime)
  let a : Act := { w1.bare with
    blk := b
    recs := List.replicate b.nodes.length ⟨.idle, none, none, none, none, []⟩
    views := (x.rings.filter fun g => decide (g.q < 16) && bit b.rings g.q).map Ring.window
    flags := w.slots.foldl (fun f l => f ||| l.flags) noFlags
    thr := x.thr
    trap := trapBits e.flags
    seeded := x.seeds
    rng := e.rng
    stime := st.getD 0
    began := s.clock.steps }
  (w.slots.zipIdx).foldl (fun y l => y.input s.clock.steps l.2 l.1.val) a

/-- The mode of an operator's run passes to its first activation. -/
def Ctx.clearMode (x : Ctx) (w : Waiting) : Ctx :=
  match x.opOf? w.ptr with
  | none => x
  | some o => { x with ops := modAt x.ops o fun st => { st with mode := 0 } }

/-- A block kept by a unit for a context. -/
def Cell.keep (y : Cell) (c : Nat) (b : Block) : Cell :=
  { y with kept := (y.kept.filter fun k => !(k.1 = c && k.2.ptr = b.ptr)) ++ [(c, b)] }

/-- The chosen activation of a unit begins on its block, or faults at fetch (06 R108, R120 to R122). -/
def State.fetchChosen (s : State) (u : UnitId) (ext : Ext) : State :=
  let cell := s.cell u
  match cell.chosen, cell.act with
  | some w, none =>
    let c := tagCtx w.tag
    if (s.ctx c).replay then s else
    let old := cell.kept.find? fun k => k.1 = c && k.2.ptr = w.ptr
    let got := match old with
      | some k => if Config.freeChoice s.sched.moves then Except.ok k.2 else s.fetchBlock u c w.ptr ext
      | none => s.fetchBlock u c w.ptr ext
    match got with
    | .error (cls, k, j, va) => (s.putCell u { cell with chosen := none }).takeFault u w.bare j cls k 0 va
    | .ok b =>
      let a := s.beginAct u w b
      (s.modCtx c fun x => x.clearMode w).putCell u { cell.keep c b with chosen := none, act := some a }
  | _, _ => s

/-- A block fetched ahead where the predictor saw it follow the executing one; a fault is not reported (06 R124). It is kept beside the
blocks in use until the commit names its pointer or another. -/
def State.prefetch (s : State) (u : UnitId) (ptr : BlockPtr) (ext : Ext) : State :=
  match s.act u with
  | none => s
  | some a =>
    if (s.cell u).predict.any fun p => p.1.1 = a.ctx && p.1.2.1 = a.w.ptr && p.2 = ptr then
      match s.fetchBlock u a.ctx ptr ext with
      | .ok b => s.putCell u { s.cell u with ahead := some (a.ctx, b) }
      | .error _ => s
    else s

/-- What a commit that names a pointer does with the block fetched ahead: used later if it is that block, else discarded (06 R124). -/
def Cell.endAhead (y : Cell) (c : Nat) (next : BlockPtr) : Cell :=
  let z := { y with ahead := none }
  match y.ahead with
  | some (d, b) => if d = c && b.ptr = next then z.keep c b else z
  | none => z

/-! ### Sources and epochs (04 R89; 07 R128) -/

/-- An operator is a source: it consumes no edge at all, frame or ring (04 R89; 07 R131). -/
def Ctx.isSource (x : Ctx) (o : Nat) : Bool :=
  !(x.edges.any fun e => match e.cons with
    | .op p _ => decide (p = o)
    | .sink _ => false) &&
  !(x.rings.any fun g => g.cons = o)

/-- An issue-counter activation of an operator waits to begin. -/
def Ctx.issuing (x : Ctx) (o : Nat) : Bool :=
  x.waiting.any fun w => w.kind = .source && !w.parked && x.opOf? w.ptr = some o

/-- An epoch counter advanced by one, each 64 steps (07 R128): the dies' counters are apart by what reset left between them. -/
def State.nextEpoch (s : State) (die : Nat) : State :=
  let due (n : Nat) : Nat := if (n + 1) * 64 ≤ s.clock.steps - s.fab.epochFrom + Config.epochPhase die % 64 then n + 1 else n
  { s with fab := { s.fab with epochs := modAt s.fab.epochs die due } }

/-- SCHEDULER_CHOICE (07 R129). -/
def execSchedulerChoice (s : State) : Result State := .next (s.choose s.sched.subject.u)
/-- BLOCK_FETCH (06 R120). -/
def execBlockFetch (s : State) : Result State := .next (s.fetchChosen s.sched.subject.u s.sched.subject.ext)
/-- PREDICTOR_FETCH (06 R124). -/
def execPredictorFetch (s : State) : Result State :=
  .next (s.prefetch s.sched.subject.u s.sched.subject.ptr s.sched.subject.ext)
/-- EPOCH_COUNT_ADVANCE (07 R128). -/
def execEpochCountAdvance (s : State) : Result State := .next (s.nextEpoch s.sched.subject.k)

end Sys2Proof.Machine
end

