-- ==== Sys2Proof/Machine/Tasks.lean ====
section
/-! DEFINITION. The hall scheduler, the task engine, node releases and power windows (13 R255 to R282). -/
namespace Sys2Proof.Machine

/-! ### Reads by a port for an operation or a task (10 R206; 13 R268; 17 R320) -/

/-- The place of each of n bytes that a port reads or writes for a context, or class, code and address of what refuses it. -/
def State.portSpots (s : State) (q : Req) (n : Nat) (need : Need) : Except (Nat × Nat × Nat) (List Spot) :=
  if !(translates q.space) then
    .ok ((List.range n).map fun i => (s.spot q (q.addr + i)).getD ⟨3, q.addr + i, 0, false⟩)
  else do
    let pages ← (granuleVas q.addr n).mapM fun x =>
      match s.pageFor q.port q.asid x with
      | .error k => .error (3, k, x)
      | .ok p => if leafCode p x q.space need ≠ 99 then .error (3, leafCode p x q.space need, x) else .ok p
    .ok ((List.range n).map fun i => ((pages.find? fun p => p.covers (q.addr + i)).map fun p => p.spot (q.addr + i)).getD default)

/-- The n bytes that a port reads, those from outside at an offset of what an agent outside answers (20 R353). -/
def State.portBytes (s : State) (q : Req) (n off : Nat) (ext : Ext) : Except (Nat × Nat × Nat) (List Byte) :=
  match s.portSpots q n .load with
  | .error e => .error e
  | .ok l =>
    let out := if translates q.space then (l.find? fun y => !y.inside).map fun y => y.message q.kind
      else if s.outside q then some (s.outMsg q) else none
    if let some k := out.bind fun o => s.extRefusal o ext then .error (3, k, q.addr)
    else if l.any fun y => y.inside && s.net.poison.contains (y.key / 8 * 8) then .error (8, 3, q.addr)
    else .ok (l.zipIdx.map fun y =>
      if q.space = 1 then s.readByte q (q.addr + y.2) 0
      else if y.1.inside then s.byteAt y.1.key else ext.data.getD (off + y.2) 0)

/-! ### Elements (13 R255, R257) -/

/-- The exponent of the greatest magnitude; none where every number is zero. -/
def topExp (l : List FNum) : Option Int :=
  l.foldl
    (fun t x => match x with
      | .fin _ m e =>
        if m = 0 then t
        else match t with
          | none => some (floorLog2 m e)
          | some y => some (max y (floorLog2 m e))
      | _ => t) none

/-- rne(x / 2^e) clamped to [-lim, lim]. -/
def quantInt (x : FNum) (e lim : Int) : Int :=
  match x with
  | .fin n m k => max (-lim) (min lim (roundToInt 0 n m (k - e)).1)
  | _ => 0

/-- A number is NaN or infinite. -/
def FNum.wild (x : FNum) : Bool := x.isNan || x.isInf

/-- The k elements that a row of courses holds, decoded and flushed, with their flags. -/
def rowNums (ty : Ty) (cs : List Course) (k : Nat) : List FNum × BitVec 6 :=
  let l := (List.range k).map fun i => laneNum ty (cs.getD (i / ty.count) 0) (i % ty.count)
  (l.map (·.1), l.foldl (fun f x => f ||| x.2) noFlags)

/-- The courses of a list of bytes. -/
def coursesOf (fuel : Nat) (l : List Byte) : List Course :=
  match fuel with
  | 0 => []
  | n + 1 => bytesCourse (l.take 64) :: coursesOf n (l.drop 64)

/-- The scale of the cells: 6 for 8-bit B, 13 for 16-bit B. -/
def Binding.scale (b : Binding) : Int := if b.b16 then 13 else 6
/-- The bound of the cells. -/
def Binding.limit (b : Binding) : Int := if b.b16 then 16383 else 127

/-- Column n of B as its cells hold it (13 R255): of a 16-bit B, hi = floor(b / 128) in the first macro of the pair and lo = b - 128 hi in
the second. -/
def Binding.column (b : Binding) (rows : List (List FNum)) (n : Nat) : Column :=
  let xs := rows.map fun r => r.getD n FNum.zero
  let e := (topExp xs).getD 0
  let ints := xs.map fun x => quantInt x (e - b.scale) b.limit
  { cells := ints.map fun v => BitVec.ofInt 8 (if b.b16 then v / 128 else v)
    low := if b.b16 then ints.map fun v => BitVec.ofInt 8 (v % 128) else []
    e := e
    wild := xs.any FNum.wild }

/-- The binding of a set is of a 16-bit B. -/
def MacroSet.wide (x : MacroSet) : Bool := x.binding.any (·.b16)

/-- The cell of logical macro m at a row and one of its 20 columns (13 R254): column n of an 8-bit B lies in macro n div 20; macros 2j and
2j + 1 hold columns 20j to 20j + 19 of a 16-bit B. Rows and columns that B does not have are zero (R256). -/
def MacroSet.cell (x : MacroSet) (m row k : Nat) : BitVec 8 :=
  match x.cells[20 * (if x.wide then m / 2 else m) + k]? with
  | none => 0
  | some c => (if x.wide && m % 2 = 1 then c.low else c.cells).getD row 0

/-- The weight at a row and column of the tile as its macros hold it (13 R254, R255). -/
def MacroSet.weight (x : MacroSet) (row n : Nat) : Int :=
  if x.wide then 128 * (x.cell (2 * (n / 20)) row (n % 20)).toInt + (x.cell (2 * (n / 20) + 1) row (n % 20)).toNat
  else (x.cell (n / 20) row (n % 20)).toInt

/-- The physical macro of a logical one: its latest remap entry, or itself (05 R96). -/
def MacroSet.physical (x : MacroSet) (m : Nat) : Nat := (((x.spares.filter fun y => y.1 = m).getLast?).map (·.2)).getD m

/-- The contribution of one row of A to column n of a set (13 R257): the lane's addend with its flags. -/
def columnSum (p : Nat) (ea : Int) (ai : List Int) (sb : Int) (x : MacroSet) (n : Nat) : FNum × BitVec 6 :=
  let col := x.cells.getD n default
  if col.wild then (.nan false, flagNv)
  else
    let s := ai.zipIdx.foldl (fun t y => t + y.1 * x.weight y.2 n) 0
    let y := laneFmt f32 ((FNum.ofInt s).scaleBy (ea - (p : Int) + 2 + col.e - sb))
    (readFmt f32 y.1, y.2)

/-- A node after one row of A (13 R257, R258). -/
def Node.addRow (nd : Node) (p row col0 n : Nat) (sb : Int) (a : List FNum) (x : MacroSet) : Node × BitVec 6 :=
  if a.all FNum.isZero then (nd, noFlags)
  else
    let wild := a.any FNum.wild
    let ea := (topExp a).getD 0
    let ai := a.map fun x => quantInt x (ea - (p : Int) + 2) (2 ^ (p - 1) - 1)
    (List.range n).foldl
      (fun acc i =>
        let v := if wild then (FNum.nan false, flagNv) else columnSum p ea ai sb x i
        let y := acc.1.addLane row (col0 + i) v.1
        (y.1, acc.2 ||| v.2 ||| y.2)) (nd, noFlags)

/-! ### Tasks by their place in commit order -/

/-- A task with its context. -/
def State.task? (s : State) (seq : Nat) : Option (Nat × Task) :=
  [0, 1, 2, 3].findSome? fun c => ((s.ctx c).tasks.find? fun t => t.seq = seq).map fun t => (c, t)

/-- A task changed. -/
def State.modTask (s : State) (c seq : Nat) (f : Task → Task) : State :=
  s.modCtx c fun x => { x with tasks := x.tasks.map fun t => if t.seq = seq then f t else t }

/-- A task is a pair task. -/
def Ctx.pairTask (x : Ctx) (t : Task) : Bool :=
  match t.node? with
  | some (b, n) => (x.node b n).pair
  | none => false

/-- The macro sets that a task on a set takes. -/
def Ctx.setsOf (x : Ctx) (t : Task) (bay : Nat) : List Nat := if x.pairTask t then [bay, bay + 1] else [bay]

/-- The set of a running or deferred task. -/
def Task.set? (t : Task) : Option Nat :=
  match t.st with
  | .running b _ _ => some b
  | .deferred b _ => some b
  | .queued => none

/-- A macro set is free: no task runs on it or has it for its slot. -/
def State.setFree (s : State) (bay : Nat) : Bool :=
  s.ctxs.all fun x => x.tasks.all fun t =>
    match t.set? with
    | some b => !((x.setsOf t b).contains bay)
    | none => true

/-- The macro set of a bay changed. -/
def State.modSet (s : State) (bay : Nat) (f : MacroSet → MacroSet) : State :=
  { s with fab := { s.fab with sets := setKey s.fab.sets bay (f (s.macroSet bay)) } }

/-- The binding of a task. -/
def Task.binding (t : Task) : Binding :=
  match t.kind with
  | .load _ b => b
  | .task _ _ _ b => b

/-- A task is held at its matrix port. -/
def State.taskHeld (s : State) (seq : Nat) : Bool := s.net.reqs.any fun q => q.kind = .matrixStop seq

/-- A context after a task of it is over: its record leaves the queue, got rises, its flags reach the issuing element's copy (13
R257, R265). -/
def Ctx.taskOver (x : Ctx) (t : Task) : Ctx :=
  let y := { x with tasks := x.tasks.filter fun z => z.seq ≠ t.seq }
  let z := match t.node? with
    | some (b, n) => y.modNode b n fun d => { d with got := d.got + 1 }
    | none => y
  z.modElem t.unit fun e => { e with flags := addFlags e.flags t.flags 0 }

/-- A task over, and the port at which it was held goes on. -/
def State.endTask (s : State) (c : Nat) (t : Task) : State :=
  let s1 := s.modCtx c fun x => x.taskOver t
  { s1 with net := { s1.net with reqs := s1.net.reqs.filter fun q => q.kind ≠ .matrixStop t.seq } }

/-- A task of a context that is away is over (20 R355). -/
def State.endSaved (s : State) (seq : Nat) : State :=
  let ended (v : Save) : Save :=
    match v.ctx.tasks.find? fun t => t.seq = seq with
    | some t => { v with ctx := v.ctx.taskOver t }
    | none => v
  { s with net := { s.net with saves := s.net.saves.map ended } }

/-! ### Issue (13 R265, R277) -/

/-- A pending window of a context in a hall holds its records (13 R276). -/
def Ctx.windowPending (x : Ctx) (hall : Nat) : Bool := x.windows.any fun w => w.hall = hall && !w.open_

/-- The records of a hall: context and record, in commit order. -/
def State.hallTasks (s : State) (hall : Nat) : List (Nat × Task) :=
  sortBy (fun y => y.2.seq)
    ([0, 1, 2, 3].flatMap fun c => ((s.ctx c).tasks.filter fun t => hallOfBay t.bay = hall).map fun t => (c, t))

/-- The tag that a record waits for. -/
def Task.waitsFor (t : Task) : Nat :=
  match t.kind with
  | .task _ _ d _ => d.after
  | .load _ _ => 0

/-- The tag that a record carries. -/
def Task.carries (t : Task) : Nat :=
  match t.kind with
  | .task _ _ d _ => d.as_
  | .load _ _ => 0

/-- A queued record is eligible (13 R265). -/
def State.eligible (s : State) (hall c : Nat) (t : Task) : Bool :=
  let x := s.ctx c
  let before := (s.hallTasks hall).filter fun y => decide (y.2.seq < t.seq)
  t.st = .queued && x.status = .resident && !(x.windowPending hall) &&
  (before.all fun y => t.waitsFor = 0 || y.2.carries ≠ t.waitsFor) &&
  before.all fun y => y.1 ≠ c || y.2.bay ≠ t.bay || y.2.node?.isNone || y.2.node? ≠ t.node?

/-- The eligible record of a hall that the scheduler picks: the highest CX.PRIO, then the earliest committed. -/
def State.pickTask (s : State) (hall : Nat) : Option (Nat × Task) :=
  firstBy (fun a b => decide ((s.ctx b.1).prio < (s.ctx a.1).prio)) ((s.hallTasks hall).filter fun y => s.eligible hall y.1 y.2)

/-- The set on which a record is issued: one that holds its binding, or the lowest free one; a pair's own bays (13 R265). -/
def State.setFor (s : State) (hall c : Nat) (t : Task) : Option Nat :=
  let x := s.ctx c
  if x.pairTask t then
    match t.node? with
    | some (b, _) => if s.setFree b && s.setFree (b + 1) then some b else none
    | none => none
  else
    let free := (span (7 * hall) 7).filter s.setFree
    match free.find? fun b => (s.macroSet b).binding = some t.binding with
    | some b => some b
    | none => free.head?

/-- The macros of a task. -/
def Ctx.macrosOf (x : Ctx) (t : Task) : Nat := if x.pairTask t then 64 else 32

/-- The macros of a context's declared tasks that run in a hall or wait for their slots (13 R277). -/
def Ctx.declaredIn (x : Ctx) (hall : Nat) : Nat :=
  sumNat (x.tasks.map fun t =>
    if hallOfBay t.bay = hall then
      (match t.st with
       | .running _ true _ => x.macrosOf t
       | .deferred _ _ => x.macrosOf t
       | _ => 0)
    else 0)

/-- The next instant not before now at which the time since a window opened, modulo 1 750 ns, is 250 j ns. -/
def slotAfter (openAt now j : Nat) : Nat :=
  let base := openAt + 250 * j
  if now ≤ base then base else base + ceilDiv (now - base) 1750 * 1750

/-- A task starts on its sets: their ballast stops (22 R379). -/
def State.startTask (s : State) (c : Nat) (t : Task) (bay : Nat) (declared : Bool) : State :=
  let s1 := ((s.ctx c).setsOf t bay).foldl (fun y b => y.modSet b fun m => { m with bursts := [] }) s
  s1.modTask c t.seq fun z => { z with st := .running bay declared s.clock.ns }

/-- The picked record issued on a set: a load at once, a task declared or undeclared (13 R277). -/
def State.issueOn (s : State) (hall c : Nat) (t : Task) (bay : Nat) : State :=
  match t.kind with
  | .load _ _ => s.modTask c t.seq fun z => { z with st := .running bay false s.clock.ns }
  | .task _ _ _ _ =>
    let x := s.ctx c
    match x.windows.find? fun w => w.hall = hall && w.open_ && decide (x.declaredIn hall + x.macrosOf t ≤ w.adm) with
    | some w =>
      let at_ := slotAfter w.openAt s.clock.ns (bay % 7)
      if at_ = s.clock.ns then s.startTask c t bay true else s.modTask c t.seq fun z => { z with st := .deferred bay at_ }
    | none =>
      (s.modCtx c fun y => y.modElem t.unit fun e => { e with burst := sat32 (e.burst.toNat + 1) }).startTask c t bay false

/-- One issue by the scheduler of a hall. -/
def State.issueTask (s : State) (hall : Nat) : State :=
  match s.pickTask hall with
  | none => s
  | some (c, t) =>
    match s.setFor hall c t with
    | none => s
    | some bay => s.issueOn hall c t bay

/-- A deferred start whose slot has come begins. -/
def State.slotStart (s : State) (seq : Nat) : State :=
  match s.task? seq with
  | some (c, t) =>
    (match t.st with
     | .deferred bay at_ => if at_ ≤ s.clock.ns then s.startTask c t bay true else s
     | _ => s)
  | none => s

/-! ### Running (13 R256, R266 to R268) -/

/-- The request by which a task reads n bytes under a capability. -/
def Task.read (t : Task) (s : State) (c bay addr : Nat) (cap : Pair) : Req :=
  let x := s.ctx c
  ⟨0, ⟨2, bay⟩, c, t.seq, x.stream, t.unit, 0, t.ptr, t.tag, t.stamp, 0, capSpace cap, addr, x.asid, .matrixStop t.seq, .waiting, none,
    [], ⟨[], []⟩, []⟩

/-- A task is held at the matrix port of its set, at a row (13 R268; 20 R347). -/
def State.stopTask (s : State) (c bay : Nat) (t : Task) (cap : Pair) (e : Nat × Nat × Nat) (row : Nat) : State :=
  let q := { t.read s c bay e.2.2 cap with id := s.net.nextReq }
  (s.addReq q).holdReq q e.1 e.2.1 [row]

/-- The courses of one row of a capability: row i, of a stride, k elements of a type. -/
def State.rowAt (s : State) (c bay : Nat) (t : Task) (cap : Pair) (ty : Ty) (stride k i off : Nat) (ext : Ext) :
    Except (Nat × Nat × Nat) (List Course) :=
  let n := (k + ty.count - 1) / ty.count
  match s.portBytes (t.read s c bay ((capCursor cap + i * stride) % 2 ^ 72) cap) (64 * n) off ext with
  | .error e => .error e
  | .ok l => .ok (coursesOf n l)

/-- Rows read in order: the courses of each, or what stopped it with the row. -/
def readRows (f : Nat → Except (Nat × Nat × Nat) (List Course)) (l : List Nat) :
    Except ((Nat × Nat × Nat) × Nat) (List (List Course)) :=
  match l with
  | [] => .ok []
  | i :: t =>
    match f i with
    | .error e => .error (e, i)
    | .ok x => match readRows f t with
      | .error e => .error e
      | .ok xs => .ok (x :: xs)

/-- The cells of a binding computed by a set for a task (13 R255, R268). -/
def State.cellsFor (s : State) (c bay : Nat) (t : Task) (b : Binding) (ext : Ext) :
    Except ((Nat × Nat × Nat) × Nat) (List Column) :=
  let w := 64 * ((b.n + b.ty.count - 1) / b.ty.count)
  match readRows (fun i => s.rowAt c bay t b.cap b.ty b.stride b.n i (w * i) ext) (List.range b.k) with
  | .error e => .error e
  | .ok rows =>
    let nums := rows.map fun cs => (rowNums b.ty cs b.n).1
    .ok ((List.range b.n).map (b.column nums))

/-- Sets after they loaded the cells of a binding. -/
def State.loadSets (s : State) (bays : List Nat) (b : Binding) (cells : List Column) : State :=
  bays.foldl (fun y i => y.modSet i fun m => { m with binding := some b, cells := cells }) s

/-- An eligible record of higher priority waits without a set, and a task is the one that gives way to it (13 R267). -/
def State.preempted (s : State) (hall c : Nat) (t : Task) : Bool :=
  match s.pickTask hall with
  | none => false
  | some (d, z) =>
    let lower (a b : Nat × Task) : Bool :=
      decide ((s.ctx a.1).prio < (s.ctx b.1).prio) || ((s.ctx a.1).prio = (s.ctx b.1).prio && decide (b.2.seq < a.2.seq))
    (s.setFor hall d z).isNone && decide ((s.ctx c).prio < (s.ctx d).prio) &&
    (firstBy lower ((s.hallTasks hall).filter fun y => y.2.running)).any fun y => y.2.seq = t.seq

/-- What follows at a boundary of row tags: the task is over, cancelled, cut, or goes on (13 R265 to R267, R274). -/
def State.afterRows (s : State) (c : Nat) (t : Task) (m : Nat) : State :=
  if m ≤ t.done || t.cut then s.endTask c t
  else if (s.ctx c).status ≠ .resident || s.preempted (hallOfBay t.bay) c t then
    s.modTask c t.seq fun z => { z with st := .queued }
  else s

/-- The planes of a task record (13 R263). -/
def TaskDesc.planes (d : TaskDesc) : Nat := (planesOf d.p).getD 8

/-- The rows of one row tag applied to its node by a macro set (13 R257, R261, R266). -/
def State.applyRows (s : State) (c : Nat) (t : Task) (d : TaskDesc) (b : Binding) (ty : Ty) (rows : List (Nat × List Course))
    (set : MacroSet) : State :=
  let bay := t.nodeBay d
  let nd := (s.ctx c).node bay d.node
  let y := rows.foldl
    (fun (acc : Node × BitVec 6) r =>
      let a := rowNums ty r.2 d.k
      let head := r.2.headD 0
      let z := acc.1.addRow d.planes (d.row0 + r.1) d.col0 b.n b.scale a.1 set
      (z.1.putTail (d.row0 + r.1) (tailOf (crsL head) (crsK head) false), acc.2 ||| a.2 ||| z.2)) (nd, t.flags)
  let s1 := s.modCtx c fun x => x.modNode bay d.node fun _ => y.1
  s1.modTask c t.seq fun z => { z with done := t.done + rows.length, flags := y.2 }

/-- The end of a row tag of a running task, or of the load of a set (13 R266, R268). -/
def State.rowTag (s : State) (seq : Nat) (ext : Ext) : State :=
  match s.task? seq with
  | none => s
  | some (c, t) =>
    match t.st with
    | .running bay _ _ =>
      if s.taskHeld seq || !(s.over t.after) then s
      else
        let b := t.binding
        let sets := (s.ctx c).setsOf t bay
        let kept := match t.kind with
          | .task _ _ _ _ => sets.all fun i => (s.macroSet i).binding = some b
          | .load _ _ => false
        let cells := if kept then Except.ok (s.macroSet bay).cells else s.cellsFor c bay t b ext
        (match cells with
         | .error (e, row) => s.stopTask c bay t b.cap e row
         | .ok cs =>
           let s1 := s.loadSets sets b cs
           match t.kind with
           | .load _ _ => s1.endTask c t
           | .task acap _ d _ =>
             let ty := (rowTy d.afmt).getD .f32
             let idx := span t.done (min 16 (d.m - t.done))
             let w := 64 * rowCourses d.afmt d.k
             match readRows (fun i => s1.rowAt c bay t acap ty d.stride d.k i (w * (i - t.done)) ext) idx with
             | .error (e, row) => s1.stopTask c bay t acap e row
             | .ok rows =>
               let s2 := s1.applyRows c t d b ty (idx.zip rows) (s1.macroSet bay)
               match s2.task? seq with
               | some (_, z) => s2.afterRows c z d.m
               | none => s2)
    | _ => s

/-! ### Releases and failures (13 R268, R272) -/

/-- The bytes that a node's rows are written as: address offset and course (13 R272). -/
def Node.rowsOut (n : Node) : List (Nat × Course) :=
  (List.range n.rows).flatMap fun r => (List.range n.width).map fun i => (64 * (r * n.width + i), n.course r (15 * i))

/-- A barrier contribution that waits for requests, of a collective's chunk or not (17 R315, R323). -/
def State.laterOf (s : State) (op : Option Nat) (c bay bar arr bytes : Nat) (ids : List Nat) : State :=
  let k : Contribution := ⟨s.net.nextCon, c, (s.ctx c).stream, bay, bar, arr, bytes, ids, op⟩
  { s with net := { s.net with contribs := s.net.contribs ++ [k], nextCon := s.net.nextCon + 1 } }

/-- A barrier contribution of no collective that waits for requests. -/
def State.later (s : State) (c bay bar arr bytes : Nat) (ids : List Nat) : State := s.laterOf none c bay bar arr bytes ids

/-- A node released: its rows leave as stores, its barrier waits for them, its state starts afresh (13 R272). -/
def State.releaseNode (s : State) (c bay id : Nat) : State :=
  let x := s.ctx c
  let nd := x.node bay id
  match nd.releases with
  | [] => s
  | (n, bar, cap, ptr, tag, stamp) :: rest =>
    if decide (nd.got < n) || !(x.nodeStill bay id) || x.status = .absent then s
    else
      let q (y : Nat × Course) : Req :=
        ⟨0, ⟨2, bay⟩, c, 2 ^ 32 + s.net.nextCon, x.stream, .element (8 * bay), 0, ptr, tag, stamp, 0, capSpace cap,
          (capCursor cap + y.1) % 2 ^ 72, x.asid, .store (.course y.2), .waiting, none, [], ⟨[], []⟩, []⟩
      let ids := span s.net.nextReq (nd.rowsOut.length)
      let s1 := nd.rowsOut.foldl (fun t y => t.addReq (q y)) s
      (s1.later c bay bar 0 nd.size ids).modCtx c fun y => y.modNode bay id fun d =>
        { d with got := d.got - n, lanes := [], tails := [], lastKc := [], releases := rest }

/-- A spare macro brought in for a logical one, by a new remap entry that takes the place of the old; none where both are in use (05 R96;
23 R392). -/
def MacroSet.spare (x : MacroSet) (m : Nat) : Option MacroSet :=
  if x.spares.length < 2 then some { x with spares := x.spares ++ [(m, 32 + x.spares.length)] } else none

/-- MCUT at commit (13 R274). -/
def State.cutTasks (s : State) (c bay tag : Nat) (all : Bool) : State :=
  let named (t : Task) : Bool := t.bay = bay && (all || (match t.kind with
    | .task _ _ d _ => d.as_ = tag
    | .load _ _ => false))
  ((s.ctx c).tasks.filter named).foldl
    (fun y t => if t.running then y.modTask c t.seq fun z => { z with cut := true } else y.endTask c t) s

/-! ### Power windows (13 R276) -/

/-- PHASE at commit in a hall. -/
def State.openWindow (s : State) (c hall onset intensity len : Nat) : State :=
  let at_ := s.clock.ns + 1000 * max onset 8
  let new : Window := ⟨hall, at_, at_ + 1000 * len, 14 * intensity, false⟩
  s.modCtx c fun x => { x with windows := (x.windows.filter fun w => w.hall ≠ hall) ++ [new] }

/-- A pending window whose onset has passed opens. -/
def State.windowOpens (s : State) (c hall : Nat) : State :=
  s.modCtx c fun x => { x with
    windows := x.windows.map fun w => if w.hall = hall && decide (w.openAt ≤ s.clock.ns) then { w with open_ := true } else w }

/-- A window whose length has passed closes. -/
def State.windowCloses (s : State) (c hall : Nat) : State :=
  s.modCtx c fun x => { x with
    windows := x.windows.filter fun w => !(w.hall = hall && w.open_ && decide (w.closeAt ≤ s.clock.ns)) }

/-- NODE_RELEASE (13 R272). -/
def execNodeRelease (s : State) : Result State :=
  .next (s.releaseNode s.sched.subject.c s.sched.subject.k s.sched.subject.e)
/-- TASK_ISSUE (13 R265). -/
def execTaskIssue (s : State) : Result State := .next (s.issueTask s.sched.subject.k)
/-- DECLARED_START_SLOT (13 R277). -/
def execDeclaredStartSlot (s : State) : Result State := .next (s.slotStart s.sched.subject.k)
/-- ROW_TAG_APPLY (13 R266). -/
def execRowTagApply (s : State) : Result State := .next (s.rowTag s.sched.subject.k s.sched.subject.ext)
/-- POWER_WINDOW_OPEN (13 R276). -/
def execPowerWindowOpen (s : State) : Result State := .next (s.windowOpens s.sched.subject.c s.sched.subject.k)
/-- POWER_WINDOW_CLOSE (13 R276). -/
def execPowerWindowClose (s : State) : Result State := .next (s.windowCloses s.sched.subject.c s.sched.subject.k)

end Sys2Proof.Machine
end

