-- ==== Sys2Proof/Machine/Engines.lean ====
section
/-! DEFINITION. The copy, quantising, export and collective engines, and barrier contributions (03 R68; 17 R315 to R323; 18 R335, R338;
20 R356, R366). -/
namespace Sys2Proof.Machine

/-! ### MXFP8 on the wire (03 R68) -/

/-- The exponent and fraction bits of a wire format: 1 is E4M3, 2 is E5M2. -/
def mxFrac (wire : Nat) : Nat := if wire = 1 then 3 else 2
/-- The least normal exponent. -/
def mxEmin (wire : Nat) : Int := if wire = 1 then -6 else -14
/-- The exponent of the largest finite element. -/
def mxEmax (wire : Nat) : Int := if wire = 1 then 8 else 15
/-- The code of the largest finite element. -/
def mxTop (wire : Nat) : Nat := if wire = 1 then 0x7E else 0x7B
/-- The value of the largest finite element. -/
def mxMax (wire : Nat) : FNum := if wire = 1 then FNum.ofInt 448 else FNum.ofInt 57344

/-- The magnitude code of m * 2^e within the finite range, rounded by RNE, and whether it is inexact. -/
def mxRound (wire m : Nat) (e : Int) : Nat × Bool :=
  let l := floorLog2 m e
  let lo := max l (mxEmin wire)
  let y := roundUnits 0 false m e (lo - mxFrac wire)
  (y.1 + (lo - mxEmin wire).toNat * 2 ^ mxFrac wire, y.2)

/-- One element encoded under a block scale X: its code and flags. -/
def mxEncode (wire : Nat) (x : Int) (w : BitVec 32) : Nat × BitVec 6 :=
  let sg := if bit w 31 then 128 else 0
  match readFmt f32 (flushIn f32 w.toNat) with
  | .nan _ => (sg + (if wire = 1 then 0x7F else 0x7E), noFlags)
  | .inf _ => if wire = 1 then (sg + 0x7E, flagSat ||| flagNx) else (sg + 0x7C, noFlags)
  | .fin _ m e =>
    if m = 0 then (sg, noFlags)
    else if ltNum (mxMax wire) (.fin false m (e - x)) then (sg + mxTop wire, flagSat ||| flagNx)
    else
      let y := mxRound wire m (e - x)
      (sg + y.1, flagIf y.2 flagNx)

/-- A wire element as a number. -/
def mxNum (wire c : Nat) : FNum :=
  let neg := decide (128 ≤ c % 256)
  let k := mxFrac wire
  let m := c % 128
  let e := m / 2 ^ k
  let f := m % 2 ^ k
  if wire = 1 && m = 0x7F then .nan false
  else if wire = 2 && e = 31 then (if f = 0 then .inf neg else .nan false)
  else if e = 0 then .fin neg f (mxEmin wire - k)
  else .fin neg (2 ^ k + f) (mxEmin wire + e - 1 - k)

/-- One element expanded under a scale byte, flushed, with the flags of the flush. -/
def mxExpand (wire scale c : Nat) : BitVec 32 × BitVec 6 :=
  let y := laneFmt f32 ((mxNum wire c).scaleBy ((scale : Int) - 127))
  (BitVec.ofNat 32 y.1, y.2)

/-- The scale exponent of a block. -/
def mxScale (wire : Nat) (l : List (BitVec 32)) : Int :=
  let xs := (l.map fun w => readFmt f32 (flushIn f32 w.toNat)).filter fun x => !x.wild
  match topExp xs with
  | none => 0
  | some t => max (-127) (min 127 (t - mxEmax wire))

/-- Blocks of 32 encoded: scale bytes, codes, flags. -/
def mxBlocks (fuel wire : Nat) (l : List (BitVec 32)) : List Byte × List (BitVec 32) × BitVec 6 :=
  match fuel with
  | 0 => ([], [], noFlags)
  | n + 1 =>
    if l = [] then ([], [], noFlags)
    else
      let b := l.take 32
      let x := mxScale wire b
      let ys := b.map (mxEncode wire x)
      let t := mxBlocks n wire (l.drop 32)
      (BitVec.ofInt 8 (x + 127) :: t.1, (ys.map fun y => BitVec.ofNat 32 y.1) ++ t.2.1, orFlags ys ||| t.2.2)

/-- The words of a chunk as it arrives, expanded, with their flags. -/
def chunkExpand (k : Chunk) : List (BitVec 32) × BitVec 6 :=
  if k.wire = 0 then (k.elems, noFlags)
  else
    let ys := k.elems.zipIdx.map fun x => mxExpand k.wire (k.scales.getD (x.2 / 32) 0).toNat x.1.toNat
    (ys.map (·.1), ys.foldl (fun f y => f ||| y.2) noFlags)

/-! ### Operations -/

/-- An operation changed. -/
def State.modEngine (s : State) (id : Nat) (f : EngineOp → EngineOp) : State :=
  { s with net := { s.net with engines := s.net.engines.map fun o => if o.id = id then f o else o } }

/-- An operation. -/
def State.engine? (s : State) (id : Nat) : Option EngineOp := s.net.engines.find? fun o => o.id = id

/-- The port of an operation: its bay's engine port; of a collective a link port, the first where no chunk of it is concerned (log 34). -/
def EngineOp.port (o : EngineOp) : PortId :=
  match o.kind with
  | .coll _ _ _ _ _ _ _ _ _ => ⟨4, 0⟩
  | _ => ⟨3, o.bay⟩

/-- The ASID under which an operation translates: its context's, wherever that is. -/
def EngineOp.asid (o : EngineOp) (s : State) : BitVec 16 := (s.homeCtx o.ctx o.load_).asid

/-- A request of an operation. -/
def EngineOp.req (o : EngineOp) (s : State) (space addr : Nat) (k : ReqKind) : Req :=
  ⟨0, o.port, o.ctx, o.id, o.load_, o.unit, 0, o.ptr, o.tag, o.stamp, 0, space, addr, o.asid s, k, .waiting, none, [], ⟨[], []⟩, []⟩

/-- An operation held as a whole at an address, with the byte offset that it reports (17 R320; 20 R366). -/
def State.stopEngine (s : State) (o : EngineOp) (space addr cls code off : Nat) : State :=
  let q := { o.req s space addr (.engineStop o.id) with id := s.net.nextReq }
  (s.addReq q).holdReq q cls code [off]

/-- A page of a range: its first address, its byte offset in the range, the space, and whether it is of the destination. -/
structure RangePage where
  va    : Nat
  off   : Nat
  space : Nat
  dst   : Bool
  deriving DecidableEq, Repr, Inhabited

/-- The pages of a range of n bytes. -/
def rangePages (cap : Pair) (n : Nat) (dst : Bool) : List RangePage :=
  if translates (capSpace cap) then (granuleVas (capCursor cap) n).map fun va => ⟨va, va - capCursor cap, capSpace cap, dst⟩ else []

/-- The bytes of source and destination that an operation translates. -/
def EngineKind.extent (k : EngineKind) : Nat × Nat :=
  match k with
  | .cpy n => (n, n)
  | .cpyq _ stride => (59 * stride + 256, 3840)
  | .cxpt g => (4096 * g, 8 * g)
  | .coll op n _ count _ _ _ _ _ => collBytes op n count

/-- An operation skips a page that RETRY cancelled (20 R349). -/
def EngineOp.skips (o : EngineOp) (p : RangePage) : Bool := o.skip.contains (p.va / 4096, p.dst)

/-- The first page of an operation that does not translate, or is of the wrong kind: page, class and code. -/
def EngineOp.pageFault (o : EngineOp) (s : State) (pages : List RangePage) : Option (RangePage × Nat × Nat) :=
  (sortBy (fun (p : RangePage) => p.va) pages).findSome? fun p =>
    if o.skips p || !(translates p.space) then none
    else match s.pageFor o.port (o.asid s) p.va with
      | .error k => some (p, 3, k)
      | .ok g =>
        let c := leafCode g p.va p.space (if p.dst then .store else .load)
        let typed := pteTyped g.leaf
        let code : Nat := match o.kind with
          | .cpy n => if p.dst && typed && (capCursor o.dst % 64 ≠ 0 || n % 64 ≠ 0) then 25 else 99
          | .cpyq _ _ => if typed then 99 else 7
          | .cxpt _ => if p.dst || typed then 99 else 7
          | .coll _ _ _ _ _ _ _ _ _ => if typed then 8 else 99
        if c ≠ 99 then some (p, 3, c) else if code ≠ 99 then some (p, 4, code) else none

/-- The pages that a request of an operation uses for good. -/
def EngineOp.pages (o : EngineOp) (s : State) (l : List RangePage) : List Page :=
  l.filterMap fun p => match s.pageFor o.port (o.asid s) p.va with
    | .ok g => some g
    | .error _ => none

/-! ### CPY, CPYQ, CXPT (17 R321, R322; 20 R366) -/

/-- The pieces of a copy: offset and length, none crossing a boundary that a test names. -/
def cutRange (fuel off n : Nat) (room : Nat → Nat) : List (Nat × Nat) :=
  match fuel with
  | 0 => []
  | k + 1 =>
    if n = 0 then []
    else
      let m := max 1 (min n (room off))
      (off, m) :: cutRange k (off + m) (n - m) room

/-- How far a piece of a copy may reach from an offset: a whole course of a typed destination, which is checked alone (10 R212); else to
the end of what is read indivisibly, a course of a typed source or an aligned word, and of the destination's granule (17 R321). -/
def copyRoom (o : EngineOp) (typed : Nat → Bool → Bool) (off : Nat) : Nat :=
  let word := if typed off false then 64 else 8
  if typed off true then 64 else min (4096 - (capCursor o.dst + off) % 4096) (word - (capCursor o.src + off) % word)

/-- A piece of a range touches a page that is skipped. -/
def EngineOp.skipped (o : EngineOp) (cap : Pair) (dst : Bool) (off n : Nat) : Bool :=
  (granuleVas (capCursor cap + off) n).any fun va => o.skip.contains (va / 4096, dst)

/-- The places that a range of n bytes takes, by granule. -/
def EngineOp.rangeKeys (o : EngineOp) (s : State) (cap : Pair) (n : Nat) (dst : Bool) : List (Nat × Nat) :=
  (rangePages cap n dst).filterMap fun p => match s.pageFor o.port (o.asid s) p.va with
    | .ok g => some ((g.spot p.va).key, min (4096 - p.va % 4096) (n - p.off))
    | .error _ => none

/-- Source and destination of a copy overlap, by address or by place: the destination bytes are undefined (17 R321). -/
def EngineOp.overlaps (o : EngineOp) (s : State) : Bool :=
  match o.kind with
  | .cpy n =>
    (capSpace o.src = capSpace o.dst && rangesMeet (capCursor o.src, n) (capCursor o.dst, n)) ||
    ((o.rangeKeys s o.src n false).any fun x => (o.rangeKeys s o.dst n true).any fun y => rangesMeet x y)
  | _ => false

/-- The bytes that a copy writes of those it has read: with an overlap, free bytes in their place (17 R321; log 10). -/
def State.copied (s : State) (op : Nat) (l : List Byte) : List Byte :=
  if (s.engine? op).any fun o => o.overlaps s then l.zipIdx.map fun x => Config.freeByte (s.sched.moves + x.2) else l

/-- The requests of a copy of n bytes. -/
def EngineOp.copyReqs (o : EngineOp) (s : State) (n : Nat) : List Req :=
  let pages := rangePages o.src n false ++ rangePages o.dst n true
  let ps := o.pages s pages
  let typed (off : Nat) (dst : Bool) : Bool :=
    let cap := if dst then o.dst else o.src
    translates (capSpace cap) && ps.any fun g => pteTyped g.leaf && g.covers (capCursor cap + off)
  ((cutRange n 0 n (copyRoom o typed)).filter fun x => !(o.skipped o.src false x.1 x.2) && !(o.skipped o.dst true x.1 x.2)).map fun x =>
    let q := o.req s (capSpace o.src) (capCursor o.src + x.1) (.engineRead (capSpace o.dst) (capCursor o.dst + x.1) x.2)
    { q with loops := [x.1], trans := ps.filter fun g =>
        (granuleVas (capCursor o.src + x.1) x.2 ++ granuleVas (capCursor o.dst + x.1) x.2).any g.covers }

/-- The requests of an export of g granules. -/
def EngineOp.mapReqs (o : EngineOp) (s : State) (g : Nat) : List Req :=
  let ps := o.pages s (rangePages o.src (4096 * g) false ++ rangePages o.dst (8 * g) true)
  ((List.range g).filter fun i =>
      !(o.skipped o.src false (4096 * i) 4096) && !(o.skipped o.dst true (8 * i) 8)).map fun i =>
    let q := o.req s (capSpace o.src) (capCursor o.src + 4096 * i) (.engineMap (capSpace o.dst) (capCursor o.dst + 8 * i))
    { q with loops := [4096 * i], trans := ps.filter fun p => p.covers (capCursor o.src + 4096 * i) || p.covers (capCursor o.dst + 8 * i) }

/-- The course map of a granule (10 R215; 17 R322): the courses present; all of them on a page that is not compressed. -/
def State.courseMap (s : State) (key : Nat) (cmp : Bool) : Word :=
  (List.range 64).foldl
    (fun m i => if !cmp || !(crsZ (BitVec.ofNat 512 (s.numAt (key + 64 * i) 64))) then m ||| (1#64 <<< i) else m) 0

/-- The 60 values of a row of a tile from its courses, or a format code (03 R48; 17 R321). -/
def tileRow (cs : List Course) : Except Nat (List FNum × BitVec 6) :=
  match narrowTy (crsFmt (cs.headD 0)) with
  | none => .error (let k := checkCourse (cs.headD 0); if k = 1 || k = 2 then k else 3)
  | some ty =>
    let k := firstCode (cs.map fun c => let k := checkTyped ty c; (k ≠ 99, k))
    if k ≠ 99 then .error k else if cs.any fun c => crsL c ≠ 0 then .error 5 else .ok (rowNums ty cs 60)

/-- The courses of a row of a tile by its first course's format. -/
def tileCourses (c : Course) : Nat :=
  match narrowTy (crsFmt c) with
  | some ty => (60 + ty.count - 1) / ty.count
  | none => 1

/-- A tile's T8 courses from its rows (17 R321). -/
def tileOut (col : Bool) (rows : List (List FNum)) : List (Course × BitVec 6) :=
  (List.range 60).map fun i =>
    let l := if col then rows.map fun r => r.getD i FNum.zero else rows.getD i []
    let y := taperLanes 8 (List.replicate 60 (.dir 0)) l
    (mkCourse (fmtCode .t8) y.1 (tailOf 0 0 true) 8 y.2.1, y.2.2)

/-- The request that reads a course of a row of a tile: each course is read on its own (17 R320, R321). -/
def EngineOp.tileReq (o : EngineOp) (s : State) (stride row col : Nat) : Req :=
  let off := row * stride + 64 * col
  { o.req s (capSpace o.src) (capCursor o.src + off) (.engineTile row col) with
    loops := [off], trans := o.pages s [⟨capCursor o.src + off, off, capSpace o.src, false⟩] }

/-- The code of a course of a row of a tile: of a format that CPYQ reads, that of its row's first course, with L = 0 (03 R48; 17 R321). -/
def tileCourseCode (head c : Course) : Nat :=
  match narrowTy (crsFmt head) with
  | none => let k := checkCourse head; if k = 1 || k = 2 then k else 3
  | some ty => let k := checkTyped ty c; if k ≠ 99 then k else if crsL c ≠ 0 then 5 else 99

/-- A course of a row of a tile that an operation holds. -/
def EngineOp.tile? (o : EngineOp) (row col : Nat) : Option Course := (o.tile.find? fun y => y.1 = (row, col)).map (·.2)

/-- Bytes of the source that an operation skips: on a page that it skips, or those of a request that RETRY cancelled (20 R349). -/
def EngineOp.misses (o : EngineOp) (off n : Nat) : Bool := o.skipped o.src false off n || o.lost.any fun x => rangesMeet x (off, n)

/-- The values of a row of a tile with their flags; none where a course of it is skipped. -/
def EngineOp.rowOf (o : EngineOp) (stride row : Nat) : Option (List FNum × BitVec 6) :=
  match o.tile? row 0 with
  | none => none
  | some c =>
    let n := tileCourses c
    if o.misses (row * stride) (64 * n) then none
    else (tileRow ((List.range n).map fun i => (o.tile? row i).getD 0)).toOption

/-- The pages of the range that rows of a tile take, each row as many courses as its first one's format needs (17 R321; 20 R366). -/
def EngineOp.tilePages (o : EngineOp) (s : State) (stride : Nat) (ext : Ext) : List RangePage :=
  (List.range 60).flatMap fun i =>
    let va := capCursor o.src + i * stride
    let n := match s.portBytes (o.req s (capSpace o.src) va (.engineRead 0 0 64)) 64 (i * stride) ext with
      | .ok head => tileCourses (bytesCourse head)
      | .error _ => 1
    (granuleVas va (64 * n)).map fun x => ⟨x, x - capCursor o.src, capSpace o.src, false⟩

/-- A destination course of a tile depends on a row that is skipped. -/
def tileSkips (col : Bool) (rows : List (Option (List FNum × BitVec 6))) (i : Nat) : Bool :=
  if col then rows.any (·.isNone) else (rows.getD i none).isNone

/-- A quantising copy at its start: the first course of each row is asked for. -/
def State.startTile (s : State) (o : EngineOp) (stride : Nat) : State :=
  let rows := (List.range 60).filter fun i => !(o.misses (i * stride) 64)
  (rows.foldl (fun t i => t.addReq (o.tileReq s stride i 0)) s).modEngine o.id fun y => { y with started := true }

/-- A read of an operation is still to be performed that meets source bytes from an offset. -/
def State.readsLeft (s : State) (id off n : Nat) : Bool :=
  s.net.reqs.any fun q => (q.port.kind = 3 || q.port.kind = 4) && q.strm = id && (match q.kind with
    | .engineTile _ _ => true
    | .engineWords at_ m => rangesMeet (at_, m) (off, n)
    | _ => false)

/-- A quantising copy with every course of its source read: its 60 courses leave as stores to a typed page (17 R321). -/
def State.storeTile (s : State) (o : EngineOp) (col : Bool) (stride : Nat) : State :=
  if o.sent ≠ 0 || s.readsLeft o.id 0 0 then s
  else
    let rows := (List.range 60).map (o.rowOf stride)
    let vals := rows.map fun r => (r.getD ([], noFlags))
    let out := (tileOut col (vals.map (·.1))).zipIdx.filter fun x =>
      !(tileSkips col rows x.2) && !(o.skipped o.dst true (64 * x.2) 64)
    let fl := vals.foldl (fun f r => f ||| r.2) noFlags ||| out.foldl (fun f x => f ||| x.1.2) noFlags
    let ps := o.pages s (rangePages o.dst 3840 true)
    let s1 := out.foldl
      (fun t x =>
        t.addReq { o.req s (capSpace o.dst) (capCursor o.dst + 64 * x.2) (.store (.narrow x.1.1)) with trans := ps, loops := [64 * x.2] }) s
    s1.modEngine o.id fun y => { y with sent := 1, flags := fl }

/-! ### Collectives (17 R323; 18 R333, R335, R338) -/

/-- The descriptor of a collective. -/
structure Coll where
  op    : Nat
  n     : Nat
  rank  : Nat
  count : Nat
  wire  : Nat
  group : Nat
  base  : Nat
  step  : Int
  root  : Nat
  deriving DecidableEq, Repr, Inhabited

/-- The device ID of a rank (17 R323). -/
def Coll.device (k : Coll) (r : Nat) : Nat := ((k.base : Int) + r * k.step).toNat

/-- The descriptor of a COLL operation. -/
def EngineOp.coll? (o : EngineOp) : Option Coll :=
  match o.kind with
  | .coll op n rank count wire group base step root => some ⟨op, n, rank, count, wire, group, base, step, root⟩
  | _ => none

/-- The words of a chunk that is summed: count, or the n-th part for asum. -/
def Coll.part (k : Coll) : Nat := if k.op = 2 then ceilDiv k.count k.n else k.count

/-- The sending link port of a device: the port that the tables name, or the first where they name none (log 34). -/
def State.sendPort (s : State) (dst : Nat) : Nat := if s.routePort dst < 18 then s.routePort dst else 0

/-- The 76 bytes of a flit on the link: its header, its payload, its link CRC (18 R330). -/
def flitImage (f : Flit) : List Byte :=
  natBytes f.header.toNat 8 ++ natBytes f.payload.toNat 64 ++ natBytes (Config.linkCrc f.header f.payload).toNat 4

/-! ### Chunks as flits (03 R68; 18 R330, R335) -/

/-- The payload of a data flit: 16 binary32 elements, or one block, its scale, its count less 1, its elements and zeros (18 R335). -/
def dataPayload (wire : Nat) (scale : Byte) (l : List (BitVec 32)) : BitVec 512 :=
  if wire = 0 then BitVec.ofNat 512 (bytesNat (l.flatMap fun w => natBytes w.toNat 4))
  else BitVec.ofNat 512 (bytesNat (scale :: BitVec.ofNat 8 (l.length - 1) :: l.map fun w => BitVec.ofNat 8 w.toNat))

/-- A list cut into parts of n. -/
def cutList {α : Type} (fuel n : Nat) (l : List α) : List (List α) :=
  match fuel with
  | 0 => []
  | k + 1 => if l.isEmpty then [] else l.take n :: cutList k n (l.drop n)

/-- A chunk without its elements: what its header carries. -/
def chunkHead (h : Chunk) : Chunk := { h with scales := [], elems := [] }

/-- The payloads of the flits of a chunk with their kinds: its header, then its data in order (18 R335). -/
def chunkPayloads (h : Chunk) : List (BitVec 4 × BitVec 512) :=
  let parts := cutList h.elems.length (if h.wire = 0 then 16 else 32) h.elems
  (Config.chunkKind true, Config.chunkHeader (chunkHead h)) ::
    parts.zipIdx.map fun x => (Config.chunkKind false, dataPayload h.wire (h.scales.getD x.2 0) x.1)

/-- The flits of a chunk to a device, on vc 2. -/
def chunkFlits (h : Chunk) (dev : Nat) : List Flit :=
  (chunkPayloads h).map fun x => ⟨true, 2, BitVec.ofNat 22 dev, BitVec.ofNat 22 h.srcDev, x.1, 0, x.2⟩

/-- The bytes of flits that a chunk takes. -/
def chunkBytes (h : Chunk) : Nat := 64 * (chunkPayloads h).length

/-- A chunk of words as it leaves, with the flags of its encoding. -/
def Coll.chunk (k : Coll) (dev index : Nat) (sums : Bool) (l : List (BitVec 32)) : Chunk × BitVec 6 :=
  let b := if k.wire = 0 then (([], l, noFlags) : List Byte × List (BitVec 32) × BitVec 6) else mxBlocks l.length k.wire l
  (⟨k.group, k.op, k.n, k.count, k.wire, k.rank, dev, index, sums, b.1, b.2.1⟩, b.2.2)

/-- The sum of the parts of every rank in ascending order, each term as flush(rne(sum + v)), with its flags (17 R323). -/
def Coll.sum (k : Coll) (parts : List (Nat × List (BitVec 32))) : List (BitVec 32) × BitVec 6 :=
  let len := (getKey parts k.rank []).length
  let one (i : Nat) : BitVec 32 × BitVec 6 :=
    (List.range k.n).foldl
      (fun acc r =>
        let z := addNum 0 (readFmt f32 acc.1.toNat) (readFmt f32 ((getKey parts r []).getD i 0).toNat)
        let y := laneFmt f32 z.1
        (BitVec.ofNat 32 y.1, acc.2 ||| z.2 ||| y.2)) (0, noFlags)
  let l := (List.range len).map one
  (l.map (·.1), l.foldl (fun f y => f ||| y.2) noFlags)

/-- The chunks that an operation sends, in order: rank and chunk with flags. -/
def EngineOp.sends (o : EngineOp) (k : Coll) (dev : Nat) : List (Nat × Chunk × BitVec 6) :=
  let all := List.range k.n
  let piece (j : Nat) : List (BitVec 32) := (o.words.drop (j * k.part)).take k.part
  match k.op with
  | 0 => all.map fun r => (r, k.chunk dev k.rank false o.words)
  | 3 => if k.rank = k.root then all.map fun r => (r, k.chunk dev k.rank false o.words) else []
  | 1 => all.map fun r => (r, k.chunk dev r false (piece r))
  | _ =>
    (all.map fun r => (r, k.chunk dev r false (piece r))) ++
    (if o.chunks.length = k.n then all.map fun r => (r, k.chunk dev k.rank true (k.sum o.chunks).1) else [])

/-- The bytes of a list of words. -/
def wordsBytes (l : List (BitVec 32)) : List Byte := l.flatMap fun w => natBytes w.toNat 4

/-- Words of a chunk stored at an offset of the destination through a link port; where cnt is set they count at the barrier once
they are stored. -/
def State.storeChunk (s : State) (o : EngineOp) (port off : Nat) (l : List (BitVec 32)) : State :=
  let bs := wordsBytes l
  let pieces := splitBytes (bs.length + 1) (capCursor o.dst + off) bs
  let ids := span s.net.nextReq pieces.length
  let s1 := pieces.foldl
    (fun t x => t.addReq { o.req s (capSpace o.dst) x.1 (.store (.packed x.2)) with port := ⟨4, port⟩, loops := [x.1 - capCursor o.dst] }) s
  if o.cnt then s1.laterOf (some o.id) o.ctx o.bay o.bar 0 bs.length ids else s1

/-- The offset at which a stored chunk goes. -/
def Coll.place (k : Coll) (index : Nat) : Nat :=
  match k.op with
  | 0 => 4 * index * k.count
  | 2 => 4 * index * k.part
  | _ => 0

/-- A chunk taken by the operation of its group: stored, or kept until every rank's part is there. -/
def State.takeChunk (s : State) (o : EngineOp) (k : Coll) (port : Nat) (h : Chunk) : State :=
  let y := chunkExpand h
  let s1 := s.modEngine o.id fun z => { z with flags := z.flags ||| y.2 }
  if k.op = 0 || k.op = 3 || h.sums then
    (s1.storeChunk o port (k.place h.index) y.1).modEngine o.id fun z => { z with stored := z.stored ++ [(h.index, h.sums)] }
  else
    let parts := setKey o.chunks h.src y.1
    let s2 := s1.modEngine o.id fun z => { z with chunks := parts }
    if parts.length = k.n then
      let t := k.sum parts
      let s3 := s2.modEngine o.id fun z => { z with flags := z.flags ||| t.2 }
      if k.op = 1 then
        (s3.storeChunk o port 0 t.1).modEngine o.id fun z => { z with stored := z.stored ++ [(k.rank, false)] }
      else s3
    else s2

/-- The posted operation of a group whose context is there. -/
def State.collOf (s : State) (group : Nat) : Option (EngineOp × Coll) :=
  s.net.engines.findSome? fun o =>
    match o.coll? with
    | some k => if k.group = group && o.started && (s.ctx o.ctx).status = .resident && (s.ctx o.ctx).stream = o.load_ then some (o, k)
        else none
    | none => none

/-- The bytes held at a link port of chunks whose operation is not posted: whole chunks, and the flits of those still coming (17 R323). -/
def State.heldBytes (s : State) (port : Nat) : Nat :=
  sumNat (s.net.heldChunk.map fun x => if x.1 = port then chunkBytes x.2 else 0) +
  64 * (s.links.rx.filter fun x => x.1 = port && (s.collOf x.2.1).isNone).length

/-- A chunk offered to the operation of its group: taken, discarded with the event "collective mismatch", or none is there. -/
def State.offerChunk (s : State) (port : Nat) (h : Chunk) : Option State :=
  match s.collOf h.group with
  | none => none
  | some (o, k) =>
    if h.op ≠ k.op || h.n ≠ k.n || h.count ≠ k.count || h.wire ≠ k.wire then
      some (s.raise keystone 11 (BitVec.ofNat 512 (h.group % 65536 + 65536 * (h.srcDev % 2 ^ 22))))
    else some (s.takeChunk o k port h)

/-- The flits at a port of a group's chunk from a device, of those that are not yet a whole chunk. -/
def State.rxFrom (s : State) (port group : Nat) (src : BitVec 22) : List Flit :=
  (s.links.rx.filter fun x => x.1 = port && x.2.1 = group && x.2.2.src = src).map (·.2.2)

/-- The list without its first n elements that meet a test. -/
def dropFirst {α : Type} (p : α → Bool) (n : Nat) (l : List α) : List α :=
  match l, n with
  | [], _ => []
  | l, 0 => l
  | x :: t, k + 1 => if p x then dropFirst p k t else x :: dropFirst p (k + 1) t

/-- The next flits at a port from the chunk's source are those of a chunk, header and data (18 R335): it arrives, and is offered or held
(17 R323). -/
def State.chunkArrives (s : State) (port : Nat) (h : Chunk) : State :=
  let src := BitVec.ofNat 22 h.srcDev
  let n := (chunkPayloads h).length
  if ((s.rxFrom port h.group src).take n).map (fun f => (f.kind, f.payload)) ≠ chunkPayloads h then s
  else
    let s1 : State := { s with links := { s.links with rx := dropFirst (fun x => x.1 = port && x.2.1 = h.group && x.2.2.src = src) n s.links.rx } }
    (s1.offerChunk port h).getD { s1 with net := { s1.net with heldChunk := s1.net.heldChunk ++ [(port, h)] } }

/-- The chunks held at the ports offered again. -/
def State.offerHeld (s : State) : State :=
  s.net.heldChunk.foldl
    (fun t x =>
      match t.offerChunk x.1 x.2 with
      | some t1 => { t1 with net := { t1.net with heldChunk := removeOne t1.net.heldChunk x } }
      | none => t) s

/-- The source bytes of the chunk that is sent next, by offset and length; none of a chunk of sums. -/
def EngineOp.sendRange (o : EngineOp) (k : Coll) : Nat × Nat :=
  match k.op with
  | 0 | 3 => (0, 4 * k.count)
  | _ => if o.sent < k.n then (4 * o.sent * k.part, 4 * k.part) else (0, 0)

/-- The chunk that is sent next holds source bytes that are skipped (20 R349). -/
def EngineOp.dropsSend (o : EngineOp) (k : Coll) : Bool := (o.sendRange k).2 ≠ 0 && o.misses (o.sendRange k).1 (o.sendRange k).2

/-- Chunks sent in order, each once its source bytes have been read and while the link's credits are there, up to the first that has no route,
which is held at its link port with the byte offset of its words (17 R320, R323; 18 R334). -/
def State.sendChunks (s : State) (fuel id : Nat) : State :=
  match fuel with
  | 0 => s
  | n + 1 =>
    match s.engine? id with
    | none => s
    | some o =>
      match o.coll? with
      | none => s
      | some k =>
        match (o.sends k s.links.id.toNat)[o.sent]? with
        | none => s
        | some (r, h, fl) =>
          let dev := k.device r
          let x := o.sendRange k
          let s1 := s.modEngine id fun z => { z with sent := z.sent + 1, flags := z.flags ||| fl }
          if o.dropsSend k then s1.sendChunks n id
          else if x.2 ≠ 0 && s.readsLeft id x.1 x.2 then s
          else if dev = s.links.id.toNat then (s1.takeChunk ((s1.engine? id).getD o) k 0 h).sendChunks n id
          else match s.route dev with
            | some p =>
              if (s.links.ports[p]?).any (·.withheld) then s
              else ((chunkFlits h dev).foldl (fun t f => t.sendFlit p f) s1).sendChunks n id
            | none =>
              let q := { o.req s 3 (dev * 2 ^ 50) (.chunkStop id r) with id := s.net.nextReq, port := ⟨4, s.sendPort dev⟩ }
              (s.addReq q).holdReq q 3 4 [if o.sent < k.n then x.1 else k.place h.index]

/-- The requests by which a collective reads its source: each word on its own (17 R320, R323). -/
def EngineOp.wordReqs (o : EngineOp) (s : State) (n : Nat) : List Req :=
  let ps := o.pages s (rangePages o.src n false)
  ((List.range (n / 4)).filter fun i => !(o.misses (4 * i) 4)).map fun i =>
    let va := capCursor o.src + 4 * i
    { o.req s (capSpace o.src) va (.engineWords (4 * i) 4) with loops := [4 * i], trans := ps.filter fun g => g.covers va }

/-- A collective at its start: its source is asked for. -/
def State.startColl (s : State) (o : EngineOp) (k : Coll) : State :=
  let n := if k.op = 3 && k.rank ≠ k.root then 0 else o.kind.extent.1
  ((o.wordReqs s n).foldl (fun t q => t.addReq q) s).modEngine o.id fun z => { z with started := true, words := List.replicate (n / 4) 0 }

/-! ### Start and completion (17 R319, R320; 20 R366) -/

/-- The pages that an operation translates at its start: all of both ranges; a collective only what it reads (17 R323; 20 R366). -/
def EngineOp.ranges (o : EngineOp) (s : State) (ext : Ext) : List RangePage :=
  let n := o.kind.extent
  match o.coll? with
  | some k => if k.op = 3 && k.rank ≠ k.root then [] else rangePages o.src n.1 false
  | none =>
    match o.kind with
    | .cpyq _ stride => o.tilePages s stride ext ++
        (granuleVas (capCursor o.dst) n.2).map fun va => ⟨va, va - capCursor o.dst, capSpace o.dst, true⟩
    | _ => rangePages o.src n.1 false ++ rangePages o.dst n.2 true

/-- An operation held at its port as a whole. -/
def State.engineHeld (s : State) (id : Nat) : Bool :=
  s.net.reqs.any fun q => q.kind = .engineStop id || (match q.kind with
    | .chunkStop j _ => j = id
    | _ => false)

/-- A collective whose context is not there (20 R356). -/
def State.collAway (s : State) (o : EngineOp) : Bool :=
  o.coll?.isSome && !((s.ctx o.ctx).status = .resident && (s.ctx o.ctx).stream = o.load_)

/-- An operation starts once its activation's stores are there; a collective that has started goes on sending and is offered the
chunks held for it, a quantising copy stores what it has read. -/
def State.startEngine (s : State) (id : Nat) (ext : Ext) : State :=
  match s.engine? id with
  | none => s
  | some o =>
    if s.engineHeld id || !(s.over o.after) || s.collAway o then s
    else if o.started then
      (match o.kind, o.coll? with
       | _, some k => (s.sendChunks (2 * k.n) id).offerHeld
       | .cpyq col stride, none => s.storeTile o col stride
       | _, none => s)
    else match o.pageFault s (o.ranges s ext) with
      | some (p, cls, code) => s.stopEngine o p.space p.va cls code p.off
      | none =>
        match o.kind with
        | .cpy n => ((o.copyReqs s n).foldl (fun t q => t.addReq q) s).modEngine id fun z => { z with started := true }
        | .cxpt g => ((o.mapReqs s g).foldl (fun t q => t.addReq q) s).modEngine id fun z => { z with started := true }
        | .cpyq _ stride => s.startTile o stride
        | .coll _ _ _ _ _ _ _ _ _ =>
          (match o.coll? with
           | some k => ((s.startColl o k).sendChunks (2 * k.n) id).offerHeld
           | none => s)

/-- The chunks that an operation must have stored to be complete. -/
def Coll.due (k : Coll) : Nat := if k.op = 0 || k.op = 2 then k.n else 1

/-- A collective has stored everything and sent everything. -/
def EngineOp.collDone (o : EngineOp) (dev : Nat) : Bool :=
  match o.coll? with
  | none => true
  | some k => decide (k.due ≤ o.stored.length) && decide ((o.sends k dev).length ≤ o.sent)

/-- A contribution added at a barrier of a context of a stream, there or as saved (17 R315; 20 R356). -/
def State.addAt (s : State) (c load bay bar arr bytes : Nat) : State :=
  let x := s.ctx c
  if x.status ≠ .absent && x.stream = load then s.contribute c bay bar arr bytes
  else s.modHome c load fun y => y.putBarrier ((y.barrier bay bar).contribute arr bytes)

/-- An operation completes once every destination byte is there, and every count of a chunk: its bytes count at the barrier, then its tag
falls; its flags (17 R319, R320, R323). -/
def State.finishEngine (s : State) (id : Nat) : State :=
  match s.engine? id with
  | none => s
  | some o =>
    let busy := s.engineHeld id || s.net.reqs.any fun q => (q.port.kind = 3 || q.port.kind = 4) && q.strm = id
    let counts := s.net.contribs.any fun k => k.op = some id
    let left := match o.kind with
      | .cpyq _ _ => decide (o.sent = 0)
      | _ => false
    if !o.started || busy || counts || left || !(o.collDone s.links.id.toNat) then s
    else
      let drop : State := { s with net := { s.net with engines := s.net.engines.filter fun z => z.id ≠ id } }
      let s1 := if o.cnt && o.coll?.isNone then drop.addAt o.ctx o.load_ o.bay o.bar 0 o.bytes else drop
      s1.modHome o.ctx o.load_ fun x =>
        (x.putTags ((x.copyTags o.bay).lower o.ctag)).modElem o.unit fun e => { e with flags := addFlags e.flags o.flags 0 }

/-- A contribution whose stores are there is added at its barrier (17 R315). -/
def State.contributes (s : State) (id : Nat) : State :=
  match s.net.contribs.find? fun k => k.id = id with
  | none => s
  | some k =>
    if !(s.over k.after) then s
    else ({ s with net := { s.net with contribs := s.net.contribs.filter fun y => y.id ≠ id } } : State).addAt k.ctx k.load_ k.bay k.bar
      k.arr k.bytes

/-- ENGINE_OP_START (20 R366). -/
def execEngineOpStart (s : State) : Result State := .next (s.startEngine s.sched.subject.id s.sched.subject.ext)
/-- ENGINE_OP_COMPLETE (17 R320). -/
def execEngineOpComplete (s : State) : Result State := .next (s.finishEngine s.sched.subject.id)
/-- BARRIER_CONTRIBUTION (17 R315). -/
def execBarrierContribution (s : State) : Result State := .next (s.contributes s.sched.subject.id)
/-- COLL_CHUNK_ARRIVAL (17 R323). -/
def execCollChunkArrival (s : State) : Result State := .next (s.chunkArrives s.sched.subject.k s.sched.subject.chunk)

end Sys2Proof.Machine
end

