-- ==== Sys2Proof/Machine/Intervals.lean ====
section
/-! DEFINITION. Intervals and demand registers: reduce, the registers of edges, rings and copies, what travels up the stair, and what
sinks hold (04 R81 to R89; 07 R138). -/
namespace Sys2Proof.Machine

/-! ### Intervals (04 R85 to R87) -/

/-- An interval holds a time. -/
def Ival.has (v : Ival) (t : Int) : Bool := decide (v.lo ≤ t) && decide (t ≤ v.hi)

/-- An interval rounded outward to a granule (04 R85). -/
def roundOut (v : Ival) (g : Nat) : Ival :=
  let k : Int := (max 1 g : Nat)
  ⟨v.lo / k * k, v.hi / k * k + k - 1⟩

/-- The times of one interval without those of another. -/
def subOne (x y : Ival) : List Ival :=
  if y.hi < y.lo || decide (y.hi < x.lo) || decide (x.hi < y.lo) then [x]
  else (if x.lo < y.lo then [⟨x.lo, y.lo - 1⟩] else []) ++ (if y.hi < x.hi then [⟨y.hi + 1, x.hi⟩] else [])

/-- subtract (04 R86). -/
def subtractIval (l : List Ival) (y : Ival) : List Ival := l.flatMap fun x => subOne x y

/-- A pending interval put into an ascending list, joined with those that it abuts, counts added (04 R86). -/
def insertMerged (l : List Pend) (p : Pend) : List Pend :=
  match l with
  | [] => [p]
  | q :: t =>
    if p.iv.hi + 1 < q.iv.lo then p :: q :: t
    else if p.iv.hi + 1 = q.iv.lo then ⟨⟨p.iv.lo, q.iv.hi⟩, p.got + q.got⟩ :: t
    else if q.iv.hi + 1 = p.iv.lo then insertMerged t ⟨⟨q.iv.lo, p.iv.hi⟩, q.got + p.got⟩
    else q :: insertMerged t p

/-- The gaps of a list of pending intervals. -/
def gapsOf (l : List Pend) : List Int := (l.zip (l.drop 1)).map fun x => x.2.iv.lo - x.1.iv.hi - 1

/-- The index of the least of a list, the lowest on a tie. -/
def leastIndex (l : List Int) : Nat :=
  match l with
  | [] => 0
  | a :: t =>
    let j := leastIndex t
    if t = [] || decide (a ≤ t.getD j 0) then 0 else j + 1

/-- One surviving interval entered into a register's pending list, coalesced to four: the list, and the gap that coalescing asks
for (04 R86). -/
def enterPend (l : List Pend) (x : Ival) : List Pend × List Ival :=
  let m := insertMerged l ⟨x, 0⟩
  if m.length ≤ 4 then (m, [])
  else
    let j := leastIndex (gapsOf m)
    let a := m.getD j default
    let b := m.getD (j + 1) default
    (m.take j ++ [⟨⟨a.iv.lo, b.iv.hi⟩, a.got + b.got⟩] ++ m.drop (j + 2), [⟨a.iv.hi + 1, b.iv.lo - 1⟩])

/-- reduce (04 R86): the register and the intervals that travel on. -/
def DReg.reduce (r : DReg) (v : Ival) : DReg × List Ival :=
  let l0 := match r.done with
    | some d => subtractIval [roundOut v r.g] d
    | none => [roundOut v r.g]
  let rest := r.pend.foldl (fun l p => subtractIval l p.iv) l0
  let y := rest.foldl (fun (acc : List Pend × List Ival) x =>
    let z := enterPend acc.1 x
    (z.1, acc.2 ++ z.2)) (r.pend, [])
  ({ r with pend := y.1 }, rest ++ y.2)

/-- done after an interval retires (04 R87). -/
def doneWith (d : Option Ival) (v : Ival) : Option Ival :=
  match d with
  | none => some v
  | some e =>
    if decide (v.lo ≤ e.hi + 1) && decide (e.lo ≤ v.hi + 1) then some ⟨min v.lo e.lo, max v.hi e.hi⟩
    else if e.hi < v.hi then some v else some e

/-- The times lo to hi marked as delivered once (04 R87). -/
def DReg.mark (r : DReg) (v : Ival) : DReg :=
  let add (p : Pend) : Pend := { p with got := p.got + (min p.iv.hi v.hi - max p.iv.lo v.lo + 1).toNat }
  let ps := r.pend.map add
  let full (p : Pend) : Bool := decide (p.iv.hi - p.iv.lo + 1 ≤ (p.got : Int))
  { r with
    pend := ps.filter fun p => !(full p)
    done := (ps.filter full).foldl (fun d p => doneWith d p.iv) r.done }

/-- An interval cut into runs of g times, each beginning at a multiple of g (07 R138). -/
def runsOf (v : Ival) (g : Nat) : List Ival :=
  let k : Int := (max 1 g : Nat)
  (List.range (v.hi / k - v.lo / k + 1).toNat).map fun i =>
    let at_ := (v.lo / k + (i : Int)) * k
    ⟨max v.lo at_, min v.hi (at_ + k - 1)⟩

/-- The times that a token covers on an edge of a tile: all of a tile at its last course (04 R82, R85, R87). -/
def tileTimes (tile : Nat) (v : Val) (st : Int) : Option Ival :=
  if 1 < tile && v.sh = .course then (if crsK v.bits + 1 = tile then some ⟨st, st + (tile : Int) - 1⟩ else none)
  else some ⟨st, st⟩

/-- The times to which a token belongs: those of its tile. -/
def tileSpan (tile : Nat) (v : Val) (st : Int) : Ival := if 1 < tile && v.sh = .course then ⟨st, st + (tile : Int) - 1⟩ else ⟨st, st⟩

/-- A register after a token has been put on its edge (04 R85, R87). -/
def DReg.token (r : DReg) (tile : Nat) (v : Val) (st : Int) : DReg :=
  match tileTimes tile v st with
  | some w => r.mark w
  | none => r

/-! ### Registers of edges and rings -/

/-- The register of an edge changed. -/
def Ctx.modDReg (x : Ctx) (e : EdgeRef) (f : DReg → DReg) : Ctx :=
  match e with
  | .frame i => { x with edges := modAt x.edges i fun y => { y with dreg := f y.dreg } }
  | .ring q => x.modRing q fun g => { g with dreg := f g.dreg }

/-- The register of an edge. -/
def Ctx.dreg? (x : Ctx) (e : EdgeRef) : Option DReg :=
  match e with
  | .frame i => (x.edges[i]?).map (·.dreg)
  | .ring q => (x.ring? q).map (·.dreg)

/-- The producing operator of an edge. -/
def Ctx.producer? (x : Ctx) (e : EdgeRef) : Option Nat :=
  match e with
  | .frame i => (x.edges[i]?).map (·.prod)
  | .ring q => (x.ring? q).map (·.prod)

/-- An interval that arrives at an edge's register. -/
def Ctx.arrive (x : Ctx) (e : EdgeRef) (v : Ival) : Ctx :=
  if v.hi < v.lo then x else x.modDReg e fun r => { r with arrivals := r.arrivals ++ [v] }

/-- The frame edges that feed an operator: input port and place. -/
def Ctx.frameInputs (x : Ctx) (o : Nat) : List (Nat × EdgeRef) :=
  x.edges.zipIdx.filterMap fun e =>
    match e.1.cons with
    | .op p i => if p = o then some (i, .frame e.2) else none
    | .sink _ => none

/-- The inputs of an operator in order: its frame input ports ascending, then the rings that it consumes, const ones left out
(04 R84; log 33). -/
def Ctx.inputsOf (x : Ctx) (o : Nat) : List EdgeRef :=
  ((sortBy (fun (y : Nat × EdgeRef) => y.1) (x.frameInputs o)).map (·.2)) ++
  ((sortBy (fun (g : Ring) => g.q) (x.rings.filter fun g => g.cons = o && g.kind ≠ .const)).map fun g => .ring g.q)

/-- The edges bound to an output port of an operator. -/
def Ctx.outEdges (x : Ctx) (o port : Nat) : List Nat :=
  (x.edges.zipIdx.filter fun e => e.1.prod = o && e.1.oport = port).map (·.2)

/-! ### Copies and their registers (07 R137 to R139) -/

/-- The clones of an operator. -/
def Ctx.clonesOf (x : Ctx) (o : Nat) : List Copy := ((x.ops[o]?).map (·.clones)).getD []

/-- Every copy of an operator: the original, none, then its clones by unit. -/
def Ctx.copiesOf (x : Ctx) (o : Nat) : List (Option UnitId) := none :: (x.clonesOf o).map fun y => some y.unit

/-- The copies to which the split gives times: those that are not being removed (R139). -/
def Ctx.sharers (x : Ctx) (o : Nat) : List (Option UnitId) :=
  none :: ((x.clonesOf o).filter fun y => !y.leaving).map fun y => some y.unit

/-- The unit of a copy's entry block. -/
def Ctx.copyUnit (x : Ctx) (o : Nat) (k : Option UnitId) : UnitId := k.getD (x.unitOf (((x.image.ops[o]?).map (·.entry)).getD 0))

/-- The copy whose blocks execute on a unit. -/
def Ctx.copyOn (x : Ctx) (o : Nat) (u : UnitId) : Option UnitId := if (x.clonesOf o).any fun y => y.unit = u then some u else none

/-- The granule of a frame edge. -/
def Ctx.granule (x : Ctx) (i : Nat) : Nat := max 1 (((x.edges[i]?).map (·.dreg.g)).getD 1)

/-- The copy that owns an output time on an edge of granule g (R138). -/
def Ctx.copyFor (x : Ctx) (o g : Nat) (t : Int) : Option UnitId :=
  let l := x.sharers o
  l.getD ((t / (max 1 g : Nat)) % (max 1 l.length : Nat)).toNat none

/-- The number under which a copy keeps its register of an edge: of an output edge, or of an input edge. -/
def copyKey (out : Bool) (i : Nat) : Nat := if out then 2 * i else 2 * i + 1

/-- The register of a copy for an edge; empty where nothing has reached it. -/
def Ctx.copyReg (x : Ctx) (o : Nat) (k : Option UnitId) (out : Bool) (i : Nat) : DReg :=
  let st := (x.ops[o]?).getD default
  let regs := match k with
    | none => st.own
    | some u => ((st.clones.find? fun y => y.unit = u).map (·.regs)).getD []
  getKey regs (copyKey out i) ⟨[], none, x.granule i, []⟩

/-- The register of a copy for an edge replaced. -/
def Ctx.putCopyReg (x : Ctx) (o : Nat) (k : Option UnitId) (out : Bool) (i : Nat) (r : DReg) : Ctx :=
  { x with ops := modAt x.ops o fun st => match k with
    | none => { st with own := setKey st.own (copyKey out i) r }
    | some u => { st with clones := st.clones.map fun y =>
        if y.unit = u then { y with regs := setKey y.regs (copyKey out i) r } else y } }

/-- An interval reduced on the register of a copy for an edge: what travels on (04 R86; 07 R138). -/
def Ctx.reduceCopy (x : Ctx) (o : Nat) (k : Option UnitId) (out : Bool) (i : Nat) (v : Ival) : Ctx × List Ival :=
  if v.hi < v.lo then (x, [])
  else
    let y := (x.copyReg o k out i).reduce v
    (x.putCopyReg o k out i y.1, y.2)

/-- The copy that holds an output time pending, or the one that owns it: served by the copy that held it (07 R138). -/
def Ctx.holder (x : Ctx) (o : Nat) (t : Int) : Option UnitId :=
  let outs := (x.edges.zipIdx.filter fun e => e.1.prod = o).map (·.2)
  let holds (k : Option UnitId) : Bool := outs.any fun i => (x.copyReg o k true i).pend.any fun p => p.iv.has t
  ((x.copiesOf o).find? holds).getD (x.copyFor o (x.granule (outs.headD 0)) t)

/-- The copies to which the split delivers an input token: those whose demand covers its times; a token that none asked for goes to the
original (07 R138; log 140). -/
def Ctx.takers (x : Ctx) (o i : Nat) (v : Ival) : List (Option UnitId) :=
  let l := (x.copiesOf o).filter fun k => (x.copyReg o k false i).pend.any fun p => decide (p.iv.lo ≤ v.hi) && decide (v.lo ≤ p.iv.hi)
  if l = [] then [none] else l

/-- The registers of some copies for an input edge after a token has been delivered to them. -/
def Ctx.markCopies (x : Ctx) (o i : Nat) (ks : List (Option UnitId)) (tile : Nat) (v : Val) (st : Int) : Ctx :=
  if x.clonesOf o = [] then x
  else ks.foldl (fun y k => y.putCopyReg o k false i ((y.copyReg o k false i).token tile v st)) x

/-! ### Issue counters and range transfer (04 R83, R88, R89) -/

/-- Disjoint intervals as an ascending list of pending ones. -/
def sortIvals (l : List Ival) : List Pend := l.foldl (fun acc x => insertMerged acc ⟨x, 0⟩) []

/-- Times added to an issue counter, none twice. -/
def OpState.issueAdd (st : OpState) (v : Ival) : OpState :=
  { st with issue := (sortIvals (st.issue ++ st.issue.foldl subtractIval [v])).map (·.iv) }

/-- A time removed from an issue counter. -/
def OpState.issueDrop (st : OpState) (t : Int) : OpState := { st with issue := subtractIval st.issue ⟨t, t⟩ }

/-- An unbounded operator after some times of the interval that it serves are over; with the last of them the interval is (04 R93; log 146). -/
def OpState.timesOver (st : OpState) (l : List Ival) : OpState :=
  let left := l.foldl subtractIval st.undone
  { st with undone := left, serving := if left = [] then none else st.serving }

/-- The times that two intervals have in common. -/
def Ival.meet (v w : Ival) : Ival := ⟨max v.lo w.lo, min v.hi w.hi⟩

/-- An unbounded operator after DDONE has delivered an interval: its times are over, those of the intervals that wait among them (11 R239). -/
def OpState.delivered (st : OpState) (iv : Ival) : OpState :=
  let waits := (st.queue.map fun v => v.meet iv).filter fun v => decide (v.lo ≤ v.hi)
  { st.timesOver [iv] with skipped := subtractIval st.skipped iv ++ waits }

/-- The times of the tiles that an activation of an operator took or gave the last course of, by its input ports and its output ports with
their stamps (04 R85). -/
def Ctx.tilesEnded (x : Ctx) (o : Nat) (ins outs : List (Nat × Val)) (tin tout : Int) : List Ival :=
  x.edges.flatMap fun e =>
    let of (l : List (Nat × Val)) (port : Nat) (t : Int) : List Ival :=
      if e.tile ≤ 1 then [] else l.filterMap fun y => if y.1 = port then tileTimes e.tile y.2 t else none
    (match e.cons with
      | .op p i => if p = o then of ins i tin else []
      | .sink _ => []) ++ (if e.prod = o then of outs e.oport tout else [])

/-- affine(M, A, B, D) of an interval (04 R83). -/
def OpDesc.rewrite (o : OpDesc) (v : Ival) : Ival :=
  let d : Int := 2 ^ o.d
  ⟨clampStamp ((v.lo * o.m + o.a) / d), clampStamp ((v.hi * o.m + o.b) / d)⟩

/-- An operator has an issue counter: its entry block has no frame input port (04 R89). -/
def Ctx.counted (x : Ctx) (o : Nat) : Bool :=
  match x.image.ops[o]? with
  | none => false
  | some d => ((x.block? d.entry).map fun b => decide (b.blk.inputs = 0)).getD false

/-- Times added to the issue counter of an operator that has one. -/
def Ctx.addIssue (x : Ctx) (o : Nat) (v : Ival) : Ctx :=
  if x.counted o then { x with ops := modAt x.ops o fun st => st.issueAdd v } else x

/-- An interval asked of one input of an operator by a copy: reduced on the copy's register where there are clones (07 R138). -/
def Ctx.askInput (x : Ctx) (o : Nat) (k : Option UnitId) (v : Ival) (e : EdgeRef) : Ctx :=
  if x.clonesOf o = [] then x.arrive e v
  else match e with
    | .ring _ => x.arrive e v
    | .frame i =>
      let y := x.reduceCopy o k false i v
      y.2.foldl (fun z w => z.arrive e w) y.1

/-- An interval asked of every input of an operator by a copy. -/
def Ctx.askInputs (x : Ctx) (o : Nat) (k : Option UnitId) (v : Ival) : Ctx :=
  (x.inputsOf o).foldl (fun y e => y.askInput o k v e) x

/-- An interval of output times rewritten for the copy that serves it (04 R83, R84, R88). -/
def Ctx.rewriteFor (x : Ctx) (o : Nat) (k : Option UnitId) (v : Ival) : Ctx :=
  let d := (x.image.ops[o]?).getD default
  match d.rtfBlock with
  | some _ => { x with ops := modAt x.ops o fun st => { st with rtfQueue := st.rtfQueue ++ [v] } }
  | none => x.askInputs o k (d.rewrite v)

/-- A run of an output edge's times reaches the copy that owns it (07 R138). -/
def Ctx.askCopy (x : Ctx) (o i : Nat) (v : Ival) : Ctx :=
  let k := x.copyFor o (x.granule i) v.lo
  let y := x.reduceCopy o k true i v
  y.2.foldl (fun z w => z.rewriteFor o k w) y.1

/-- An interval that reaches an operator from one of its output edges (04 R88, R89, R92; 07 R138). -/
def Ctx.toOperator (x : Ctx) (o : Nat) (e : EdgeRef) (v : Ival) : Ctx :=
  if ((x.image.ops[o]?).getD default).unbounded then { x with ops := modAt x.ops o fun st => { st with queue := st.queue ++ [v] } }
  else match x.clonesOf o, e with
    | _ :: _, .frame i => (runsOf v (x.granule i)).foldl (fun y w => y.askCopy o i w) x
    | _, _ => (x.addIssue o v).rewriteFor o none v

/-! ### Sinks (04 R81, R82) -/

/-- A sink of a context changed. -/
def Ctx.modSink (x : Ctx) (k : Nat) (f : Sink → Sink) : Ctx :=
  { x with sinks := x.sinks.map fun y => if y.k = k then f y else y }

/-- A time is pending at a sink and not yet delivered. -/
def Sink.wants (y : Sink) (t : Int) : Bool := (y.pend.any fun v => v.has t) && !(y.bits.contains t)

/-- The first time of an interval that a sink's bitmap leaves clear. -/
def Sink.firstClear (y : Sink) (v : Ival) : Option Int :=
  ((List.range (v.hi - v.lo + 1).toNat).find? fun i => !(y.bits.contains (v.lo + (i : Int)))).map fun i => v.lo + (i : Int)

/-- The window base w of a sink: the lowest time pending and not yet delivered (04 R81). -/
def Sink.base (y : Sink) : Option Int :=
  match y.pend.filterMap y.firstClear with
  | [] => none
  | t :: l => some (l.foldl min t)

/-- A sink after its window has moved: what is pending and what the bitmap holds begin at the base. A demand below w moves w down (the
rule names only its way up): the bits above stay, also those past w + 4095 (log 141). -/
def Sink.slide (y : Sink) : Sink :=
  let z : Sink := { y with pend := y.pend.filter fun v => (y.firstClear v).isSome }
  match z.base with
  | none => z
  | some w =>
    { z with
      pend := z.pend.map fun v => ⟨max v.lo w, v.hi⟩
      bits := z.bits.filter fun t => decide (w ≤ t) }

/-- The times of a demand become pending at a sink as it is released to the stair, none twice. -/
def Sink.await (y : Sink) (v : Ival) : Sink := ({ y with pend := y.pend ++ y.pend.foldl subtractIval [v] } : Sink).slide

/-- The edges that feed a sink. -/
def Ctx.feeders (x : Ctx) (k : Nat) : List Nat := (x.edges.zipIdx.filter fun e => e.1.cons = .sink k).map (·.2)

/-- A demand of a sink as the registers of its edges round it outward (04 R85). -/
def Ctx.roundAt (x : Ctx) (k : Nat) (v : Ival) : Ival := roundOut v ((x.feeders k).foldl (fun m i => max m (x.granule i)) 1)

/-- A demand released from a sink goes to the register of every edge that feeds it, its times pending from then on. -/
def Ctx.feedSink (x : Ctx) (k : Nat) (v : Ival) : Ctx :=
  (x.feeders k).foldl (fun y i => y.arrive (.frame i) v) (x.modSink k fun y => y.await (x.roundAt k v))

/-- A token on its way on an edge brings a time. -/
def Edge.brings (e : Edge) (t : Int) : Bool := e.flight.any fun k => (tileSpan e.tile k.val k.stamp.toInt).has t

/-- A time below a stamp is pending on an edge and has not arrived at its merge node (07 R139). -/
def Edge.waitsBelow (e : Edge) (m : Int) : Bool :=
  let below (v : Ival) : List Int := (List.range (min v.hi (m - 1) - v.lo + 1).toNat).map fun i => v.lo + (i : Int)
  e.dreg.pend.any fun p => (below p.iv).any fun y => !(e.seen.contains y)

/-- Of some times of an edge those that are pending or on their way: what its merge node, once it has one, must know to have arrived (07
R139). -/
def Edge.keepSeen (e : Edge) (l : List Int) : List Int := l.filter fun y => e.brings y || e.dreg.pend.any fun p => p.iv.has y

/-- The times of a demand that no edge of its sink will bring again, since every register has delivered them and no token that brings them
is still on its way (04 R82, R86, R94): no longer pending there. -/
def Ctx.settleSink (x : Ctx) (k : Nat) (v : Ival) : Ctx :=
  let es := (x.feeders k).filterMap fun i => x.edges[i]?
  let gone (t : Int) : Bool := es.all fun e =>
    (e.dreg.done.any fun d => d.has t) && !(e.dreg.arrivals.any fun w => w.has t) && !(e.brings t)
  let times := ((List.range (v.hi - v.lo + 1).toNat).map fun i => v.lo + (i : Int)).filter gone
  if times = [] then x
  else x.modSink k fun y => ({ y with pend := times.foldl (fun l t => subtractIval l ⟨t, t⟩) y.pend } : Sink).slide

/-- The demands that wait at a sink released in order while the window admits them (04 R81). -/
def Ctx.releaseSink (x : Ctx) (fuel k : Nat) : Ctx :=
  match fuel with
  | 0 => x
  | n + 1 =>
    match x.sinks.find? fun y => y.k = k with
    | none => x
    | some y =>
      match y.waiting with
      | [] => x
      | v :: t =>
        if ((y.base).map fun w => decide (w + 4095 < v.hi)).getD false then x
        else ((x.modSink k fun z => { z with waiting := t }).feedSink k v).releaseSink n k

/-- A demand posted on a sink of a context (04 R77, R81). -/
def Ctx.post (x : Ctx) (k : Nat) (v : Ival) : Ctx :=
  if v.hi < v.lo || !(x.fed k) then x
  else
    let y := x.modSink k fun z => { z with waiting := z.waiting ++ [v] }
    y.releaseSink ((y.sinks.map fun z => z.waiting.length).foldl (· + ·) 1) k

/-- The first arrival at an edge's register reduced (04 R86, R88). -/
def Ctx.reduceAt (x : Ctx) (e : EdgeRef) : Ctx :=
  match x.dreg? e with
  | none => x
  | some r =>
    match r.arrivals with
    | [] => x
    | v :: t =>
      let y := ({ r with arrivals := t } : DReg).reduce v
      let x1 := x.modDReg e fun _ => y.1
      let x2 := match e with
        | .ring _ => x1
        | .frame i => (match (x.edges[i]?).map fun (y : Edge) => y.cons with
          | some (Consumer.sink k) => x1.settleSink k (x1.roundAt k v)
          | _ => x1)
      match x.producer? e with
      | none => x2
      | some o => y.2.foldl (fun z v => z.toOperator o e v) x2

end Sys2Proof.Machine
end

