-- ==== Sys2Proof/Machine/Stair.lean ====
section
/-! DEFINITION. Demands: posting, the stair's moves, issue counters, unbounded operators, the store limit, clones (04 R77 to R94;
07 R131 to R139). -/
namespace Sys2Proof.Machine

/-- The head of a context's host queue posted where it names sink k, and the sink's waiting demands released (04 R79, R81). A queue is
the slot's: postings accepted before an eviction stay in it, and go to the context that is resident next (no rule drops or moves them; log
142). -/
def State.sinkRelease (s : State) (c k : Nat) : State :=
  let go (t : State) : State := t.modCtx c fun x => x.releaseSink ((x.sinks.map fun z => z.waiting.length).foldl (· + ·) 1) k
  match (s.host.queues.getD c []) with
  | [] => go s
  | (j, v) :: t =>
    if j = k && (s.ctx c).status = .resident then
      go (({ s with host := { s.host with queues := modAt s.host.queues c fun _ => t } } : State).modCtx c fun x => x.post k v)
    else go s

/-! ### The host demand window (04 R78, R79) -/

/-- A refusal recorded in HD.REF of a context. -/
def State.refusePost (s : State) (c code : Nat) : State :=
  { s with host := { s.host with
    why := modAt s.host.why c fun _ => BitVec.ofNat 8 code
    refs := modAt s.host.refs c fun n => if n = BitVec.allOnes 32 then n else n + 1 } }

/-- The refusal code of a posting; 99 where it is accepted (04 R79). -/
def postCode (x : Ctx) (off len : Nat) (d : BitVec 256) : Nat :=
  let lo := (slice d 0 48).toInt
  let hi := (slice d 48 48).toInt
  firstCode
    [ (decide (len ≠ 16) || decide (off % 16 ≠ 0), 5),
      (slice d 100 28 ≠ 0, 6),
      (x.status ≠ .resident, 1),
      (!(x.fed (slice d 96 4).toNat), 2),
      (decide (hi < lo), 3),
      (decide (4096 < hi - lo + 1), 4) ]

/-- A host write to the posting registers (04 R79). -/
def State.hostPost (s : State) (off len : Nat) (d : BitVec 256) : State :=
  let c := off / 16
  if 4 ≤ c || !s.host.opened then s
  else
    let k := postCode (s.ctx c) off len d
    if k ≠ 99 then s.refusePost c k
    else if 64 ≤ (s.host.queues.getD c []).length then s
    else
      let v : Ival := ⟨(slice d 0 48).toInt, (slice d 48 48).toInt⟩
      { s with host := { s.host with
        queues := modAt s.host.queues c fun l => l ++ [((slice d 96 4).toNat, v)]
        acc := modAt s.host.acc c (· + 1) } }

/-- HD.REF of a context (04 R78). -/
def HostSide.refWord (h : HostSide) (c : Nat) : Word := h.why.getD c 0 ++ 0#24 ++ h.refs.getD c 0

/-- HD.REF of a context cleared (04 R78). -/
def HostSide.clearRef (h : HostSide) (c : Nat) : HostSide := { h with why := modAt h.why c fun _ => 0, refs := modAt h.refs c fun _ => 0 }

/-! ### Firing by demand (04 R84, R89, R92) -/

/-- The demand unit of a context fires an rtf block for the first interval that waits (04 R84). No rule gives the tag word and stamp of that
activation: frame 0, iteration 0 and stamp 0 of its context (log 143). -/
def State.rtfFire (s : State) (c o : Nat) : State :=
  let x := s.ctx c
  match (x.image.ops[o]?).bind (·.rtfBlock), ((x.ops[o]?).map (·.rtfQueue)).getD [] with
  | some n, v :: t =>
    (match x.block? n with
    | none => s
    | some b =>
      let slot : Slot := ⟨some (Val.ofPair (ivalPair v) false), none, 0⟩
      let w := Waiting.fresh (.rtf v) b.ptr (.demand c) (tagWord c 0 0) 0 (s.epoch 0) (List.replicate b.blk.inputs slot) s.sched.moves
      s.modCtx c fun y => { y with
        waiting := y.waiting ++ [w]
        ops := modAt y.ops o fun st => { st with rtfQueue := t } })
  | _, _ => s

/-- The stamps of the issue-counter activations of an operator that have not committed. -/
def State.issued (s : State) (c o : Nat) : List Int :=
  ((s.allFrames c).filter fun w => w.kind = .source && (s.ctx c).opOf? w.ptr = some o).map fun w => w.stamp.toInt

/-- The lowest time of a counter that no activation has taken. -/
def nextIssue (issue : List Ival) (taken : List Int) : Option Int :=
  let free := taken.foldl (fun l t => subtractIval l ⟨t, t⟩) issue
  match free.map (·.lo) with
  | [] => none
  | t :: l => some (l.foldl min t)

/-- An issue counter fires its entry block for the lowest time (04 R89; 07 R131): a source allocates its tag, or waits. An operator with
clones has frame inputs, so no issue counter. -/
def State.issueFire (s : State) (c o : Nat) : State :=
  let x := s.ctx c
  let d := (x.image.ops[o]?).getD default
  match nextIssue (((x.ops[o]?).map (·.issue)).getD []) (s.issued c o), x.block? d.entry with
  | some t, some b =>
    let it : BitVec 16 := BitVec.ofInt 16 t
    let u := x.unitOf d.entry
    let birth := s.epoch (unitDie u)
    let w := Waiting.fresh .source b.ptr u (tagWord c 0 it.toNat) (stampOf t) birth [] s.sched.moves
    if x.status ≠ .resident || x.issuing o then s
    else if !(x.isSource o) then s.modCtx c fun y => y.withWaiting w
    else if x.tagEff ≤ x.live.length || x.live.any fun l => l.iter = it then s
    else s.modCtx c fun y => ({ y with live := y.live ++ [⟨it, false, birth, true⟩] } : Ctx).withWaiting w
  | _, _ => s

/-- A sink that an operator's outputs reach, over at most fuel edges. -/
def Ctx.sinkOf (x : Ctx) (fuel o : Nat) : Option Nat :=
  match fuel with
  | 0 => none
  | n + 1 =>
    match x.edges.findSome? fun e => if e.prod = o then (match e.cons with | .sink k => some k | .op _ _ => none) else none with
    | some k => some k
    | none =>
      let next := (x.edges.filterMap fun e => if e.prod = o then (match e.cons with | .op p _ => some p | .sink _ => none) else none) ++
        (x.rings.filterMap fun g => if g.prod = o && g.kind ≠ .const then some g.cons else none)
      next.findSome? fun p => x.sinkOf n p

/-- The interval that an unbounded operator serves next (04 R93). -/
def nextServed (s : Int) (l : List Ival) : Option Ival :=
  let lo (a b : Ival) : Bool := decide (a.lo < b.lo)
  match firstBy lo (l.filter fun v => decide (s ≤ v.lo)) with
  | some v => some v
  | none => firstBy lo l

/-- How an unbounded operator serves an interval: where its state starts and the mode of the run, or a demand fault code (04 R91,
R92). Mode 1 restores, 2 is the origin. -/
def serveFrom (d : OpDesc) (st : OpState) (v : Ival) : Except Nat (Int × Nat) :=
  let before := st.landings.filter fun c => decide (c ≤ v.lo)
  if st.valid && decide (st.stime ≤ v.lo) then .ok (st.stime, if d.origin = some st.stime then 2 else 0)
  else match before, d.origin with
    | c :: t, _ => .ok (t.foldl max c, 1)
    | [], some o => if v.lo < o then .error 2 else .ok (o, 2)
    | [], none => .error 1

/-- An unbounded operator starts its next interval (04 R92, R93). -/
def State.unboundedStart (s : State) (c o : Nat) : State :=
  let x := s.ctx c
  let d := (x.image.ops[o]?).getD default
  match x.ops[o]? with
  | none => s
  | some st =>
    match st.serving, nextServed st.stime st.queue with
    | none, some v =>
      let rest := removeOne st.queue v
      if x.status ≠ .resident then s
      else match serveFrom d st v with
        | .error k =>
          let f : FaultInfo := ⟨7, k, 0, (x.sinkOf 64 o).getD 0, 0, false, ((x.block? d.entry).map (·.ptr)).getD 0, tagWord c 0 0,
            stampOf v.lo, []⟩
          let u := x.unitOf d.entry
          (s.modCtx c fun y => { y with ops := modAt y.ops o fun z => { z with queue := rest } }).deliverFault f (unitCode u)
            (unitDie u) c
        | .ok (from_, mode) =>
          let run (z : OpState) : OpState :=
            let left := (z.skipped.map v.meet).foldl (fun l w => if w.hi < w.lo then l else subtractIval l w) [⟨from_, v.hi⟩]
            { z with
              queue := rest, serving := if left = [] then none else some v, stime := from_, valid := true, mode := mode
              undone := left, skipped := subtractIval z.skipped v
              silent := if from_ < v.lo then some ⟨from_, v.lo - 1⟩ else none }
          s.modCtx c fun y => (({ y with ops := modAt y.ops o run } : Ctx).addIssue o ⟨from_, v.hi⟩).askInputs o none ⟨from_, v.hi⟩
    | _, _ => s

/-! ### Pressure and clones (07 R134, R136, R137, R139) -/

/-- A frame of a context is in the overflow area. -/
def State.spilledAny (s : State) (c : Nat) : Bool := (s.allFrames c).any (·.spilled)

/-- The doublings of a context's store limit count from the moment at which the overflow area holds no frame of it any more (07 R134);
before is the state ahead of the change. -/
def State.noteDrain (s before : State) (c : Nat) : State :=
  if before.spilledAny c && !(s.spilledAny c) then s.modCtx c fun x => { x with storeAt := s.clock.steps } else s

/-- A context's store limit doubled, once no frame of it is spilled and 4 096 steps after that or after its last doubling (07 R134). -/
def State.storeDouble (s : State) (c : Nat) : State :=
  let x := s.ctx c
  if s.spilledAny c || x.storeLim = 0xFFFF || decide (s.clock.steps < x.storeAt + 4096) then s
  else s.modCtx c fun y => { y with storeLim := BitVec.ofNat 16 (min 0xFFFF (2 * y.storeLim.toNat)), storeAt := s.clock.steps }

/-- The steps of a window of the resource manager (07 R136). -/
def cloneWindow : Nat := 2 ^ 20

/-- An operator is a bottleneck by what its context counted in the window (07 R136). -/
def Ctx.bottleneck (x : Ctx) (o : Nat) : Bool :=
  let feeds := (x.frameInputs o).filterMap fun y => x.producer? y.2
  ((x.image.ops[o]?).map (·.clonable)).getD false && decide (cloneWindow * 15 / 16 ≤ ((x.ops[o]?).map (·.busy)).getD 0) &&
  feeds.any fun p => decide (cloneWindow / 4 ≤ ((x.ops[p]?).map (·.full)).getD 0)

/-- Every edge of an operator is a frame edge, const rings apart (07 R136). -/
def Ctx.frameOnly (x : Ctx) (o : Nat) : Bool :=
  x.rings.all fun g => (g.cons ≠ o && g.prod ≠ o) || g.kind = .const

/-- The elements on which a clone of an operator may stand: in bays the context occupies, without its configuration, with room
for a frame (07 R137). -/
def State.cloneSites (s : State) (c o : Nat) : List UnitId :=
  let x := s.ctx c
  let used := x.place ++ x.ops.flatMap fun st => st.clones.map (·.unit)
  let need := 1 + (((x.image.ops[o]?).bind fun d => x.block? d.entry).map (·.blk.inputs)).getD 0
  (x.bays.flatMap fun b => (List.range 8).map fun i => UnitId.element (b * 8 + i)).filter fun u =>
    !(used.contains u) && s.framePlace c u need = some false

/-- The last clone that is not being removed begins to be, where none is yet (07 R139). -/
def leaveLast (l : List Copy) : List Copy :=
  if l.any (·.leaving) then l
  else l.zipIdx.map fun y => if y.2 + 1 = l.length then { y.1 with leaving := true } else y.1

/-- The end of a window: a bottleneck is to have one more copy; after four quiet windows in a row an operator loses one; the counts
start anew (07 R136, R137, R139). -/
def Ctx.endWindow (x : Ctx) (now : Nat) : Ctx :=
  let next (y : OpState × Nat) : OpState :=
    let hot := x.bottleneck y.2
    let quiet := if hot then 0 else y.1.quiet + 1
    { y.1 with
      want := hot && x.frameOnly y.2, quiet := quiet, busy := 0, full := 0
      clones := if 4 ≤ quiet then leaveLast y.1.clones else y.1.clones }
  { x with ops := x.ops.zipIdx.map next, windowAt := now / cloneWindow * cloneWindow }

/-- A clone that is being removed and has nothing left to do: no time pending on its registers, no activation on its unit (07 R139). -/
def State.drainedCopy (s : State) (c : Nat) (y : Copy) : Bool :=
  y.leaving && (y.regs.all fun r => r.2.pend = []) && (s.allFrames c).all fun w => w.unit ≠ y.unit

/-- The merge node of an operator holds no token back (07 R139). -/
def Ctx.merged (x : Ctx) (o : Nat) : Bool := x.edges.all fun e => e.prod ≠ o || e.flight.all fun k => !(e.waitsBelow k.stamp.toInt)

/-- The tokens of an edge in ascending order of their stamps. -/
def Edge.ordered (e : Edge) : Edge := { e with flight := sortBy (fun k => (k.stamp.toInt + 2 ^ 47).toNat) e.flight }

/-- The clones of an operator without those that have drained, and without their stall counters (07 R126). The last goes once the merge node
holds no token back; its tokens leave in order, and the original's own registers go too (07 R139). -/
def State.freeCopies (s : State) (c o : Nat) : State :=
  s.modCtx c fun x =>
    let old := x.clonesOf o
    let l := old.filter fun y => !(s.drainedCopy c y)
    if l = old || (l = [] && !(x.merged o)) then x
    else
      let gone (u : UnitId) : Bool := old.any (fun y => y.unit = u) && !(l.any fun y => y.unit = u)
      { x with
        ops := modAt x.ops o fun st => { st with clones := l, own := if l = [] then [] else st.own }
        elems := x.elems.map fun y => if gone y.1 then (y.1, { y.2 with stall := [] }) else y
        edges := if l = [] then x.edges.map fun e => if e.prod = o then e.ordered else e else x.edges }

/-- What an edge still owes its one consumer: the times of its pending intervals without those delivered, those of the tokens on their way
on it, and those of the demands that it has yet to reduce (07 R138). -/
def Edge.owed (e : Edge) : DReg :=
  let spans := e.flight.map fun k => tileSpan e.tile k.val k.stamp.toInt
  let coming (v : Ival) : Nat := sumNat (e.flight.map fun k => match tileTimes e.tile k.val k.stamp.toInt with
    | some w => (min v.hi w.hi - max v.lo w.lo + 1).toNat
    | none => 0)
  let ps := e.dreg.pend.map fun p => { p with got := p.got - coming p.iv }
  let add (l : List Pend) (v : Ival) : List Pend :=
    (l.foldl (fun r p => subtractIval r p.iv) [v]).foldl (fun r w => insertMerged r ⟨w, 0⟩) l
  let r : DReg := ⟨spans.foldl add ps, e.dreg.done, e.dreg.g, []⟩
  e.dreg.arrivals.foldl (fun y v => (y.reduce v).1) r

/-- A clone added on a unit. What was pending on the operator's edges before the first is the original's to serve, and what they still bring it
comes to the original (07 R138). -/
def Ctx.addClone (x : Ctx) (o : Nat) (u : UnitId) : Ctx :=
  let bare (e : Edge) : DReg := { e.dreg with arrivals := [] }
  let regs := x.edges.zipIdx.flatMap fun e =>
    (if e.1.prod = o then [(copyKey true e.2, bare e.1)] else []) ++
    (match e.1.cons with
      | .op p _ => if p = o then [(copyKey false e.2, e.1.owed)] else []
      | .sink _ => [])
  { x with ops := modAt x.ops o fun st =>
      { st with want := false, own := if st.clones = [] then regs else st.own, clones := st.clones ++ [⟨u, [], false⟩] } }

/-- A unit executes an activation of an operator. -/
def State.opRuns (s : State) (c o : Nat) : Bool :=
  s.cells.any fun y => match y.2.act with
    | some a => a.ctx = c && (s.ctx c).opOf? a.w.ptr = some o
    | none => false

/-- SINK_DEMAND_RELEASE (04 R81). -/
def execSinkDemandRelease (s : State) : Result State := .next (s.sinkRelease s.sched.subject.c s.sched.subject.k)
/-- HOST_DEMAND_POST (04 R79). -/
def execHostDemandPost (s : State) : Result State :=
  .next (s.hostPost s.sched.subject.off s.sched.subject.len s.sched.subject.data)
/-- DEMAND_REDUCE (04 R86). -/
def execDemandReduce (s : State) : Result State :=
  .next (s.modCtx s.sched.subject.c fun x => if x.status = .resident then x.reduceAt s.sched.subject.edge else x)
/-- RTF_BLOCK_FIRE (04 R84). -/
def execRtfBlockFire (s : State) : Result State := .next (s.rtfFire s.sched.subject.c s.sched.subject.k)
/-- ISSUE_COUNTER_FIRE (04 R89). -/
def execIssueCounterFire (s : State) : Result State := .next (s.issueFire s.sched.subject.c s.sched.subject.k)
/-- UNBOUNDED_INTERVAL_START (04 R92). -/
def execUnboundedIntervalStart (s : State) : Result State := .next (s.unboundedStart s.sched.subject.c s.sched.subject.k)
/-- STORE_LIMIT_DOUBLE (07 R134). -/
def execStoreLimitDouble (s : State) : Result State := .next (s.storeDouble s.sched.subject.c)
end Sys2Proof.Machine
end

