-- ==== Sys2Proof/Machine/Match.lean ====
section
/-! DEFINITION. Tokens at matching interfaces and sinks (02 R26, R27, R405; 04 R82; 05 R101; 07 R133 to R139; 17 R313). -/
namespace Sys2Proof.Machine

/-! ### Frames wherever they are (02 R22, R26) -/

/-- The frame of a unit for a block and a tag word, waiting, chosen or executing. -/
def State.findFrame (s : State) (c : Nat) (u : UnitId) (ptr : BlockPtr) (tag : TagWord) : Option Waiting :=
  (s.allFrames c).find? fun w => w.kind = .frame && w.unit = u && w.ptr = ptr && w.tag = tag

/-- A frame is one that a test names. -/
def Waiting.isFrame (w : Waiting) (u : UnitId) (ptr : BlockPtr) (tag : TagWord) : Bool :=
  w.kind = .frame && w.unit = u && w.ptr = ptr && w.tag = tag

/-- A frame changed, wherever it is. -/
def State.modFrame (s : State) (c : Nat) (u : UnitId) (ptr : BlockPtr) (tag : TagWord) (f : Waiting → Waiting) : State :=
  let g (w : Waiting) : Waiting := if w.isFrame u ptr tag then f w else w
  let s1 := s.modCtx c fun x => { x with waiting := x.waiting.map g }
  { s1 with cells := s1.cells.map fun y =>
      (y.1, { y.2 with chosen := y.2.chosen.map g, act := y.2.act.map fun a => { a with w := g a.w } }) }

/-- A frame of a unit has begun: chosen or executing. -/
def State.begun (s : State) (u : UnitId) (ptr : BlockPtr) (tag : TagWord) : Bool :=
  let y := s.cell u
  ((y.chosen.map fun w => w.isFrame u ptr tag).getD false) || ((y.act.map fun a => a.w.isFrame u ptr tag).getD false)

/-! ### Faults at arrival (02 R27, R405; 17 R313) -/

/-- A frame faults at an arrival: it is parked unless it has begun, the token stays beside it, in the area that has a slot for it, and the
record is sent (R405; log 161). -/
def State.frameFault (s : State) (c : Nat) (w : Waiting) (code port : Nat) (tok : Token) (spilled : Bool) : State :=
  let f : FaultInfo := ⟨6, code, 0, port, 0, false, w.ptr, w.tag, w.stamp, []⟩
  let park := !(s.begun w.unit w.ptr w.tag)
  (s.modFrame c w.unit w.ptr w.tag fun y =>
    { y with parked := y.parked || park, beside := y.beside ++ [(port, tok, spilled)] }).deliverFault f (unitCode w.unit) (unitDie w.unit) c

/-- A token of a context begins to wait for room on a unit: its store limit becomes 1 and the keystone Newel gets the event "overflow
full" (07 R135). -/
def State.overflowFull (s : State) (c : Nat) (u : UnitId) : State :=
  (s.modCtx c fun x => { x with storeLim := 1, storeAt := s.clock.steps }).raise keystone 9
    (BitVec.ofNat 512 (wingOfHall (hallOfBay (unitBay u))))

/-! ### Matching one token (02 R26, R27; 17 R313) -/

/-- The slot of a frame after a token, and where the arrival is a fault, its code. -/
def Slot.take (l : Slot) (tok : Token) : Except Nat Slot :=
  match l.val, l.part, tok.comb with
  | some _, _, _ => .error 10
  | none, none, none => .ok { l with val := some tok.val }
  | none, none, some k =>
    .ok (if k.n ≤ 1 then { l with val := some tok.val } else { l with part := some (k, 1, tok.val) })
  | none, some _, none => .error 15
  | none, some (k, n, v), some m =>
    if k ≠ m then .error 15
    else
      let y := combineVal k v tok.val
      if k.n ≤ n + 1 then .ok ⟨some y.1, none, l.flags ||| y.2⟩ else .ok ⟨none, some (k, n + 1, y.1), l.flags ||| y.2⟩

/-- What matching a token comes to: the state after it, or no room for its frame. -/
inductive Matched where
  | done (s : State) | full
  deriving DecidableEq, Repr, Inhabited

/-- A token matched at a port of a block on a unit (02 R26, R27). R27 gives no order where a token both differs in stamp and names a port that
is present: the stamp is reported (log 144). A token to be parked beside a frame that finds no slot waits on its track, as R135 has it for
a new frame: nothing faults until it has room (log 145). -/
def State.matchToken (s : State) (c : Nat) (u : UnitId) (b : BlkDesc) (port : Nat) (tok : Token) : Matched :=
  if b.blk.inputs ≤ port then
    let f : FaultInfo := ⟨1, 17, 0, port, 0, false, b.ptr, tok.tag, tok.stamp, []⟩
    .done (s.deliverFault f (unitCode u) (unitDie u) c)
  else match s.findFrame c u b.ptr tok.tag with
    | some w =>
      if w.stamp ≠ tok.stamp then
        (match s.framePlace c u 1 with
         | none => .full
         | some y => .done (s.frameFault c w 9 port tok y))
      else match (w.slots.getD port default).take tok with
        | .ok l =>
          .done (s.modFrame c u b.ptr tok.tag fun y =>
            { y with slots := modAt y.slots port fun _ => l, since := s.sched.moves })
        | .error k =>
          (match s.framePlace c u 1 with
           | none => .full
           | some y => .done (s.frameFault c w k port tok y))
    | none =>
      match s.framePlace c u (b.blk.inputs + 1) with
      | none => .full
      | some spilled =>
        let empty : List Slot := List.replicate b.blk.inputs ⟨none, none, 0⟩
        let l := match (default : Slot).take tok with
          | .ok l => l
          | .error _ => default
        let w := Waiting.fresh .frame b.ptr u tok.tag tok.stamp tok.birth (modAt empty port fun _ => l) s.sched.moves
        .done (s.modCtx c fun x =>
          (if spilled then x.spill s.clock.steps else x).withWaiting { w with spilled := spilled })

/-! ### Split and merge nodes (07 R138, R139) -/

/-- The place in an edge's flight of the token that leaves next: the first, or for a cloned producer the lowest stamp once no
pending time below it is still to arrive (07 R139). -/
def Ctx.nextFlight (x : Ctx) (e : Edge) : Option Nat :=
  if x.clonesOf e.prod = [] then (if e.flight = [] then none else some 0)
  else match e.flight.map (·.stamp.toInt) with
    | [] => none
    | t :: l =>
      let m := l.foldl min t
      if e.waitsBelow m then none
      else indexOf? e.flight fun k => k.stamp.toInt = m

/-- An edge after its token at a place has left. -/
def Edge.pass (e : Edge) (i : Nat) : Edge :=
  let z : Edge := { e with flight := dropAt e.flight i, blocked := false }
  { z with seen := z.keepSeen e.seen }

/-- The times of an interval. -/
def Ival.times (v : Ival) : List Int := (List.range (v.hi - v.lo + 1).toNat).map fun i => v.lo + (i : Int)

/-- A token that arrives at a merge node: every one of its times has arrived before, from another copy. -/
def Edge.again (e : Edge) (t : Token) : Bool := (tileSpan e.tile t.val t.stamp.toInt).times.all fun y => e.seen.contains y

/-- A token put on an edge by a copy of its producer: counted on the copy's register and on the edge's (04 R87; 07 R138). A merge node
lets a time that is pending through once, whichever copies bring it (07 R139; log 140). -/
def Ctx.putToken (x : Ctx) (k : Option UnitId) (i : Nat) (t : Token) : Ctx :=
  match x.edges[i]? with
  | none => x
  | some e =>
    let st := t.stamp.toInt
    let onEdge (y : Ctx) : Ctx :=
      { y with edges := modAt y.edges i fun e =>
          let z : Edge := { e with flight := e.flight ++ [t], dreg := e.dreg.token e.tile t.val st }
          { z with seen := z.keepSeen (e.seen ++ ((tileTimes e.tile t.val st).map Ival.times).getD []) } }
    if x.clonesOf e.prod = [] then onEdge x
    else
      let y := x.putCopyReg e.prod k true i ((x.copyReg e.prod k true i).token e.tile t.val st)
      if e.again t then y else onEdge y

/-- The token that an edge delivers next, with its edge, where its commit's stores let it (11 R249). -/
def State.nextToken (s : State) (c i : Nat) : Option (Edge × Nat × Token) := do
  let e ← (s.ctx c).edges[i]?
  let n ← (s.ctx c).nextFlight e
  let t ← e.flight[n]?
  if (s.ctx c).status = .resident && s.follows t.after then some (e, n, t) else none

/-- A token matched at each of some units; full where one has no room. -/
def State.matchAll (s : State) (c : Nat) (us : List UnitId) (b : BlkDesc) (port : Nat) (tok : Token) : Matched :=
  match us with
  | [] => .done s
  | u :: t =>
    match s.matchToken c u b port tok with
    | .full => .full
    | .done s1 => s1.matchAll c t b port tok

/-! ### Live tags that retire (07 R131) -/

/-- An edge leads to a sink, where no frame is. -/
def Edge.toSink (e : Edge) : Bool :=
  match e.cons with
  | .sink _ => true
  | .op _ _ => false

/-- A live tag of a source is held by its activation until that commits, by a frame, and by a token on its way to one (log 83). -/
def State.tagHeld (s : State) (c : Nat) (l : LiveTag) : Bool :=
  let t := tagWord c 0 l.iter.toNat
  l.busy || (s.allFrames c).any (fun w => w.kind = .frame && w.tag = t) ||
  ((s.ctx c).edges.any fun e => !e.toSink && e.flight.any fun k => k.tag = t) || (s.ctx c).offered.any fun y => y.2.2.2.tag = t

/-- The tags of sources that nothing holds retire. -/
def State.retireTags (s : State) (c : Nat) : State :=
  s.modCtx c fun x => { x with live := x.live.filter fun l => l.tagn || s.tagHeld c l }

/-- The next token of an edge arrives at the matching interfaces of its operator's copies, where a test admits it; where one has no room
it waits, its track back-pressured (07 R135, R138). -/
def State.tokenArrives (s : State) (c i : Nat) (p : Token → Bool) : State :=
  match s.nextToken c i with
  | none => s
  | some (e, n, t) =>
    match e.cons with
    | .sink _ => s
    | .op o port =>
      let x := s.ctx c
      let ks := x.takers o i (tileSpan e.tile t.val t.stamp.toInt)
      match x.block? (((x.image.ops[o]?).map (·.entry)).getD 0) with
      | none => s
      | some b =>
        if !(p t) || x.waitsOffered e then s
        else match s.matchAll c (ks.map (x.copyUnit o)) b port t with
          | .done s1 =>
            (s1.modCtx c fun y =>
              let z := y.markCopies o i ks e.tile t.val t.stamp.toInt
              { z with edges := modAt z.edges i fun w => w.pass n }).retireTags c
          | .full =>
            if e.blocked then s
            else (s.modCtx c fun y => { y with edges := modAt y.edges i fun z => { z with blocked := true } }).overflowFull c
              (x.copyUnit o (ks.headD none))

/-- A token offered again is matched, or waits among those offered, which begins its wait (02 R405; 07 R135). -/
def State.offer (s : State) (c : Nat) (u : UnitId) (b : BlkDesc) (port : Nat) (t : Token) : State :=
  match s.matchToken c u b port t with
  | .done s1 => s1
  | .full => (s.modCtx c fun x => { x with offered := x.offered ++ [(b.ptr, u, port, t)] }).overflowFull c u

/-- The token that waits as number n among those offered again, if none for its frames waits before it, is offered once more. -/
def State.offerWaiting (s : State) (c n : Nat) : State :=
  let x := s.ctx c
  match x.offered[n]? with
  | none => s
  | some (p, u, port, t) =>
    match x.blockAt p with
    | none => s
    | some b =>
      if x.status ≠ .resident || (x.offered.take n).any fun y => y.1 = p && y.2.1 = u then s
      else match s.matchToken c u b port t with
        | .full => s
        | .done s1 => (s1.modCtx c fun y => { y with offered := dropAt y.offered n }).retireTags c

/-! ### Sinks (04 R82) -/

/-- A sink after a token: delivered or a duplicate. -/
def Sink.take (y : Sink) (tile : Nat) (t : Token) : Sink :=
  let st := t.stamp.toInt
  if 1 < tile && t.val.sh = .course then
    let k := crsK t.val.bits
    let m : BitVec 128 := getKey y.tiles st 0
    let times := (List.range tile).map fun i => st + (i : Int)
    if (times.all fun z => y.wants z) && !(bit m k) then
      let z : Sink := { y with got := y.got ++ [t] }
      if k + 1 = tile then
        ({ z with bits := z.bits ++ times, tiles := z.tiles.filter fun q => q.1 ≠ st } : Sink).slide
      else { z with tiles := setKey z.tiles st (m ||| (1#128 <<< k)) }
    else { y with dups := y.dups + 1 }
  else if y.wants st then ({ y with bits := y.bits ++ [st], got := y.got ++ [t] } : Sink).slide
  else { y with dups := y.dups + 1 }

/-- The next token of an edge reaches its sink; the demands that wait there may follow (04 R81, R82). -/
def State.sinkArrives (s : State) (c i : Nat) : State :=
  match s.nextToken c i with
  | none => s
  | some (e, n, t) =>
    match e.cons with
    | .op _ _ => s
    | .sink k =>
      (s.modCtx c fun x => { x with
        edges := modAt x.edges i fun z => z.pass n
        sinks := x.sinks.map fun y => if y.k = k then y.take e.tile t else y }).retireTags c

/-- The sinks of an edge after times are marked delivered without a token (11 R239). -/
def Ctx.sinkMark (x : Ctx) (i : Nat) (v : Ival) : Ctx :=
  match x.edges[i]? with
  | none => x
  | some e =>
    match e.cons with
    | .op _ _ => x
    | .sink k => x.modSink k fun y =>
        let times := (y.pend.flatMap fun p =>
          (List.range (min p.hi v.hi - max p.lo v.lo + 1).toNat).map fun j => max p.lo v.lo + (j : Int)).filter fun t => y.wants t
        ({ y with bits := y.bits ++ times } : Sink).slide

/-- Times that a producer's copy marks delivered on an edge without a token, and at its sink (11 R239). -/
def Ctx.skipTimes (x : Ctx) (k : Option UnitId) (i : Nat) (v : Ival) : Ctx :=
  match x.edges[i]? with
  | none => x
  | some e =>
    let y := if x.clonesOf e.prod = [] then x else x.putCopyReg e.prod k true i ((x.copyReg e.prod k true i).mark v)
    let new := (e.dreg.pend.flatMap fun p => (p.iv.meet v).times).filter fun t => !(e.seen.contains t)
    let mark (e : Edge) : Edge :=
      let z : Edge := { e with dreg := e.dreg.mark v }
      { z with seen := z.keepSeen (e.seen ++ new) }
    ({ y with edges := modAt y.edges i mark } : Ctx).sinkMark i v

/-- TOKEN_MATCH (02 R26). -/
def execTokenMatch (s : State) : Result State :=
  .next (s.tokenArrives s.sched.subject.c s.sched.subject.e fun t => t.comb.isNone)
/-- BACKPRESSURED_TOKEN_RETRY (07 R135); a number past the last edge names a token that was offered again (02 R405). -/
def execBackpressuredTokenRetry (s : State) : Result State :=
  let c := s.sched.subject.c
  let i := s.sched.subject.e
  .next (match (s.ctx c).edges[i]? with
    | some e => if e.blocked then s.tokenArrives c i fun _ => true else s
    | none => s.offerWaiting c (i - (s.ctx c).edges.length))
/-- COMBINING_TOKEN_ARRIVAL (17 R313). -/
def execCombiningTokenArrival (s : State) : Result State :=
  .next (s.tokenArrives s.sched.subject.c s.sched.subject.e fun t => t.comb.isSome)
/-- SINK_TOKEN_ARRIVAL (04 R82). -/
def execSinkTokenArrival (s : State) : Result State := .next (s.sinkArrives s.sched.subject.c s.sched.subject.e)

end Sys2Proof.Machine
end

