-- ==== Sys2Proof/Machine/Stall.lean ====
section
/-! DEFINITION. The stall counters, and what the resource manager counts (07 R125, R126, R136; 20 R346; 22 R375). -/
namespace Sys2Proof.Machine

/-- The opportunity that a unit has just had was suppressed, and it is still free (07 R125, index 5; 22 R375). -/
def Cell.throttled (y : Cell) : Bool := y.denied && y.act.isNone && y.chosen.isNone

/-- The reason that a waiting activation is not executing: the first of R125 that applies. A block that a parked activation of its own
holds back counts "operand" (20 R346). -/
def State.stallReason (s : State) (x : Ctx) (b : BlkDesc) (w : Waiting) : Nat :=
  if x.parkedRing b then 0
  else if x.ready w then (if (s.cell w.unit).throttled then 5 else 3)
  else if x.tracksBlocked b || (x.ringsUsed b).any fun g => !(ringFree b.op g) then 2
  else if (x.ringsUsed b).any fun g => !(ringFull b.op g) then 1
  else 0

/-- A waiting activation counts: a frame with an operand, a source time, a chained successor. -/
def Waiting.counts (w : Waiting) : Bool :=
  match w.kind with
  | .frame => w.slots.any fun l => l.val.isSome
  | _ => true

/-- How close to ready an activation with a reason is: the ready ones first, then one that lacks only its tag, then rings, then operands
(log 83). -/
def closeness (r : Nat) : Nat :=
  match r with
  | 5 => 5
  | 3 => 4
  | 4 => 3
  | n => n

/-- The reason of the waiting activation that is closest to ready. -/
def closest (l : List Nat) : Option Nat :=
  match l with
  | [] => none
  | n :: t => some (t.foldl (fun m r => if closeness m < closeness r then r else m) n)

/-- The reason that a time pending in an issue counter counts, where no activation of it waits and one time is not executing: a source's
waits for its live tag, or as an activation at that time would wait (07 R125, R131). -/
def State.issueReason (s : State) (c n : Nat) (b : BlkDesc) : List Nat :=
  let x := s.ctx c
  let st := (x.ops[b.op]?).getD default
  if x.issuing b.op || ((x.image.ops[b.op]?).map (·.entry)) ≠ some n then []
  else match nextIssue st.issue (s.issued c b.op) with
    | none => []
    | some t =>
      if x.isSource b.op && (decide (x.tagEff ≤ x.live.length) || x.live.any fun l => l.iter = BitVec.ofInt 16 t) then [4]
      else [s.stallReason x b (Waiting.fresh .source b.ptr (x.unitOf n) 0 0 0 [] 0)]

/-- A TAGN of a block waits on a unit. -/
def State.tagnWaits (s : State) (u : UnitId) (c : Nat) (p : BlockPtr) : Bool :=
  match s.act u with
  | some a => a.ctx = c && a.w.ptr = p && (List.range a.recs.length).any fun j =>
      (a.slot j).st = .waiting && ((a.info j).map fun y => decide (y.1 = .tagn)).getD false
  | none => false

/-- The reason that a block of a context counts on a unit in this step; none where no activation of it waits there. -/
def State.stallOn (s : State) (c n : Nat) (b : BlkDesc) (u : UnitId) : Option Nat :=
  let x := s.ctx c
  closest ((if s.tagnWaits u c b.ptr then [4] else []) ++ (if u = x.unitOf n then s.issueReason c n b else []) ++
    (x.waiting.filter fun w => w.unit = u && w.ptr = b.ptr && w.counts).map (s.stallReason x b))

/-- The units on which a block of a context is configured: its own, and those of its operator's clones. -/
def Ctx.blockUnits (x : Ctx) (n : Nat) (b : BlkDesc) : List UnitId := (x.unitOf n :: (x.clonesOf b.op).map (·.unit)).dedup

/-- The stall counters of one block of a context after some steps. -/
def State.stallBlock (s : State) (steps c : Nat) (n : Nat) (b : BlkDesc) : State :=
  ((s.ctx c).blockUnits n b).foldl
    (fun t u => match s.stallOn c n b u with
      | none => t
      | some r => t.modCtx c fun y => y.modElem u fun e => e.putStall n r (e.stallOf n r + steps)) s

/-- What the resource manager reads of an operator in the steps since they were last counted, as far as they lie in its window: its
elements execute it; a block of it counts "ring full" (07 R136). -/
def State.cloneCount (s : State) (c : Nat) (o : Nat) : State :=
  let x := s.ctx c
  let n := min s.clock.steps (x.windowAt + cloneWindow) - max s.fab.countedAt x.windowAt
  let full := x.image.blocks.zipIdx.any fun y =>
    y.1.op = o && (x.blockUnits y.2 y.1).any fun u => s.stallOn c y.2 y.1 u = some 2
  let add (st : OpState) : OpState :=
    { st with busy := st.busy + (if s.opRuns c o then n else 0), full := st.full + (if full then n else 0) }
  s.modCtx c fun y => { y with ops := modAt y.ops o add }

/-- Every stall counter counts the steps since it last did, each step once (07 R125). -/
def State.countStalls (s : State) : State :=
  let n := s.clock.steps - s.fab.countedAt
  let count (t : State) (c : Nat) : State :=
    let x := s.ctx c
    if x.status = .resident || x.status = .evicting then
      let t1 := (x.image.blocks.zipIdx).foldl (fun y b => y.stallBlock n c b.2 b.1) t
      (List.range x.ops.length).foldl (fun y o => y.cloneCount c o) t1
    else t
  let t := [0, 1, 2, 3].foldl count s
  { t with fab := { t.fab with countedAt := s.clock.steps } }

/-- A move of the resource manager for an operator (07 R136 to R139): the window ends once its steps are over, all of them counted; else
drained clones go, and at a commit boundary, no unit executing the operator, a bottleneck gains the copy that it is to have. -/
def State.cloneCheck (s : State) (c o : Nat) : State :=
  let x := s.ctx c
  if x.windowAt + cloneWindow ≤ s.clock.steps then s.countStalls.modCtx c fun y => y.endWindow s.clock.steps
  else
    let s1 := s.freeCopies c o
    let st := ((s1.ctx c).ops[o]?).getD default
    let sites := s1.cloneSites c o
    if st.want && decide (st.clones.length < 7) && sites ≠ [] && !(s1.opRuns c o) then
      s1.modCtx c fun y => y.addClone o (sites.getD (Config.freeSite s.sched.moves % max 1 sites.length) (.element 0))
    else s1

/-- CLONE_WINDOW_CHECK (07 R136). -/
def execCloneWindowCheck (s : State) : Result State := .next (s.cloneCheck s.sched.subject.c s.sched.subject.k)

/-- STALL_COUNTER_STEP (07 R125). -/
def execStallCounterStep (s : State) : Result State := .next s.countStalls

end Sys2Proof.Machine
end

