-- ==== Sys2Proof/Machine/Retry.lean ====
section
/-! DEFINITION. What RETRY does at commit to a held request or a parked activation (20 R348, R349). -/
namespace Sys2Proof.Machine

/-! ### Generator streams (11 R245) -/

/-- The slots of a ring that its consumer has moved past and no generator has yet to read are freed to the producer. -/
def State.freeSlots (s : State) (c load q : Nat) : State :=
  let left := s.net.reqs.filterMap fun r =>
    match r.kind with
    | .genStore _ p n => if r.ctx = c && r.load_ = load && p = q then some n else none
    | _ => none
  s.modHome c load fun x => x.modRing q fun g => { g with freed := left.foldl min g.rd }

/-- Every ring of a context freed as far as it can be. -/
def State.freeRings (s : State) (c : Nat) : State := (s.ctx c).rings.foldl (fun t g => t.freeSlots c (s.ctx c).stream g.q) s

/-- A course that a generator loaded fills its slot; the last course of a tile delivers the tile's times (04 R85). -/
def State.fillSlot (s : State) (r : Req) (q n : Nat) (v : Course) : State :=
  s.modHome r.ctx r.load_ fun x => x.modRing q fun g =>
    let g1 := g.put n (some (Val.ofCourse v))
    if 1 < g.tile then { g1 with dreg := g1.dreg.token g.tile (Val.ofCourse v) r.stamp.toInt } else g1

/-! ### Held requests -/

/-- A request held at a port. -/
def Req.isHeld (q : Req) : Bool :=
  match q.st with
  | .held _ _ => true
  | _ => false

/-- The entries of a port's cache that a request would use are dropped, so that it walks afresh. -/
def State.forget (s : State) (q : Req) : State :=
  { s with net := { s.net with cache := s.net.cache.filter fun e => !(e.port = q.port && q.vas.any e.page.covers) } }

/-- A held request resumed: it re-walks and re-issues before the younger of its stream; an operation or task held as a whole goes on. -/
def State.resumeReq (s : State) (q : Req) : State :=
  match q.kind with
  | .engineStop _ | .matrixStop _ | .chunkStop _ _ => (s.forget q).dropReq q.id
  | _ => ((s.undrain q.id).forget q).modReq q.id fun y => { y with st := .again, trans := [] }

/-- The page at which an operation is held is skipped by it from now on. -/
def EngineOp.skipPage (o : EngineOp) (space va : Nat) : EngineOp :=
  let n := o.kind.extent
  let holds (cap : Pair) (k : Nat) : Bool := spaceClass (capSpace cap) = spaceClass space &&
    (granuleVas (capCursor cap) k).any fun x => x / 4096 = va / 4096
  let inDst := holds o.dst n.2
  let inSrc := !inDst || holds o.src n.1
  { o with skip := o.skip ++ (if inSrc then [(va / 4096, false)] else []) ++ (if inDst then [(va / 4096, true)] else []) }

/-- A store of a collective discarded: its bytes do not count at the barrier. -/
def State.uncount (s : State) (q : Req) : State :=
  let less (k : Contribution) : Contribution := if k.after.contains q.id then { k with bytes := k.bytes - q.kind.size } else k
  if q.port.kind = 4 then { s with net := { s.net with contribs := s.net.contribs.map less } } else s

/-- A held request cancelled. -/
def State.cancelReq (s : State) (q : Req) : State :=
  match q.kind with
  | .load _ _ | .gather _ _ | .acquire _ | .image _ _ _ =>
    (match s.act q.unit with
     | some a => s.takeFaultSilent q.unit a
     | none => s.dropReq q.id)
  | .genLoad _ p n => (s.fillSlot q p n 0).dropReq q.id
  | .genStore _ p _ => (s.dropReq q.id).freeSlots q.ctx q.load_ p
  | .engineStop id => (s.modEngine id fun o => o.skipPage q.space q.addr).dropReq q.id
  | .engineTile _ _ | .engineWords _ _ =>
    (s.modEngine q.strm fun o => { o with lost := o.lost ++ [(q.loops.headD 0, q.kind.size)] }).dropReq q.id
  | .chunkStop id _ => (s.modEngine id fun o => { o with sent := o.sent + 1 }).dropReq q.id
  | .matrixStop seq =>
    (match s.task? seq with
     | some (c, t) => s.endTask c t
     | none => (s.endSaved seq).dropReq q.id)
  | _ => (s.uncount q).dropReq q.id

/-- RETRY of a port at commit: the request that it found at fire, if that is still held (20 R349). -/
def State.retryPort (s : State) (target : Option Nat) (cancel : Bool) : State :=
  match target.bind s.req? with
  | none => s
  | some q => if !q.isHeld then s else if cancel then s.cancelReq q else s.resumeReq q

/-! ### Parked activations -/

/-- A time leaves the issue counter of an operator, and the run of an unbounded one: the interval that it serves completes with the last
(04 R89, R93). -/
def Ctx.timeOver (x : Ctx) (o : Nat) (t : Int) (tiles : List Ival) : Ctx :=
  { x with ops := modAt x.ops o fun st => (st.issueDrop t).timesOver (⟨t, t⟩ :: tiles) }

/-- The operands of a waiting activation that stand in a frame, by port. -/
def Waiting.operands (w : Waiting) : List (Nat × Val) :=
  if w.kind = .frame then w.slots.zipIdx.filterMap fun y => y.1.val.map fun v => (y.2, v) else []

/-- The live tag of a source whose activation is over no longer waits for it (07 R131). -/
def Ctx.tagIdle (x : Ctx) (it : BitVec 16) : Ctx :=
  { x with live := x.live.map fun l => if !l.tagn && l.iter = it then { l with busy := false } else l }

/-- A parked activation removed from its context; with it an unbounded operator's time ends (log 146). -/
def State.cancelParked (s : State) (c : Nat) (w : Waiting) : State :=
  let s1 := s.modCtx c fun x => { x with waiting := removeOne x.waiting w }
  let o := ((s.ctx c).opOf? w.ptr).getD 0
  let ends := w.kind = .source || (((s.ctx c).image.ops[o]?).any fun d => d.unbounded)
  let t := w.stamp.toInt
  let s2 := if ends then s1.modCtx c fun x => x.timeOver o t (x.tilesEnded o w.operands [] t t) else s1
  let s3 := if w.kind = .source then s2.modCtx c fun x => x.tagIdle (tagIter w.tag) else s2
  (s3.retireTags c).noteDrain s c

/-- A parked activation that RETRY found at fire, if it is still there and parked (20 R349). -/
def State.parkedTarget (s : State) (c blk : Nat) (tag : TagWord) (target : Option (UnitId × Nat × Stamp)) : Option Waiting :=
  match target, (s.ctx c).block? blk with
  | some (u, made, st), some b => (s.ctx c).waiting.find? fun w =>
      w.parked && w.ptr = b.ptr && w.tag = tag && w.unit = u && w.made = made && w.stamp = st
  | _, _ => none

/-- RETRY of a frame at commit. -/
def State.retryFrame (s : State) (c blk : Nat) (tag : TagWord) (target : Option (UnitId × Nat × Stamp)) (cancel : Bool) : State :=
  match s.parkedTarget c blk tag target with
  | none => s
  | some w =>
    if cancel then s.cancelParked c w
    else s.modCtx c fun x =>
      { x with waiting := removeOne x.waiting w ++ [{ w with parked := false, since := s.sched.moves }] }

end Sys2Proof.Machine
end

