-- ==== Sys2Proof/Machine/Commit.lean ====
section
/-! DEFINITION. The end of an activation and its commit (02 R21, R34 to R36; 04 R87, R92; 06 R123; 08 R149, R150; 11 R236 to R250;
24 R403). -/
namespace Sys2Proof.Machine

/-! ### The end of an activation (02 R34; 06 R123; 08 R149, R150; 11 R238) -/

/-- How often an activation has written an output port. -/
def Act.writes (a : Act) (k : Nat) : Nat := (a.outs.filter fun o => o.port = k).length

/-- The net advance of a ring's cursor. -/
def Act.advance (a : Act) (q : Nat) (read : Bool) : Nat :=
  sumNat ((a.moves.filter fun m => m.q = q && m.read = read).map (·.n))

/-- A ring that breaks its rate, or none (02 R31; 15 R286). -/
def Act.rateBreach (a : Act) (x : Ctx) : Option Nat :=
  ((sortBy (fun (g : Ring) => g.q) (x.rings.filter fun g => decide (g.q < 16) && bit a.blk.rings g.q && g.kind = .stream)).find? fun g =>
    (g.cons = a.op x && a.advance g.q true ≠ g.take) || (g.prod = a.op x && a.advance g.q false ≠ g.give)).map (·.q)

/-- The successor and link stack after the redirects of an activation, or the code of R150: two redirects are reported before the stack is looked
at (log 163). -/
def Act.redirect (a : Act) (next : BlockPtr) : Except Nat (BlockPtr × List BlockPtr) :=
  match a.redirs, a.w.link with
  | [], l => .ok (next, l)
  | [some p], l => if 4 ≤ l.length then .error 11 else .ok (p, next :: l)
  | [none], [] => .error 12
  | [none], p :: l => .ok (p, l)
  | _, _ => .error 13

/-- The input ports of a block that follows: of the image, or as its header reads in memory; none where it cannot be read, and its
fetch will fault. -/
def State.inputsAt (s : State) (u : UnitId) (c : Nat) (p : BlockPtr) : Option Nat :=
  match (s.ctx c).blockAt p with
  | some b => some b.blk.inputs
  | none =>
    match s.fetchBytes (unitPort u) (s.ctx c).asid (p.toNat * 64) 12 0 ⟨false, 0, [], false⟩ with
    | .ok l => if (readHeader (recordAt l 0)).bad then none else some (readHeader (recordAt l 0)).inputs
    | .error _ => none

/-- An activation carries a form whose effect meets a test. -/
def Act.hasEffect (a : Act) (p : Effect → Bool) : Bool := a.effects.any fun e => p e.2

/-- The chain of an activation breaks R35, R230, R314 or R362. -/
def State.chainBreach (s : State) (u : UnitId) (a : Act) (mask : BitVec 16) (next0 next : BlockPtr) : Bool :=
  let bad := match s.inputsAt u a.ctx next with
    | some n => mask ≠ BitVec.ofNat 16 (2 ^ n - 1)
    | none => false
  let iret := a.hasEffect fun e => e = .iret
  (next ≠ 0 && (bad || a.outs.any fun o => o.tag.isSome || o.comb.isSome)) ||
  (iret && (mask ≠ 0 || next0 ≠ 0 || next ≠ 0))

/-- A LAND. -/
def Effect.isLanding (e : Effect) : Bool :=
  match e with
  | .landing _ _ _ => true
  | _ => false

/-- The demand fault code of an activation's landings; 99 where there is none (11 R236, R238). -/
def Act.landingCode (a : Act) (x : Ctx) : Nat :=
  let d := a.opDesc x
  let n := (a.effects.filter fun e => e.2.isLanding).length
  if !d.unbounded || d.landing = 0 then 99
  else
    let due := decide (a.w.stamp.toInt % d.landing = 0)
    firstCode [ (due && n = 0, 5), (decide (2 ≤ n), 6), (!due && decide (1 ≤ n), 7) ]

/-- The first port of a list that meets a test. -/
def firstPort (n : Nat) (p : Nat → Bool) : Option Nat := (List.range n).find? p

/-- The checks at the end of an activation: class, code and port of the first that fails, or exit, successor and link stack. -/
def State.endChecks (s : State) (u : UnitId) (a : Act) : Except (Nat × Nat × Nat) (Nat × BlockPtr × List BlockPtr) :=
  let x := s.ctx a.ctx
  match a.exits with
  | [] => .error (6, 1, 0)
  | [n] =>
    if a.blk.exits.length ≤ n then .error (6, 3, 0)
    else
      let mask := a.blk.mask n
      match firstPort a.blk.outputs fun k => bit mask k && a.writes k ≠ 1,
        firstPort a.blk.outputs fun k => !(bit mask k) && a.writes k ≠ 0, a.rateBreach x with
      | some k, _, _ => .error (6, if a.writes k = 0 then 4 else 5, k)
      | none, some k, _ => .error (6, 6, k)
      | none, none, some q => .error (6, 7, q)
      | none, none, none =>
        match a.redirect (a.blk.next n) with
        | .error k => .error (6, k, 0)
        | .ok (next, stack) =>
          if s.chainBreach u a mask (a.blk.next n) next then .error (6, 8, 0)
          else if a.landingCode x ≠ 99 then .error (7, a.landingCode x, 0)
          else .ok (n, next, stack)
  | _ => .error (6, 2, 0)

/-- The end of the activation that a unit executes; a check that fails names no record (log 161). -/
def State.endAct (s : State) (u : UnitId) : State :=
  match s.act u with
  | none => s
  | some a =>
    if a.stage ≠ .running || !a.quiet then s
    else match s.endChecks u a with
      | .error (cls, code, port) => s.takeFault u a 0xFF cls code port 0
      | .ok (n, next, stack) => s.putAct u { a with stage := .committing n next stack false }

/-! ### What a commit emits -/

/-- The last by record index of what a list of effects gives. -/
def lastBy {β : Type} (l : List (Nat × Effect)) (f : Effect → Option β) : Option β :=
  ((sortBy (fun e => e.1) l).filterMap fun e => f e.2).getLast?

/-- The emitted tag word (08 R148). -/
def Act.emitTag (a : Act) : TagWord :=
  (lastBy a.effects fun e => match e with
    | .tset t => some t
    | _ => none).getD a.w.tag

/-- The emitted stamp (11 R235). -/
def Act.emitStamp (a : Act) : Stamp :=
  (lastBy a.effects fun e => match e with
    | .stset t => some t
    | _ => none).getD a.w.stamp

/-- The unit on which a block of an activation's operator receives what the activation puts there itself: its own where a clone of the
operator executes it (07 R137). -/
def Ctx.ownUnit (x : Ctx) (a : Act) (n : Nat) (b : BlkDesc) : UnitId := (x.copyOn b.op a.w.unit).getD (x.unitOf n)

/-- The birth of what an activation sends under a tag word: that of the live tag which TAGN allocated, else its own (07 R128). -/
def Ctx.birthFor (x : Ctx) (a : Act) (tag : TagWord) : BitVec 32 :=
  match x.live.find? fun l => l.tagn && l.iter = tagIter tag with
  | some l => if tag = a.w.tag then a.w.birth else l.birth
  | none => a.w.birth

/-- The state in a commit: what it has changed, the requests of its records, its late flags. -/
structure Moment where
  s     : State
  reqs  : List (Nat × Req)
  flags : BitVec 6
  deriving DecidableEq, Repr, Inhabited

/-- Why the commit stage does not end yet: it waits, waits for room for a frame, needs bytes, or faults. -/
inductive Hold where
  | wait | full (u : UnitId) | read (j space addr n : Nat) | fault (j cls code : Nat)
  deriving DecidableEq, Repr, Inhabited

/-- A moment with its state changed. -/
def Moment.go (m : Moment) (s : State) : Except Hold Moment := .ok { m with s := s }

/-- A moment in which record j raises flags: one whose trap bit is set faults the activation (03 R60). -/
def Moment.flag (m : Moment) (a : Act) (j : Nat) (f : BitVec 6) : Except Hold Moment :=
  if f &&& a.trap ≠ 0 then .error (.fault j 5 (lowestFlag (f &&& a.trap))) else .ok { m with flags := m.flags ||| f }

/-- A moment with one more request of record j. -/
def Moment.ask (m : Moment) (j : Nat) (q : Req) : Moment := { m with reqs := m.reqs ++ [(j, q)] }

/-! ### Frames (11 R229) -/

/-- FALLOC at commit on one unit. -/
def State.frameAlloc (s : State) (a : Act) (u : UnitId) (b : BlkDesc) (tag : TagWord) : Option State :=
  match s.findFrame a.ctx u b.ptr tag with
  | some _ => some s
  | none =>
    match s.framePlace a.ctx u (b.blk.inputs + 1) with
    | none => none
    | some spilled =>
      let w := Waiting.fresh .frame b.ptr u tag a.emitStamp ((s.ctx a.ctx).birthFor a tag)
        (List.replicate b.blk.inputs ⟨none, none, 0⟩) s.sched.moves
      some (s.modCtx a.ctx fun x => (if spilled then x.spill s.clock.steps else x).withWaiting { w with spilled := spilled })

/-- FALLOC at commit. -/
def State.falloc (s : State) (a : Act) (n : Nat) (tag : TagWord) : Except Hold State :=
  match (s.ctx a.ctx).block? n with
  | none => .ok s
  | some b =>
    let u := (s.ctx a.ctx).ownUnit a n b
    match s.frameAlloc a u b tag with
    | some t => .ok t
    | none => .error (.full u)

/-- FFREE at commit. -/
def State.ffree (s : State) (c n : Nat) (tag : TagWord) : State :=
  match (s.ctx c).block? n with
  | none => s
  | some b => s.modCtx c fun x =>
      { x with waiting := x.waiting.filter fun w => !(w.kind = .frame && w.ptr = b.ptr && w.tag = tag && !w.complete && !w.parked) }

/-- FSTS and CMBI at commit: the value arrives as a token does (17 R314). -/
def State.fsts (s : State) (a : Act) (n port : Nat) (tag : TagWord) (v : Val) (comb : Option Comb) : Except Hold State :=
  match (s.ctx a.ctx).block? n with
  | none => .ok s
  | some b =>
    let x := s.ctx a.ctx
    let u := x.ownUnit a n b
    match s.matchToken a.ctx u b port ⟨v, tag, a.emitStamp, x.birthFor a tag, comb, ⟨[], []⟩⟩ with
    | .done t => .ok t
    | .full => .error (.full u)

/-! ### The matrix engine (13 R262, R264, R270 to R274) -/

/-- The task queue of a context in a bay has no free slot. -/
def Ctx.queueFull (x : Ctx) (bay : Nat) : Bool := decide (64 ≤ (x.queue bay).length)

/-- A record entered in a queue. -/
def State.enterTask (s : State) (a : Act) (bay : Nat) (u : UnitId) (k : TaskKind) : State :=
  let t : Task := ⟨s.net.nextTask, bay, k, u, a.w.ptr, a.w.tag, a.w.stamp, 0, .queued, noFlags, false, []⟩
  let s1 : State := { s with net := { s.net with nextTask := s.net.nextTask + 1 } }
  s1.modCtx a.ctx fun x => { x with tasks := x.tasks ++ [t] }

/-- The binding of a weight tag in a bay. -/
def Ctx.weight? (x : Ctx) (bay w : Nat) : Option Binding := (x.weights.find? fun y => y.1 = bay && y.2.1 = w).map (·.2.2)

/-- MLDB at commit: a binding of its own, whatever it describes (13 R256). -/
def State.bindWeight (s : State) (u : UnitId) (a : Act) (w : Nat) (b : Binding) : Except Hold State :=
  let bay := unitBay u
  let mine : Binding := { b with seq := s.net.nextTask + 1 }
  if (s.ctx a.ctx).queueFull bay then .error .wait
  else .ok ((s.enterTask a bay u (.load w mine)).modCtx a.ctx fun x =>
    { x with weights := (x.weights.filter fun y => !(y.1 = bay && y.2.1 = w)) ++ [(bay, w, mine)] })

/-- A descriptor with p taken from CX.MPLN where it is 0 (13 R270). -/
def TaskDesc.withPlanes (d : TaskDesc) (mpln : Nat) : TaskDesc :=
  if d.p ≠ 0 then d
  else
    let p := (mpln - 2) / 2
    { d with p := p, raw := (d.raw &&& ~~~(7#192 <<< 13)) ||| (BitVec.ofNat 192 p <<< 13) }

/-- The last kc that a bay committed for a node. -/
def Node.kcOf (n : Node) (bay : Nat) : Nat := getKey n.lastKc bay 0

/-- MTASK at commit (13 R264). -/
def State.addTask (s : State) (u : UnitId) (a : Act) (j : Nat) (cap : Pair) (tagged : Bool) (d : TaskDesc) : Except Hold State :=
  let bay := unitBay u
  let x := s.ctx a.ctx
  let nb := hallOfBay bay * 7 + d.home
  let nd := x.node nb d.node
  if x.queueFull bay then .error .wait
  else if nd.rows = 0 then .error (.fault j 4 12)
  else match x.weight? bay d.w with
    | none => .error (.fault j 4 (if nd.rows < d.row0 + d.m then 11 else 13))
    | some b =>
      if nd.rows < d.row0 + d.m || nd.cols < d.col0 + b.n then .error (.fault j 4 11)
      else if d.kc < nd.kcOf bay then .error (.fault j 4 14)
      else
        let s1 := s.enterTask a bay u (.task cap tagged (d.withPlanes x.mpln.toNat) b)
        .ok (s1.modCtx a.ctx fun y => y.modNode nb d.node fun n => { n with lastKc := setKey n.lastKc bay d.kc })

/-- The header that MSPL writes (13 R273). -/
def Node.header (n : Node) : List Byte :=
  natBytes n.rows 2 ++ natBytes n.cols 2 ++ [if n.pair then 1#8 else 0#8, 0#8] ++ natBytes n.got 2 ++ List.replicate 56 0#8

/-- A node with lanes, tails and got of an image of MSPL. -/
def Node.restore (n : Node) (img : List Byte) : Node :=
  let rows := List.range n.rows
  let crs (r i : Nat) : Course := bytesCourse ((img.drop (64 + 64 * (r * n.width + i))).take 64)
  let lanes := rows.flatMap fun r => (List.range n.cols).filterMap fun col =>
    let v := BitVec.ofNat 32 (laneRaw 32 (crs r (col / 15)) (col % 15))
    if v = 0 then none else some ((r, col), v)
  let tails := rows.filterMap fun r =>
    let t := tailOf (crsL (crs r 0)) (crsK (crs r 0)) false
    if t = 0 then none else some (r, t)
  { n with lanes := lanes, tails := tails, got := fieldAt img 6 2 }

/-- The requests of MSPL: the header, then the rows. -/
def Moment.spill (m : Moment) (u : UnitId) (a : Act) (j : Nat) (n : Node) (cap : Pair) : Moment :=
  let x := m.s.ctx a.ctx
  let put (off : Nat) (d : StoreData) : Req := a.request x u j (capSpace cap) ((capCursor cap + off) % 2 ^ 72) (.store d)
  n.rowsOut.foldl (fun y r => y.ask j (put (64 + r.1) (.course r.2))) (m.ask j (put 0 (.bytes n.header)))

/-- The forms of group 0xC that change a node, at commit. -/
def Moment.nodeEffect (m : Moment) (u : UnitId) (a : Act) (j : Nat) (e : Effect) : Except Hold Moment :=
  let bay := unitBay u
  let x := m.s.ctx a.ctx
  match e with
  | .macc id row col c =>
    let y := (x.node bay id).addCourse row col c
    ({ m with s := m.s.modCtx a.ctx fun z => z.modNode bay id fun _ => y.1 } : Moment).flag a j y.2
  | .meor id bar n cap =>
    if 4 ≤ (x.node bay id).releases.length then .error .wait
    else m.go (m.s.modCtx a.ctx fun z =>
      z.modNode bay id fun d => { d with releases := d.releases ++ [(n, bar, cap, a.w.ptr, a.w.tag, a.w.stamp)] })
  | .mspl id _ cap => if x.nodeStill bay id then .ok (m.spill u a j (x.node bay id) cap) else .error .wait
  | .mrst id cap img =>
    let n := x.node bay id
    if !(x.nodeIdle bay id) then .error .wait
    else match img with
      | none => .error (.read j (capSpace cap) (capCursor cap) (64 + n.size))
      | some l =>
        if l.take 6 ≠ n.header.take 6 then .error (.fault j 4 12)
        else m.go (m.s.modCtx a.ctx fun z => z.modNode bay id fun d => d.restore l)
  | .mzro id rows cols pair =>
    let n := x.node bay id
    if !(x.nodeIdle bay id) then .error .wait
    else if n.arows < rows || n.acols < cols || (pair && !n.apair) then .error (.fault j 4 12)
    else m.go (m.s.modCtx a.ctx fun z => z.modNode bay id fun d => d.zero rows cols pair)
  | _ => .ok m

/-! ### Landings, streams and other requests of a commit -/

/-- The index of a landing recorded: 64 slots, the newest in each (11 R236). -/
def State.indexLanding (s : State) (a : Act) (c : Int) : State :=
  let x := s.ctx a.ctx
  let l := (a.opDesc x).landing
  let put (st : OpState) : OpState :=
    { st with landings := (st.landings.filter fun y => landSlot y l ≠ landSlot c l) ++ [c] }
  s.modCtx a.ctx fun y => { y with ops := modAt y.ops (a.op x) put }

/-- The loop counters of course i of a stream (11 R245). -/
def loopsAt (cs : List Nat) (i : Nat) : List Nat :=
  match cs with
  | [] => []
  | c :: t => i % max 1 c :: loopsAt t (i / max 1 c)

/-- The port of the address generator of a ring of a context (20 R347). -/
def genPort (u : UnitId) (c q : Nat) : PortId := ⟨1, unitDie u * 64 + 16 * c + q⟩

/-- The requests of a stream at its generator: one stream of its own. -/
def Moment.stream (m : Moment) (u : UnitId) (a : Act) (j q space : Nat) (addrs counts : List Nat) (k : Nat → ReqKind) : Moment :=
  let x := m.s.ctx a.ctx
  addrs.zipIdx.foldl
    (fun y p => y.ask j { a.request x u j space p.1 (k p.2) with
      port := genPort u a.ctx q, strm := m.s.net.nextReq + j, loops := loopsAt counts p.2 }) m

/-- The places of the courses that KVAPP appends to, or the code of a page that no longer admits it. -/
def State.appendSpots (s : State) (u : UnitId) (a : Act) (addr n : Nat) : Except Nat (List Spot) :=
  (List.range n).mapM fun i =>
    let va := addr + 64 * i
    match s.pageFor (unitPort u) (s.ctx a.ctx).asid va with
    | .error k => .error k
    | .ok p => if leafCode p va 0 .atomic = 99 then .ok (p.spot va) else .error (leafCode p va 0 .atomic)

/-- A course as record j of an activation will find it: what memory reads, with the activation's lower stores laid over (11 R243). -/
def State.courseSeen (s : State) (a : Act) (j va : Nat) (x : Spot) : Course :=
  withZ (bytesCourse ((a.below j 0).foldl (fun b y => overlay b va y.addr y.data) (courseBytes (effective (s.courseAt x.key)))))

/-- A KVAPP of record j comes after something that its own commit has yet to perform, or after what the migration of its page does: a lower
store or atomic to the same bytes, on a Newel any (02 R39), or one below a FENCE (11 R249); a course that is copied (10 R217). -/
def Moment.appendLater (m : Moment) (u : UnitId) (a : Act) (j : Nat) (q : Req) (l : List Spot) : Bool :=
  let fenced := a.effects.any fun e => decide (e.1 < j) && (match e.2 with
    | .fence _ => true
    | _ => false)
  let all := fenced || isNewel u
  (a.stores.any fun b => decide (b.j < j) && (all || (spaceClass b.space = 0 && rangesMeet (b.addr, b.data.size) (q.addr, q.kind.size)))) ||
  (m.reqs.any fun r => all || m.s.meets r.2 q) ||
  l.any fun x => m.s.copiedAt x.tier x.pa 64

/-- KVAPP at commit (15 R296): its courses are checked, and updated in ascending order; where one faults the activation faults and none is
changed. It waits for what its unit has sent to the same bytes before (17 R309). Where something of its own commit or of a migration comes
first, or the courses are another device's, the update is a request in record order, for all the courses at once (log 82). -/
def Moment.append (m : Moment) (u : UnitId) (a : Act) (j addr n pos : Nat) (v : Course) : Except Hold Moment :=
  let vs := (List.range n).map fun i => BitVec.ofNat 32 (laneRaw 32 v i)
  let q := a.request (m.s.ctx a.ctx) u j 0 addr (.kvapp pos vs)
  match m.s.appendSpots u a addr n with
  | .error k => .error (.fault j 3 k)
  | .ok l =>
    let old := l.zipIdx.map fun x => m.s.courseSeen a j (addr + 64 * x.2) x.1
    let new := (old.zip vs).map fun x => kvAppend x.1 pos x.2
    let k := firstCode (old.map fun c => (kvCode c ≠ 99, kvCode c))
    let poisoned := l.any fun x => m.s.poisonIn x.key 64
    let flags := new.foldl (fun f y => f ||| y.2.1) noFlags
    let count (d : ElemCtx) : ElemCtx := { d with kvrs := sat32 (d.kvrs.toNat + (new.filter fun y => y.2.2).length) }
    if l.any fun x => !x.typed then .error (.fault j 4 7)
    else if l.any fun x => !x.inside then .ok (m.ask j q)
    else if k ≠ 99 then .error (.fault j 4 k)
    else if poisoned then .error (.fault j 8 3)
    else if flags &&& a.trap ≠ 0 then .error (.fault j 5 (lowestFlag (flags &&& a.trap)))
    else if m.appendLater u a j q l then .ok (m.ask j q)
    else if m.s.net.reqs.any fun r => r.unit = u && !r.kind.isLoad && m.s.meets r q then .error .wait
    else
      let t := (l.zip new).foldl (fun s x => s.putCourse x.1.key x.2.1) m.s
      .ok { m with s := t.modCtx a.ctx fun z => z.modElem u count, flags := m.flags ||| flags }

/-- The effects that ask something of memory, at commit. -/
def Moment.memEffect (m : Moment) (u : UnitId) (a : Act) (chain : Bool) (j : Nat) (e : Effect) : Moment :=
  let x := m.s.ctx a.ctx
  let q (space addr : Nat) (k : ReqKind) : Req := a.request x u j space addr k
  match e with
  | .landing addr c bytes => ({ m with s := m.s.indexLanding a c } : Moment).ask j (q 0 addr (.store (.area bytes)))
  | .atomic port fn ty space addr b w course =>
    let out := port.map fun p => (⟨p, a.emitTag, a.emitStamp, if chain then some m.s.sched.moves else none, ⟨[], []⟩⟩ : AtomicOut)
    let out' := if a.w.silent && !chain then none else out
    m.ask j (q space addr (.atomic fn ty b w course out'))
  | .kvlen addr layer n p => m.ask j (q 0 addr (.kvlen layer n p))
  | .release _ addr => m.ask j (q 0 addr .release)
  | .genLoad ty g first space addrs counts =>
    let empty := m.s.modCtx a.ctx fun y => y.modRing g fun r => (span first addrs.length).foldl (fun t n => t.put n none) r
    ({ m with s := empty } : Moment).stream u a j g space addrs counts fun i => .genLoad ty g (first + i)
  | .genStore ty g first space addrs counts => m.stream u a j g space addrs counts fun i => .genStore ty g (first + i)
  | _ => m

/-! ### Contexts, registers and the system (04 R73 to R76; 20 R358 to R363; 22 R376, R379) -/

/-- The context that was last saved from a slot and is in no slot now. -/
def State.awayFrom (s : State) (c : Nat) : Option Save :=
  (s.net.saves.filter fun v => v.slot = c && !(s.ctxs.any fun x => x.status ≠ .absent && x.stream = v.ctx.stream)).getLast?

/-- A demand posted by DMD, or held while its context is being evicted and while it is away (04 R76; 11 R233); held, that it was found
evicting when DMD fired; it goes with that context also while it is being resumed. -/
def State.postDemand (s : State) (c k : Nat) (v : Ival) (held : Bool) : State :=
  let hold (x : Ctx) : Ctx := { x with held := x.held ++ [(k, v)] }
  match (s.ctx c).status, s.awayFrom c with
  | .evicting, _ => s.modCtx c hold
  | .resident, none => s.modCtx c fun x => x.post k v
  | .resident, some w => if held then s.modHome c w.ctx.stream hold else s.modCtx c fun x => x.post k v
  | .loading, none => if held then s.modCtx c hold else s
  | _, some w => s.modHome c w.ctx.stream hold
  | _, none => s

/-- A context becomes eligible: the demands of its image, and those held while it was away, are posted (04 R73, R76). -/
def State.becomeResident (s : State) (c : Nat) : State :=
  if (s.ctx c).status ≠ .loading then s
  else
    let x := s.ctx c
    let s1 := s.countStalls.modCtx c fun y => { y with status := .resident, held := [] }
    (x.image.demands ++ x.held).foldl (fun t d => t.postDemand c d.1 d.2 false) s1

/-- MIGR at commit: the leaf as it stands becomes moving (20 R360). -/
def State.beginMove (s : State) (u : UnitId) (asid : BitVec 16) (va : Nat) (leaf : Word) : State :=
  match walk s asid va with
  | .error _ => s
  | .ok w =>
    if pteMoving w.page.leaf || decide (8 ≤ s.net.migs.length) then s
    else
      let old := w.page.leaf ||| 16#64
      let g : Migration := ⟨s.net.nextTlbi, asid, w.page.va, w.page.size, old, leaf, w.pte, unitDie u, 0⟩
      ({ s with net := { s.net with migs := s.net.migs ++ [g], nextTlbi := s.net.nextTlbi + 1 } } : State).writeAt
        (hbmKey w.pte) (natBytes old.toNat 8)

/-- THRT at commit. -/
def State.throttle (s : State) (hall : Nat) (all : Bool) (k : Nat) : State :=
  if all then { s with fab := { s.fab with halls := s.fab.halls.map fun h => { h with ksw := k } } }
  else s.modHall hall fun h => { h with ksw := k }

/-- BALL at commit: its groups run for 1 us (22 R379). -/
def State.burst (s : State) (u : UnitId) (h : Nat) : State :=
  if h = 0 then s
  else s.modSet (unitBay u) fun m => { m with bursts := m.bursts ++ [(h, s.clock.ns + 1000)] }

/-- IRET at commit: the successor saved last resumes (20 R362). -/
def State.iret (s : State) (die : Nat) : State :=
  match ((s.newels.getD die Newel.reset).saved).getLast? with
  | none => s
  | some v =>
    let s1 := s.modNewel die fun n => { n with saved := n.saved.dropLast }
    match v with
    | none => s1
    | some w => s1.modCtx (tagCtx w.tag) fun x => x.withWaiting { w with since := s.sched.moves }

/-- The effects on the unit's context, the system and the fabric, at commit. -/
def State.sysEffect (s : State) (u : UnitId) (a : Act) (e : Effect) : State :=
  let c := a.ctx
  let bay := unitBay u
  let x := s.ctx c
  match e with
  | .ffree n tag => s.ffree c n tag
  | .tagr it => s.modCtx c fun y => { y with live := y.live.filter fun l => !(l.tagn && l.iter = it) }
  | .demand d k iv held => s.postDemand d k iv held
  | .ddone port iv =>
    if iv.hi < iv.lo then s
    else s.modCtx c fun y =>
      let z := (y.outEdges (a.op x) port).foldl (fun z i => z.skipTimes (x.copyOn (a.op x) a.w.unit) i iv) y
      { z with ops := modAt z.ops (a.op x) fun st => st.delivered iv }
  | .mpln p => s.modCtx c fun y => { y with mpln := BitVec.ofNat 4 p }
  | .mcut tag all => s.cutTasks c bay tag all
  | .bari bar arr bytes => s.expect c bay bar arr bytes
  | .tclr mask => s.modCtx c fun y => y.putTags ((y.copyTags bay).clear mask)
  | .spacc i _ _ | .spfl i => s.modCtx c fun y => y.modElem u fun d =>
      { d with spas := (d.spas.filter fun p => p.id ≠ i) ++ [(d.spa i).apply e] }
  | .phase onset intensity len => if isElement u then s.openWindow c (hallOfBay bay) onset intensity len else s
  | .phend => if isElement u then s.modCtx c fun y => { y with windows := y.windows.filter fun w => w.hall ≠ hallOfBay bay } else s
  | .ballast h => s.burst u h
  | .cwr reg d v => (if 0x41 ≤ reg && decide (reg ≤ 0x48) then s.countStalls else s).writeReg u c d reg v
  | .prio d level => s.setPrio d level
  | .loaded d => s.becomeResident d
  | .evict d area =>
    if (s.ctx d).status = .resident then s.modCtx d fun y => { y with status := .evicting, area := some ⟨area, unitDie u, x.asid, false⟩ } else s
  | .retryPort target cancel => s.retryPort target cancel
  | .retryFrame d blk tag target cancel => s.retryFrame d blk tag target cancel
  | .signal die n payload => s.raiseBy (some u) die n (zextTo 512 payload)
  | .migrate asid va leaf _ => s.beginMove u (BitVec.ofNat 16 asid) va leaf
  | .throttle hall all k => s.throttle hall all k
  | .iret => s.iret (unitDie u)
  | _ => s

/-- One effect of a commit, in record order. -/
def Moment.effect (m : Moment) (u : UnitId) (a : Act) (chain : Bool) (x : Nat × Effect) : Except Hold Moment :=
  let lift (y : Except Hold State) : Except Hold Moment :=
    match y with
    | .ok s => m.go s
    | .error h => .error h
  match x.2 with
  | .falloc n tag => lift (m.s.falloc a n tag)
  | .fsts n port tag v comb => lift (m.s.fsts a n port tag v comb)
  | .mldb w b => lift (m.s.bindWeight u a w b)
  | .mtask cap tagged d => lift (m.s.addTask u a x.1 cap tagged d)
  | .macc _ _ _ _ | .meor _ _ _ _ | .mspl _ _ _ | .mrst _ _ _ | .mzro _ _ _ _ => m.nodeEffect u a x.1 x.2
  | .kvapp addr n pos v => m.append u a x.1 addr n pos v
  | .landing _ _ _ | .release _ _ | .atomic _ _ _ _ _ _ _ _ | .kvlen _ _ _ _ | .genLoad _ _ _ _ _ _ | .genStore _ _ _ _ _ _ =>
    .ok (m.memEffect u a chain x.1 x.2)
  | _ => m.go (m.s.sysEffect u a x.2)

/-- All the effects of a commit, up to the first that holds it. -/
def Moment.effects (m : Moment) (u : UnitId) (a : Act) (chain : Bool) : Except Hold Moment :=
  (sortBy (fun e => e.1) a.effects).foldlM (fun y e => y.effect u a chain e) m

/-! ### The stores and their order (05 R99; 11 R243, R249; 17 R310) -/

/-- The group bound to a scope level of a graph for an activation (05 R99): level 4 by the object that the node names; FENCE names none and
takes the widest of its table's objects (log 137). -/
def Scopes.group (x : Scopes) (op scope : Nat) (obj : Option Nat) : Group :=
  match scope with
  | 0 => .element
  | 1 => x.ops.getD op x.graph
  | 2 => (x.ops.getD op x.graph).wider x.graph
  | 3 => x.trap
  | 4 => (match obj with
    | some k => getKey x.objs k x.trap
    | none => x.objs.foldl (fun g y => g.wider y.2) x.trap)
  | _ => .system

/-- The point of coherence of a group is where an access leaves its port: the element's port, the bay's pool (05 R99; log 137). -/
def Group.near (g : Group) : Bool :=
  match g with
  | .element | .bay _ => true
  | _ => false

/-- What follows requests once they have reached the point of coherence of a group. -/
def Group.after (g : Group) (ids : List Nat) : After := if g.near then ⟨[], ids⟩ else ⟨ids, []⟩

/-- What follows both. -/
def After.and (x y : After) : After := ⟨x.home ++ y.home, x.port ++ y.port⟩

/-- The records of the FENCEs of an activation with the groups to whose points of coherence they order. At scope 4 or 5 two stores reach their
home slices in order, whatever the group (18 R326). -/
def Act.fences (a : Act) (x : Ctx) : List (Nat × Group) :=
  a.effects.filterMap fun e => match e.2 with
    | .fence sc =>
      let g := x.scopes.group (a.op x) sc none
      some (e.1, if 4 ≤ sc && g.near then .package else g)
    | _ => none

/-- Requests of one record that are performed one after the other. -/
def ReqKind.inOrder (k : ReqKind) : Bool :=
  match k with
  | .genLoad _ _ _ | .genStore _ _ _ => true
  | _ => false

/-- The ids of the requests of records that meet a test. -/
def idsWhere (done : List (Nat × Req)) (p : Nat → Bool) : List Nat := (done.filter fun x => p x.1).map (·.2.id)

/-- What follows the stores below the FENCEs that meet a test (11 R249). -/
def fencedBy (fences : List (Nat × Group)) (done : List (Nat × Req)) (p : Nat → Bool) : After :=
  (fences.filter fun f => p f.1).foldl (fun x f => x.and (f.2.after (idsWhere done fun j => decide (j < f.1)))) ⟨[], []⟩

/-- The requests of a commit released in record order, a Newel's one after the other (02 R39); done holds those released, by record. -/
def State.releaseReqs (s : State) (newel : Bool) (fences : List (Nat × Group)) (done : List (Nat × Req)) (l : List (Nat × Req)) :
    State × List (Nat × Req) :=
  match l with
  | [] => (s, done)
  | (j, q) :: t =>
    let before := done.filter fun p => newel || (p.2.port ≠ q.port && s.meets p.2 q) || (p.1 = j && q.kind.inOrder)
    let q1 := { q with id := s.net.nextReq, after := (fencedBy fences done fun f => decide (f < j)).and ⟨before.map (·.2.id), []⟩ }
    (s.addReq q1).releaseReqs newel fences (done ++ [(j, q1)]) t

/-- What the tokens and ring entries of a commit wait for: the stores below a FENCE (11 R249). -/
def heldBy (fences : List (Nat × Group)) (done : List (Nat × Req)) : After := fencedBy fences done fun _ => true

/-- A request stores to a region that a context binds to an object (11 R250). -/
def Ctx.binds (x : Ctx) (obj : Nat) (q : Req) : Bool :=
  !q.kind.isLoad && q.kind ≠ .release && spaceClass q.space = 0 &&
  x.image.regions.any fun g => g.obj = obj && q.spans.any fun y => rangesMeet y (g.base, g.len)

/-- The place of a request of a commit in its record order: on a Newel, whose accesses keep that order, a release comes after the stores of its
own activation that it covers (02 R39; 11 R250; log 157). -/
def orderKey (newel : Bool) (x : Ctx) (l : List (Nat × Req)) (y : Nat × Req) : Nat :=
  if newel && y.2.kind = .release then (l.filter fun z => x.binds y.2.addr z.2).foldl (fun k z => max k (2 * z.1 + 1)) (2 * y.1) else 2 * y.1

/-- The stores of a unit, of whatever context, to regions bound to an object under an ASID that are still to be performed (11 R250; 17
R307). -/
def State.boundStores (s : State) (u : UnitId) (c obj : Nat) : List Nat :=
  let own := s.ctx c
  (s.net.reqs.filter fun q => q.unit = u && q.asid = own.asid && (own.binds obj q || (s.homeCtx q.ctx q.load_).binds obj q)).map (·.id)

/-- What the requests of a commit, released, wait for beyond their record order: a release for the stores that it covers, but for its own
activation's higher ones to its own word (11 R250; 17 R311); the token of an atomic for what the commit's tokens wait for (11 R249). -/
def State.orderCommit (s : State) (u : UnitId) (a : Act) (held : After) (done : List (Nat × Req)) : State :=
  let x := s.ctx a.ctx
  done.foldl
    (fun t y => match y.2.kind, a.effects.find? fun e => e.1 = y.1 with
      | .release, some (_, .release scope obj) =>
        let ids := (t.boundStores u a.ctx obj).filter fun i => !(done.any fun z => z.2.id = i && decide (y.1 < z.1) && t.meets z.2 y.2)
        t.modReq y.2.id fun q => { q with after := q.after.and ((x.scopes.group (a.op x) scope (some obj)).after ids) }
      | .atomic fn ty b e c (some o), _ => t.modReq y.2.id fun q => { q with kind := .atomic fn ty b e c (some { o with after := held }) }
      | _, _ => t) s

/-- The tasks that a commit entered wait for the stores to their scratchpad that are still to be performed (13 R282). -/
def State.taskOrder (s : State) (c bay first : Nat) : State :=
  let ids := (s.net.reqs.filter fun q => q.ctx = c && q.space = 1 && !q.kind.isLoad && unitBay q.unit = bay).map (·.id)
  s.modCtx c fun x => { x with tasks := x.tasks.map fun t => if first ≤ t.seq && t.bay = bay then { t with after := ids } else t }

/-- The effects of a commit that follow its stores. -/
def State.afterEffect (s : State) (u : UnitId) (a : Act) (done : List (Nat × Req)) (x : Nat × Effect) : State :=
  let c := a.ctx
  let bay := unitBay u
  match x.2 with
  | .engine k src dst tag bar cnt =>
    let o : EngineOp := ⟨s.net.nextEng, c, (s.ctx c).stream, bay, u, a.w.tag, a.w.stamp, a.w.ptr, k, src, dst, tag, bar, cnt,
      done.map (·.2.id), false, noFlags, 0, [], [], [], 0, [], [], []⟩
    let s1 : State := { s with net := { s.net with engines := s.net.engines ++ [o], nextEng := s.net.nextEng + 1 } }
    s1.modCtx c fun y => y.putTags ((y.copyTags bay).raise tag)
  | .barv b bar bytes => s.later c b bar 1 bytes (done.map (·.2.id))
  | .mspl _ bar _ =>
    let mine := done.filter fun y => y.1 = x.1
    s.later c bay bar 0 (sumNat (mine.map fun y => y.2.kind.size)) (mine.map (·.2.id))
  | .tlbi page count asid all =>
    let t : Tlbi := ⟨s.net.nextTlbi, s.clock.steps, page, count, BitVec.ofNat 16 asid, all, idsWhere done fun j => decide (j < x.1), false, []⟩
    { s with net := { s.net with tlbis := s.net.tlbis ++ [t], nextTlbi := s.net.nextTlbi + 1 } }
  | _ => s

/-! ### Tokens, rings and successors (02 R30, R35; 04 R87, R92; 07 R139) -/

/-- The output ports of the fired exit with what was written there. -/
def Act.masked (a : Act) (exit : Nat) : List OutWrite :=
  (List.range a.blk.outputs).filterMap fun k => if bit (a.blk.mask exit) k then a.outs.find? fun o => o.port = k else none

/-- The tokens of a commit put onto the edges of their ports. -/
def Ctx.emitTokens (x : Ctx) (a : Act) (exit : Nat) (after : After) : Ctx :=
  let k := x.copyOn (a.op x) a.w.unit
  (a.masked exit).foldl
    (fun y o => match o.val with
      | none => y
      | some v =>
        let birth := (o.tag.map (x.birthFor a)).getD a.w.birth
        let t : Token := ⟨v, o.tag.getD a.emitTag, a.emitStamp, birth, o.comb, after⟩
        (y.outEdges (a.op x) o.port).foldl (fun z i => z.putToken k i t) y) x

/-- The intervals of an rtf block's ports asked of the operator's inputs, by the copy that holds the interval it was fired for (04 R84; 07
R138). -/
def Ctx.emitIvals (x : Ctx) (a : Act) (exit : Nat) : Ctx :=
  let ins := x.inputsOf (a.op x)
  let k := match a.w.kind with
    | .rtf v => x.holder (a.op x) v.lo
    | _ => none
  (a.masked exit).foldl
    (fun y o => match o.val, ins[o.port]? with
      | some v, some e => y.askInput (a.op x) k (pairIval v.pair) e
      | _, _ => y) x

/-- The successor of a commit, with the inputs that its ports delivered (02 R35). -/
def Act.successor (a : Act) (u : UnitId) (exit : Nat) (next : BlockPtr) (stack : List BlockPtr) (after : After) (now : Nat) :
    Waiting :=
  let kind := match a.w.kind with
    | .handler n _ => WaitKind.handler n false
    | .rtf v => WaitKind.rtf v
    | _ => WaitKind.chained
  let slots := (a.masked exit).map fun o => (⟨o.val, none, noFlags⟩ : Slot)
  { Waiting.fresh kind next u a.emitTag a.emitStamp a.w.birth slots now with
    link := stack, after := after, restore := false, origin := false }

/-- The register of a ring after a commit that moved its write cursor by n, writing entries: on a ring without tiles the times of the emitted
stamp, once; on one with, those of the tile whose last course is among the entries (04 R85; log 107). -/
def Ring.delivered (g : Ring) (n : Nat) (st : Int) (ws : List RingWrite) : DReg :=
  if n = 0 then g.dreg
  else if g.tile ≤ 1 then g.dreg.mark ⟨st, st⟩
  else (ws.filter fun w => w.q = g.q && decide (w.n < g.wr + n)).foldl (fun r w => r.token g.tile w.v st) g.dreg

/-- The rings of a context after the moves and entries of a commit. -/
def State.moveRings (s : State) (a : Act) (after : After) : State :=
  let ws := sortBy (fun (w : RingWrite) => w.j) a.rwrites
  let s1 := s.modCtx a.ctx fun x =>
    { x with rings := x.rings.map fun g =>
        let n := a.advance g.q false
        { g with rd := g.rd + a.advance g.q true, wr := g.wr + n, dreg := g.delivered n a.emitStamp.toInt ws } }
  let put (t : State) (w : RingWrite) : State :=
    if after = ⟨[], []⟩ then t.modCtx a.ctx fun x => x.modRing w.q fun g => g.put w.n (some w.v)
    else
      let h : RingHold := ⟨after, a.ctx, (t.ctx a.ctx).stream, w.q, w.n, w.v⟩
      { t with net := { t.net with ringHeld := t.net.ringHeld ++ [h] } }.modCtx a.ctx fun x => x.modRing w.q fun g => g.put w.n none
  (ws.foldl put s1).freeRings a.ctx

/-- What a committed activation was waiting as is over: a source's time, an unbounded operator's time and state (04 R89, R92; 07
R131). -/
def State.firedOver (s : State) (a : Act) (exit : Nat) (last : Bool) : State :=
  let x := s.ctx a.ctx
  let o := a.op x
  let t := a.w.stamp.toInt
  let s1 := match a.w.kind with
    | .source => s.modCtx a.ctx fun y => ({ y with ops := modAt y.ops o fun st => st.issueDrop t } : Ctx).tagIdle (tagIter a.w.tag)
    | _ => s
  let outs := if last then (a.masked exit).filterMap fun w => w.val.map fun v => (w.port, v) else []
  let tiles := x.tilesEnded o a.w.operands outs t a.emitStamp.toInt
  if !((a.opDesc x).unbounded) then s1
  else if last then
    s1.modCtx a.ctx fun y =>
      let z := y.timeOver o t tiles
      { z with ops := modAt z.ops o fun st =>
          { st with stime := tiles.foldl (fun m v => max m (v.hi + 1)) (max st.stime (t + 1)), valid := true } }
  else s1.modCtx a.ctx fun y => { y with ops := modAt y.ops o fun st => st.timesOver tiles }

/-- The tokens that waited beside a frame are offered again (02 R405). -/
def State.offerBeside (s : State) (a : Act) : State :=
  match (s.ctx a.ctx).blockAt a.w.ptr with
  | none => s
  | some b => a.w.beside.foldl (fun t x => t.offer a.ctx a.w.unit b x.1 x.2.1) s

/-- What an element keeps for its context after a commit: the generator as the draws left it, unless CX.SEED has been written since the
activation began, seeds being how often it has been (03 R58, R60; 09 R169). -/
def ElemCtx.commit (e : ElemCtx) (a : Act) (late : BitVec 6) (seeds : Nat) : ElemCtx :=
  { e with flags := addFlags e.flags (a.flags ||| late) a.recon, rng := if seeds = a.seeded then a.rng else e.rng }

/-- The commit moment: everything is released (02 R21; 24 R403). -/
def State.commitAs (s : State) (u : UnitId) (a : Act) (first exit : Nat) (next : BlockPtr) (stack : List BlockPtr) (m : Moment) : State :=
  let c := a.ctx
  let x := s.ctx c
  let stores := a.stores.map fun b => (b.j, a.request x u b.j b.space b.addr (.store b.data))
  let fences := a.fences x
  let asks := stores ++ m.reqs
  let r := m.s.releaseReqs (isNewel u) fences [] (sortBy (orderKey (isNewel u) x asks) asks)
  let held := heldBy fences r.2
  let s1 := ((sortBy (fun e => e.1) a.effects).foldl (fun t e => t.afterEffect u a r.2 e) (r.1.orderCommit u a held r.2)).taskOrder c
    (unitBay u) first
  let s2 := (s1.modCtx c fun y => y.modElem u fun e => e.commit a m.flags y.seeds).moveRings a held
  let s3 := ((s2.putCell u ((s2.cell u).endAhead c next)).freeUnit u).firedOver a exit (next = 0)
  let s4 :=
    if next ≠ 0 then
      let y := s3.cell u
      (s3.modCtx c fun z => z.withWaiting (a.successor u exit next stack held s.sched.moves)).putCell u
        { y with predict := setKey y.predict (c, a.w.ptr, exit) next }
    else match a.w.kind with
      | .rtf _ => s3.modCtx c fun z => z.emitIvals a exit
      | _ => if a.w.silent then s3 else s3.modCtx c fun z => z.emitTokens a exit held
  ((s4.offerBeside a).retireTags c).noteDrain s c

/-- The commit stage of the activation that a unit executes: its waits and checks, then its commit (24 R403). -/
def State.commit (s : State) (u : UnitId) : State :=
  match s.act u with
  | none => s
  | some a =>
    match a.stage with
    | .running => s
    | .committing exit next stack told =>
      if a.recs.any fun r => r.st.busy then s
      else match (⟨s, [], noFlags⟩ : Moment).effects u a (next ≠ 0) with
        | .ok m => s.commitAs u a s.net.nextTask exit next stack m
        | .error .wait => s
        | .error (.full v) =>
          if told then s else (s.putAct u { a with stage := .committing exit next stack true }).overflowFull a.ctx v
        | .error (.fault j cls code) => s.takeFault u a j cls code 0 0
        | .error (.read j space addr n) =>
          (s.addReq (a.request (s.ctx a.ctx) u j space addr (.load n false))).putAct u (a.setSt j (.issued s.net.nextReq))

/-- ACTIVATION_END (02 R34). -/
def execActivationEnd (s : State) : Result State := .next (s.endAct s.sched.subject.u)
/-- COMMIT_MOMENT (24 R403). -/
def execCommitMoment (s : State) : Result State := .next (s.commit s.sched.subject.u)

end Sys2Proof.Machine
end

