-- ==== Sys2Proof/Machine/Flow.lean ====
section
/-! DEFINITION. The meanings of group 0x0: flow (08 R144 to R151). -/
namespace Sys2Proof.Machine

/-- A value form delivers A at the record's shape (08 R144). -/
def passForm (_ : State) (a : Act) (v : View) : Fired := give a noFlags (v.a.at v.r.sh)

/-- An exit fires (08 R144). -/
def exitForm (f : View → Nat) (_ : State) (a : Act) (v : View) : Fired :=
  .done { a with exits := a.exits ++ [f v] } noFlags none none

/-- GATE (08 R144). -/
def gateForm (_ : State) (a : Act) (v : View) : Fired :=
  if v.b.truth = decide (v.r.fn = 0) then give a noFlags (v.a.at v.r.sh) else .done a noFlags none none

/-- STEER (08 R144). -/
def steerForm (_ : State) (a : Act) (v : View) : Fired :=
  let x := some (v.a.at v.r.sh)
  if v.b.truth then .done a noFlags x none else .done a noFlags none x

/-- What LIT delivers (08 R147). -/
def litDelivered (ty : Ty) (lit : BitVec 32) : Word :=
  let w := min 32 ty.width
  let m := lit.toNat % 2 ^ w
  if ty.signed && decide (2 ^ (w - 1) ≤ m) then BitVec.ofInt 64 ((m : Int) - 2 ^ w) else BitVec.ofNat 64 m

/-- The field of the tag that TGET delivers (08 R147). -/
def tagField (a : Act) (f : Nat) : Nat :=
  match f with
  | 0 => (tagIter a.w.tag).toNat
  | 1 => (slice a.w.tag 16 18).toNat
  | 2 => tagCtx a.w.tag
  | _ => a.w.birth.toNat

/-- TSET (08 R148). -/
def tsetForm (_ : State) (a : Act) (v : View) : Fired :=
  let t : TagWord := slice a.w.tag 34 2 ++ slice v.b.word 0 34
  give (a.effect v.j (.tset t)) noFlags (Val.ofWord v.a.word)

/-- CALLB (08 R149): the checks of A, in the order the rule lists them. -/
def callbForm (_ : State) (a : Act) (v : View) : Fired :=
  let p := v.a.pair
  let x := capCursor p
  if !v.a.tagged then .fault 2 1 0 x
  else if capOtype p ≠ 0 then .fault 2 2 0 x
  else if capSpace p ≠ 0 then .fault 2 9 0 x
  else if !(capHasPerm p permFetch) then .fault 2 5 0 x
  else if x % 64 ≠ 0 then .fault 2 10 0 x
  else if x < capBase p || capTop p < x + 12 then .fault 2 8 0 x
  else .done { a with redirs := a.redirs ++ [some (BitVec.ofNat 66 (x / 64))] } noFlags none none

/-- NOP (08 R144). -/
def execNop (r : Rec) (s : State) : Result State := fire .nop r s fun _ a _ => .done a noFlags none none
/-- EXIT (08 R144, R145). -/
def execExitOp (r : Rec) (s : State) : Result State := fire .exitOp r s (exitForm fun v => (slice v.r.lit 0 3).toNat)
/-- EXITP (08 R144). -/
def execExitp (r : Rec) (s : State) : Result State :=
  fire .exitp r s (exitForm fun v => if v.b.truth then (slice v.r.lit 0 3).toNat else (slice v.r.lit 3 3).toNat)
/-- EXITX (08 R144, R145). -/
def execExitx (r : Rec) (s : State) : Result State := fire .exitx r s (exitForm fun v => v.a.word.toNat)
/-- PASS (08 R144). -/
def execPass (r : Rec) (s : State) : Result State := fire .pass r s passForm
/-- GATE (08 R144). -/
def execGate (r : Rec) (s : State) : Result State := fire .gate r s gateForm
/-- STEER (08 R144). -/
def execSteer (r : Rec) (s : State) : Result State := fire .steer r s steerForm
/-- MERGE (08 R146): the gate has chosen the token. -/
def execMergeOp (r : Rec) (s : State) : Result State := fire .mergeOp r s passForm
/-- LIT (08 R147). -/
def execLitOp (r : Rec) (s : State) : Result State :=
  fire .litOp r s fun _ a v => give a noFlags (Val.ofWord (litDelivered v.r.ty v.r.lit))
/-- TGET (08 R147). -/
def execTget (r : Rec) (s : State) : Result State :=
  fire .tget r s fun _ a v => give a noFlags (Val.ofNat (tagField a (slice v.r.lit 0 2).toNat))
/-- TSET (08 R148). -/
def execTset (r : Rec) (s : State) : Result State := fire .tset r s tsetForm
/-- CALLB (08 R149). -/
def execCallb (r : Rec) (s : State) : Result State := fire .callb r s callbForm
/-- RETB (08 R149). -/
def execRetb (r : Rec) (s : State) : Result State :=
  fire .retb r s fun _ a _ => .done { a with redirs := a.redirs ++ [none] } noFlags none none
/-- TRAP (08 R151). -/
def execTrap (r : Rec) (s : State) : Result State := fire .trap r s fun _ _ v => .fault 9 (slice v.r.lit 0 16).toNat 0 0
/-- BRK (08 R151). -/
def execBrk (r : Rec) (s : State) : Result State := fire .brk r s fun _ _ v => .fault 10 (slice v.r.lit 0 16).toNat 0 0

end Sys2Proof.Machine
end

