-- ==== Sys2Proof/Machine/Haar.lean ====
section
/-! DEFINITION. The meanings of group 0x7: the Haar forms (09 R193 to R200). -/
namespace Sys2Proof.Machine

/-- A binary32 lane with the flags raised so far. -/
abbrev Lane := Nat × BitVec 6

/-- The halved sum or difference of two lanes, rounded once and flushed (03 R62). -/
def haarHalf (sub : Bool) (x y : Lane) : Lane :=
  let b := readFmt f32 y.1
  let s := addNum 0 (readFmt f32 x.1) (if sub then b.negate else b)
  let z := laneFmt f32 (s.1.scaleBy (-1))
  (z.1, x.2 ||| y.2 ||| s.2 ||| z.2)

/-- One forward level over the approximations of one lane: the next approximations and their details (03 R62). -/
def haarDown (l : List Lane) : List Lane × List Lane :=
  match l with
  | x :: y :: t =>
    let z := haarDown t
    (haarHalf false x y :: z.1, haarHalf true x y :: z.2)
  | _ => ([], [])

/-- n forward levels: the coefficients in tree order, details already there standing after (09 R194). -/
def haarFwd (n : Nat) (a : List Lane) (details : List Lane) : List Lane :=
  match n with
  | 0 => a ++ details
  | k + 1 =>
    let z := haarDown a
    haarFwd k z.1 (z.2 ++ details)

/-- One inverse level of one lane (03 R63). -/
def haarUp (a d : List Lane) : List Lane :=
  match a, d with
  | x :: t, y :: u => haarAdd false x y :: haarAdd true x y :: haarUp t u
  | _, _ => []

/-- n inverse levels from a approximations (09 R195): the details not yet used stand after. -/
def haarInv (n : Nat) (a : List Lane) (details : List Lane) : List Lane :=
  match n with
  | 0 => a ++ details
  | k + 1 => haarInv k (haarUp a (details.take a.length)) (details.drop a.length)

/-- The lanes of a tile: for lane i, the entries in tree order, decoded and flushed. -/
def tileLanes (ty : Ty) (tile : List Course) (i : Nat) : List Lane := tile.map fun c => laneBits ty c i

/-- |v| < THR of a binary32 threshold that is positive (09 R194, R196). -/
def belowThr (thr : BitVec 32) (v : FNum) : Bool :=
  let t := readFmt f32 thr.toNat
  !t.isNan && !v.isNan && ltNum FNum.zero t && ltNum v.absolute t

/-- The level of a ring tile of 2^n courses that a Haar form reads, or the code it stops on (09 R193, R194): whether k = j is asked
at level 0 too. -/
def haarTile (ty : Ty) (n : Nat) (strict : Bool) (tile : List Course) : Except Nat Nat :=
  let l0 := crsL (tile.headD 0)
  let k := tileCode ty l0 (strict || decide (0 < l0)) tile
  if k ≠ 99 then .error k else if n < l0 then .error 6 else .ok l0

/-- A tile given by its lanes written in tree order at a level, with a Q bit (09 R194, R195). -/
def writeTile (ty : Ty) (l t : Nat) (q : Bool) (lanes : List (List Lane)) : List (Course × BitVec 6) :=
  (List.range t).map fun j =>
    let xs := lanes.map fun x => x.getD j (0, noFlags)
    let y := narrowCourse ty (tailOf l j q) (xs.map (·.1))
    (y.1, orFlags xs ||| y.2)

/-- HFWD and HINV share their reading and writing (09 R194, R195): f turns the lanes of level l0 into those of level L. inverse says that it
is HINV: equal levels copy the courses, and its results carry the OR of the Q bits of its tile (R179), where R194 states Q = 0 for
HFWD. -/
def haarForm (okLevel : Nat → Nat → Bool) (inverse : Bool) (f : Act → Rec → Nat → Nat → List Lane → List Lane) (s : State) (a : Act)
    (v : View) : Fired :=
  let (q, off, dq, doff) := ringMove v.r
  let l := (slice v.r.lit 9 3).toNat
  let n := (slice v.r.lit 12 3).toNat
  let t := 2 ^ n
  match ringEntries (s.ctx v.c) a v.j q off t with
  | .error y => ringStop y q
  | .ok tile =>
    match haarTile v.r.ty n false tile with
    | .error k => .fault 4 k 0 0
    | .ok l0 =>
      if !(okLevel l0 l) then .fault 4 6 0 0
      else if inverse && l0 = l then ringWrites s a v dq doff noFlags t tile
      else
        let lanes := (List.range v.r.ty.count).map fun i => f a v.r l0 l (tileLanes v.r.ty tile i)
        let out := writeTile v.r.ty l t (inverse && tile.any crsQ) lanes
        ringWrites s a v dq doff (out.foldl (fun x y => x ||| y.2) noFlags) t (out.map (·.1))

/-- The forward lanes of one lane, detail lanes below the threshold set to +0 where th is set (09 R194). -/
def fwdLanes (a : Act) (r : Rec) (l0 l : Nat) (xs : List Lane) : List Lane :=
  let na := xs.length / 2 ^ l0
  let ys := haarFwd (l - l0) (xs.take na) (xs.drop na)
  let base := xs.length / 2 ^ l
  if bit r.lit 15 && 0 < l then
    ys.zipIdx.map fun y => if base ≤ y.2 && belowThr a.thr (readFmt f32 y.1.1) then (0, y.1.2) else y.1
  else ys

/-- The inverse lanes of one lane (09 R195). -/
def invLanes (_ : Act) (_ : Rec) (l0 l : Nat) (xs : List Lane) : List Lane :=
  let na := xs.length / 2 ^ l0
  haarInv (l0 - l) (xs.take na) (xs.drop na)

/-- An approximation course of a tile of 2^n times (09 R193). -/
def isApprox (n : Nat) (c : Course) : Bool := crsL c = 0 || crsK c < 2 ^ n / 2 ^ crsL c

/-- A course that fits no tile of 2^n times (09 R193). -/
def tileBad (n : Nat) (c : Course) : Bool := decide (n < crsL c) || decide (2 ^ n ≤ crsK c)

/-- HTHR (09 R196). -/
def hthrForm (_ : State) (x : Act) (v : View) : Fired :=
  let n := (slice v.r.lit 0 3).toNat
  courseAnswer x <| do
    let a ← opA v
    if tileBad n a.raw then throw 6
    if isApprox n a.raw then return ⟨v.a.bits, noFlags, 0⟩
    else
      let ls := (lanesRaw v.r.ty a.raw).zip a.nums
      let out := ls.map fun y => if belowThr x.thr y.2 then 0 else y.1
      return ⟨mkCourse (crsFmt a.raw) (crsScale a.raw) (tailOf a.l a.k a.q) v.r.ty.width out, noFlags, 0⟩

/-- HREC (09 R197): the conditions of R181 hold at level 0 too (R193). The result of a reconstruction carries the OR of the Q bits
of its tile (R179). -/
def hrecForm (s : State) (x : Act) (v : View) : Fired :=
  let q := (slice v.r.ax 0 4).toNat
  let off := (slice v.r.ax 8 5).toNat
  let tau := (slice v.r.lit 0 7).toNat
  let n := (slice v.r.lit 8 3).toNat
  match ringEntries (s.ctx v.c) x v.j q off (2 ^ n) with
  | .error y => ringStop y q
  | .ok tile =>
    match haarTile v.r.ty n true tile with
    | .error k => .fault 4 k 0 0
    | .ok 0 =>
      let c := tile.getD tau 0
      give x noFlags (Val.ofCourse (slice c 509 3 ++ BitVec.ofNat 7 tau ++ slice c 0 502))
    | .ok l0 =>
      let ls := recTile v.r.ty tile l0 tau
      let y := narrowCourse v.r.ty (tailOf 0 tau (tile.any crsQ)) (ls.map (·.1))
      give { x with recon := x.recon + 1 } (tileFlags v.r.ty tile ||| orFlags ls ||| y.2) (Val.ofCourse y.1)

/-- HGET (09 R199). -/
def hgetForm (_ : State) (a : Act) (v : View) : Fired :=
  let c := v.a.bits
  give a noFlags (Val.ofNat (crsFmt c + 2 ^ 8 * crsScale c + 2 ^ 16 * (crsTail c).toNat))

/-- HTAG (09 R199). -/
def htagForm (_ : State) (x : Act) (v : View) : Fired :=
  courseAnswer x <| do
    let a ← opA v
    let b := v.b.word
    if slice b 0 4 ≠ 0 then throw 4
    let tail : BitVec 16 := slice b 6 10 ++ 0#1 ++ BitVec.ofBool (bit b 4) ++ 0#4
    return ⟨withZ (tail ++ slice a.raw 0 496), noFlags, 0⟩

/-- HBIAS (09 R198): B is a scalar binary32. -/
def hbiasForm (_ : State) (x : Act) (v : View) : Fired :=
  let n := (slice v.r.ax 0 3).toNat
  courseAnswer x <| do
    let a ← opA v
    if tileBad n a.raw then throw 6
    if isApprox n a.raw then
      let b := readFmt f32 (v.b.word.toNat % 2 ^ 32)
      let ys := a.nums.map fun y => addNum 0 y b
      let z := floatCourse v.r.ty (tailOf a.l a.k a.q) (ys.map (·.1))
      return ⟨z.1, a.flags ||| ys.foldl (fun f y => f ||| y.2) noFlags ||| z.2, 0⟩
    else return ⟨v.a.bits, noFlags, 0⟩

/-- The level and index of detail course k of a tile of T times at level L, from level j = m down (03 R64). -/
def detailPlace (m k t base : Nat) : Nat × Nat :=
  match m with
  | 0 => (1, 0)
  | j + 1 =>
    let w := t / 2 ^ (j + 1)
    if k < base + w then (j + 1, k - base) else detailPlace j k t (base + w)

/-- HSPAN (09 R200). -/
def hspanForm (_ : State) (a : Act) (v : View) : Fired :=
  let n := (slice v.r.lit 0 3).toNat
  let c := v.a.bits
  let l := crsL c
  let k := crsK c
  let answer (first count : Nat) (detail : Bool) : Fired :=
    give a noFlags (Val.ofNat (first + 2 ^ 16 * count + (if detail then 2 ^ 32 else 0)))
  if checkCourse c ≠ 99 then .fault 4 (checkCourse c) 0 0
  else if tileBad n c then .fault 4 6 0 0
  else if l = 0 then answer k 1 false
  else
    let base := 2 ^ n / 2 ^ l
    if k < base then answer (k * 2 ^ l) (2 ^ l) false
    else
      let (j, i) := detailPlace l k (2 ^ n) base
      answer (i * 2 ^ j) (2 ^ j) true

/-- HCNT counts the lanes as they are read: a subnormal float lane is flushed to zero first (09 R200; 03 R56; log 56, DEDUCED). -/
def hcntForm (_ : State) (x : Act) (v : View) : Fired :=
  scalarAnswer x <| do
    let a ← opA v
    let n := if v.r.ty.isInt then (a.ints.filter fun m => m ≠ 0).length else (a.nums.filter fun m => !m.isZero).length
    return (BitVec.ofNat 64 n, a.flags, 0)

/-- HFWD (09 R194). -/
def execHfwd (r : Rec) (s : State) : Result State := fire .hfwd r s (haarForm (fun l0 l => l0 ≤ l) false fwdLanes)
/-- HINV (09 R195). -/
def execHinv (r : Rec) (s : State) : Result State := fire .hinv r s (haarForm (fun l0 l => l ≤ l0) true invLanes)
/-- HTHR (09 R196). -/
def execHthr (r : Rec) (s : State) : Result State := fire .hthr r s hthrForm
/-- HREC (09 R197). -/
def execHrec (r : Rec) (s : State) : Result State := fire .hrec r s hrecForm
/-- HGET (09 R199). -/
def execHget (r : Rec) (s : State) : Result State := fire .hget r s hgetForm
/-- HTAG (09 R199). -/
def execHtag (r : Rec) (s : State) : Result State := fire .htag r s htagForm
/-- HBIAS (09 R198). -/
def execHbias (r : Rec) (s : State) : Result State := fire .hbias r s hbiasForm
/-- HSPAN (09 R200). -/
def execHspan (r : Rec) (s : State) : Result State := fire .hspan r s hspanForm
/-- HCNT (09 R200). -/
def execHcnt (r : Rec) (s : State) : Result State := fire .hcnt r s hcntForm

end Sys2Proof.Machine
end

