-- ==== Sys2Proof/Machine/Digest.lean ====
section
/-! DEFINITION. The digest of images and firmware: SHAKE256 over le64(length) and the bytes, 64 bytes out (23 R394, R395; the
function itself is that of FIPS 202, log 34). A sponge state is five planes of five words; its tables are computed. -/
namespace Sys2Proof.Machine

/-- The order in which step n of the walk over 24 of the 25 words of a sponge visits them; word (x, y) has number x + 5 y. -/
def spongeWalk (n : Nat) : Nat :=
  match n with
  | 0 => 1
  | k + 1 =>
    let i := spongeWalk k
    i / 5 + 5 * ((2 * (i % 5) + 3 * (i / 5)) % 5)

/-- How far the word with a number is turned: the triangular numbers along the walk. -/
def spongeTurn (i : Nat) : Nat :=
  match (List.range 24).find? fun n => spongeWalk n = i with
  | none => 0
  | some n => (n + 1) * (n + 2) / 2 % 64

/-- The turns of the 25 words. -/
def spongeTurns : List Nat := (List.range 25).map spongeTurn

/-- The register of 8 bits whose lowest bit, after n shifts, feeds the constants of the rounds. -/
def spongeShift (n : Nat) : Nat :=
  match n with
  | 0 => 1
  | k + 1 => let r := 2 * spongeShift k; if 256 ≤ r then Nat.xor r 0x171 else r

/-- The constant of round r: bit 2^j - 1 is the bit of shift j + 7 r. -/
def spongeConstant (r : Nat) : Word :=
  BitVec.ofNat 64 (sumNat ((List.range 7).map fun j => spongeShift (j + 7 * r) % 2 * 2 ^ (2 ^ j - 1)))

/-- The constants of the 24 rounds. -/
def spongeConstants : List Word := (List.range 24).map spongeConstant

/-- The plane one place on: word x takes the word at x + n. -/
def planeTurn (n : Nat) (p : List Word) : List Word := p.drop n ++ p.take n

/-- Two planes combined word by word. -/
def planeWith (f : Word → Word → Word) (p q : List Word) : List Word := (p.zip q).map fun z => f z.1 z.2

/-- The mix of the columns: every plane takes the parity of the column before and that of the column after, turned by one. -/
def mixColumns (ps : List (List Word)) : List (List Word) :=
  let par := ps.foldl (planeWith (· ^^^ ·)) (List.replicate 5 0)
  let add := planeWith (fun u w => u ^^^ w.rotateLeft 1) (planeTurn 4 par) (planeTurn 1 par)
  ps.map (planeWith (· ^^^ ·) add)

/-- The words turned and sent to their new places: place (x, y) takes the word of column x + 3 y and plane x. -/
def scatterWords (ps : List (List Word)) : List (List Word) :=
  let ws := ps.flatten
  (List.range 5).map fun y => (List.range 5).map fun x =>
    let i := (x + 3 * y) % 5 + 5 * x
    (ws.getD i 0).rotateLeft (spongeTurns.getD i 0)

/-- The step within a plane. -/
def foldPlane (p : List Word) : List Word :=
  planeWith (· ^^^ ·) p (planeWith (fun u w => ~~~u &&& w) (planeTurn 1 p) (planeTurn 2 p))

/-- One round with its constant. -/
def spongeRound (ps : List (List Word)) (k : Word) : List (List Word) :=
  modAt ((scatterWords (mixColumns ps)).map foldPlane) 0 fun p => modAt p 0 fun w => w ^^^ k

/-- Lists cut into planes of five words. -/
def wordPlanes (ws : List Word) : List (List Word) := (List.range 5).map fun y => (ws.drop (5 * y)).take 5

/-- Blocks of 136 bytes taken into the words of a sponge, each followed by the 24 rounds; fuel counts the blocks. -/
def spongeTake (fuel : Nat) (l : List Byte) (ws : List Word) : List Word :=
  match fuel with
  | 0 => ws
  | n + 1 =>
    let mixed := (List.range 25).map fun i => ws.getD i 0 ^^^ (if i < 17 then BitVec.ofNat 64 (fieldAt l (8 * i) 8) else 0)
    spongeTake n (l.drop 136) (spongeConstants.foldl spongeRound (wordPlanes mixed)).flatten

/-- The bytes that complete a message of n bytes: the suffix 0x1F and the last bit of the block. -/
def shakeTail (n : Nat) : List Byte :=
  let k := 136 - n % 136
  (List.range k).map fun i => BitVec.ofNat 8 ((if i = 0 then 0x1F else 0) + (if i + 1 = k then 0x80 else 0))

/-- SHAKE256 with 64 bytes of output. -/
def shake256 (l : List Byte) : List Byte :=
  let ws := spongeTake (l.length / 136 + 1) (l ++ shakeTail l.length) (List.replicate 25 0)
  (ws.take 8).flatMap fun w => natBytes w.toNat 8

/-- The digest of a list of bytes (23 R394). -/
def digest (l : List Byte) : BitVec 512 := BitVec.ofNat 512 (bytesNat (shake256 (natBytes l.length 8 ++ l)))

end Sys2Proof.Machine
end

