-- ==== Sys2Proof/Machine/Ports.lean ====
section
/-! DEFINITION. Requests at their ports: walks, loads that return, stores and atomics that are performed, windows (05 R104; 10 R207,
R210, R218, R219; 11 R243, R250; 17 R311, R312; 18 R332; 23 R393). -/
namespace Sys2Proof.Machine

/-! ### System-space registers (10 R203, R210; 18 R332, R333; 23 R393) -/

/-- WG.STAT of a wing. -/
def State.wgStat (s : State) (w : Nat) : Word :=
  let n := s.liveSlices w
  let rem := Config.range % max 1 n
  let dead := (s.fab.dead.filter fun h => wingOfHall h = w).foldl (fun (m : BitVec 8) h => m ||| (1#8 <<< slotOfHall h)) 0
  dead ++ BitVec.ofNat 8 ((n - rem) % max 1 n + Config.granules % max 1 n) ++ BitVec.ofNat 24 Config.range ++ 0#20 ++ BitVec.ofNat 4 n

/-- LK.ERR of a port. -/
def LinkPort.word (p : LinkPort) : Word := p.crc ++ p.vc ++ 0#7 ++ BitVec.ofBool p.spare ++ p.retrain

/-- A remap entry names a unit past its ageing limit. -/
def State.remapped (s : State) (d : Die) (u : UnitId) (m : Option Nat) : Bool :=
  match u, m with
  | .element _, some k => (s.macroSet (unitBay u)).spares.any fun y => y.1 = k
  | .element e, none => d.elems.any fun y => y.1 = e
  | _, _ => false

/-- A context occupies a unit past its ageing limit: one loaded before then, for which its remap entry is not in force, or any where none could
be written (05 R96; 23 R393). -/
def State.occupies (s : State) (d : Die) (y : UnitId × Option Nat × Nat) (x : Ctx) : Bool :=
  (decide (x.loadSeq ≤ y.2.2) || !(s.remapped d y.1 y.2.1)) &&
  (if y.2.1.isSome then x.bays.contains (unitBay y.1) else x.place.contains y.1 || x.ops.any fun o => o.clones.any fun k => k.unit = y.1)

/-- The units of a die past their ageing limit that resident contexts still occupy (23 R393). -/
def State.agedHeld (s : State) (d : Die) : Nat :=
  (d.aged.filter fun y => s.ctxs.any fun x => x.status = .resident && s.occupies d y x).length

/-- SP.STAT of a die. -/
def State.spStat (s : State) (d : Nat) : Word :=
  let x := s.fab.dies.getD d ⟨[], false, none, [], []⟩
  let macros := sumNat (s.fab.sets.map fun y => if dieOfBay y.1 = d then (y.2.spares.map (·.1)).dedup.length else 0)
  0#23 ++ BitVec.ofBool x.spareRow ++ BitVec.ofNat 8 (min 255 (s.agedHeld x)) ++ BitVec.ofNat 8 macros ++ BitVec.ofNat 8 x.elems.length ++ 0#16

/-- The value of a system-space register; zero where no register has the offset. -/
def State.sysWord (s : State) (off : Nat) : Word :=
  if off % 8 ≠ 0 then 0
  else if 0x1000 ≤ off && decide (off < 0x1040) then s.wgStat ((off - 0x1000) / 8)
  else if off = 0x2000 then zextTo 64 s.links.id
  else if 0x2100 ≤ off && decide (off < 0x2190) then ((s.links.ports[(off - 0x2100) / 8]?).map (·.word)).getD 0
  else if 0x3000 ≤ off && decide (off < 0x3020) then s.spStat ((off - 0x3000) / 8)
  else 0

/-- The RC fields of LK.ERR of a port cleared by a read. -/
def State.clearErr (s : State) (p : Nat) : State :=
  { s with links := { s.links with ports := modAt s.links.ports p fun y => { y with crc := 0, vc := 0, retrain := 0 } } }

/-- The device after a read of a system-space register. -/
def State.sysRead (s : State) (off : Nat) : State :=
  if 0x2100 ≤ off && decide (off < 0x2190) && off % 8 = 0 then s.clearErr ((off - 0x2100) / 8) else s

/-! ### Loads that return (11 R242 to R250; 20 R353) -/

/-- What a record saw of its operands when it fired. -/
def Act.viewOf (a : Act) (s : State) (u : UnitId) (j : Nat) (r : Rec) : View :=
  let x := s.ctx a.ctx
  let get (src : Src) (port : Option Val) (q : Nat) : Val :=
    match readSrc x a j r src port q with
    | .val v => v
    | _ => Val.zero .scalar
  ⟨u, j, a.ctx, r, get r.a (a.slot j).a (slice r.ax 0 4).toNat, get r.b (a.slot j).b (slice r.ax 4 4).toNat⟩

/-- The completion of a load form with what memory brought. -/
def loadDone (o : Op) (s : State) (a : Act) (v : View) (y : Loaded) : Fired :=
  match o with
  | .ld => ldReturn s a v y
  | .ldc => ldcReturn s a v y
  | .ldx => ldxReturn s a v y
  | .lds => ldsReturn s a v y
  | .acq => acqReturn s a v y
  | .fibrd => fibrdReturn s a v y
  | .pxlt => pxltReturn s a v y
  | .kvapp => kvappReturn s a v y
  | .kvlen => kvlenReturn s a v y
  | .land => landReturn s a v y
  | .lrest => lrestReturn s a v y
  | .mldb => mldbReturn s a v y
  | _ => .wait

/-- The bytes of an image of MSPL reach an MRST in its commit stage (13 R273). -/
def fillImage (j : Nat) (bytes : List Byte) (x : Nat × Effect) : Nat × Effect :=
  match x.2 with
  | .mrst id cap _ => if x.1 = j then (x.1, .mrst id cap (some bytes)) else x
  | _ => x

/-- An answer by which the activation faults, with its trap bits (03 R60). -/
def Fired.faults (x : Fired) (trap : BitVec 6) : Bool :=
  match x with
  | .done _ fl _ _ => decide (fl &&& trap ≠ 0)
  | .fault _ _ _ _ => true
  | _ => false

/-- What a load brought reaches its record: it completes, faults, or goes on waiting (ACQ, FIBRD). While another load of the activation is
held the activation does not fault: the load goes on waiting (20 R348). -/
def State.deliverLoad (s : State) (q : Req) (y : Loaded) : State :=
  match s.act q.unit with
  | none => s.dropReq q.id
  | some a =>
    if (a.slot q.rec_).st ≠ .issued q.id then s.dropReq q.id
    else if a.stage ≠ .running then
      (s.dropReq q.id).putAct q.unit
        (({ a with effects := a.effects.map (fillImage q.rec_ y.bytes) } : Act).setSt q.rec_ .fired)
    else match a.info q.rec_ with
      | none => s
      | some (o, r) =>
        match loadDone o s a (a.viewOf s q.unit q.rec_ r) y with
        | .wait => s
        | f => if f.faults a.trap && s.loadHeld q.unit then s else settle (s.dropReq q.id) q.unit a q.rec_ r f

/-- The ranges of bytes that a load reads: one for each lane of a gather. -/
def Req.reads (q : Req) : List (Nat × Nat) :=
  match q.kind with
  | .gather ty idx => (indexLanes ty q.addr idx).map fun x => (x.2, tySize ty)
  | .load n _ => [(q.addr, n)]
  | .acquire _ => [(q.addr, 8)]
  | _ => []

/-- The activation as its load sees it: LAND's snapshot and ACQ's word are of memory as it stands (11 R236, R250). -/
def Act.seenBy (a : Act) (q : Req) : Act := if a.readsHome q.rec_ then { a with stores := [] } else a

/-- MLDB reads nothing of B: it asks for the kind of its pages alone (13 R270). -/
def Act.asksKind (a : Act) (q : Req) : Bool := (a.info q.rec_).any fun x => x.1 = .mldb

/-- A load meets poison that no store of a lower record covers (20 R353). -/
def State.loadPoison (s : State) (q : Req) (a : Act) : Option Nat :=
  q.reads.findSome? fun r =>
    if a.asksKind q || a.covers q.rec_ q.space r.1 r.2 then none
    else if (List.range r.2).any fun i => s.poisonedAt q (r.1 + i) then some r.1 else none

/-- The bytes that a load brings to its record. -/
def State.loadedBytes (s : State) (q : Req) (a : Act) (ext : Ext) : List Byte :=
  match q.kind with
  | .gather ty idx =>
    let ls := indexLanes ty q.addr idx
    (List.range ty.count).flatMap fun i =>
      match ls.find? fun x => x.1 = i with
      | some x => s.loadBytes q a x.2 (tySize ty) (ext.data.drop (i * tySize ty))
      | none => List.replicate (tySize ty) 0
  | .load n _ => if a.asksKind q then [] else s.loadBytes q a q.addr n ext.data
  | _ => s.loadBytes q a q.addr 8 ext.data

/-- The queued readers whose words have one home slice (10 R219). -/
def State.readersAt (s : State) (home : Nat) : Nat :=
  sumNat (s.net.structs.map fun x => match x.2 with
    | .deferred rs => if s.home x.1 = home then rs.length else 0
    | .empty | .full => 0)

/-- A space 2 load at its home slice: it returns the word, or is queued there, or waits for room (10 R219). -/
def State.structLoad (s : State) (q : Req) (key : Nat) (y : Loaded) : State :=
  let queue (rs : List Nat) : State :=
    if 4096 ≤ s.readersAt (s.home key) then s
    else
      let rest := s.net.structs.filter fun x => x.1 ≠ key / 8 * 8
      { s.modReq q.id fun z => { z with st := .queued } with
        net := { (s.modReq q.id fun z => { z with st := .queued }).net with
          structs := rest ++ [(key / 8 * 8, .deferred (rs ++ [q.id]))] } }
  match s.struct? key with
  | some .full => s.deliverLoad q y
  | some (.deferred rs) => queue rs
  | some .empty | none => queue []

/-- A load of an activation performed where its bytes are. -/
def State.performLoad (s : State) (q : Req) (ext : Ext) : State :=
  match (s.act q.unit).map fun a => a.seenBy q with
  | none => s.dropReq q.id
  | some a =>
    if q.space = 5 then (s.sysRead q.addr).deliverLoad q ⟨natBytes (s.sysWord q.addr).toNat 8, false, false⟩
    else if a.asksKind q && translates q.space then s.deliverLoad q ⟨[], false, s.allTyped q⟩
    else if let some k := s.refusedOutside q ext then s.holdReq q 3 k q.loops
    else
      let cap := match q.kind with
        | .load _ c => c && s.loadTag q a q.addr
        | _ => false
      let y : Loaded := ⟨s.loadedBytes q a ext, cap, if q.space = 3 then ext.typed else s.allTyped q⟩
      match s.loadPoison q a with
      | some va => if s.loadHeld q.unit then s else s.takeFault q.unit a q.rec_ 8 3 0 va
      | none =>
        if q.space = 2 then
          (match s.spot q q.addr with
           | some x =>
             let raw : Loaded := { y with bytes := a.over q ((span x.key 8).map (Memory.get s.mem)) }
             if a.covers q.rec_ 2 q.addr 8 then s.deliverLoad q y else s.structLoad q x.key raw
           | none => s)
        else (if s.outside q then s.sendOut (s.outMsg q) else s).deliverLoad q y

/-- An invalidation no longer waits for a request that goes on through other pages than it dropped (20 R359, R366). -/
def State.undrainBut (s : State) (id : Nat) (asid : BitVec 16) (left : List Page) : State :=
  let waits (t : Tlbi) : Bool := left.any fun p => p.named asid t.asid t.range.1 t.range.2
  { s with net := { s.net with tlbis := s.net.tlbis.map fun t => if waits t then t else { t with drain := t.drain.filter fun i => i ≠ id } } }

/-- Bytes read from a page as a copy takes them: a course of a typed page whose Z is set reads with a zero payload, all of it or a part (03
R47; 17 R321). From outside they come as the answer brings them, where they are whole courses by that rule. -/
def State.asRead (s : State) (q : Req) (bytes : List Byte) : List Byte :=
  let byte (x : Byte × Nat) : Byte :=
    match s.spot q (q.addr + x.2) with
    | some y => if y.typed && y.inside then (courseBytes (effective (s.courseAt (y.key / 64 * 64)))).getD (y.key % 64) 0 else x.1
    | none => x.1
  if s.outside q && s.typedAt q q.addr && q.addr % 64 = 0 && bytes.length % 64 = 0 then mapCourses (bytes.length / 64) effective bytes
  else bytes.zipIdx.map byte

/-- A read of an operation is refused outside, or meets poison: class and code (20 R353). -/
def State.readRefusal (s : State) (q : Req) (ext : Ext) : Option (Nat × Nat) :=
  match s.refusedOutside q ext with
  | some k => some (3, k)
  | none => if (List.range q.kind.size).any fun i => s.poisonedAt q (q.addr + i) then some (8, 3) else none

/-- A read of an engine operation performed: its bytes leave as a store to the destination, and the pages that it was read through are done
with (17 R321, R322; 20 R366). -/
def State.performRead (s : State) (q : Req) (ext : Ext) (dspace daddr : Nat) (bytes : List Byte) : State :=
  let n := q.kind.size
  let left := q.trans.filter fun p => translates dspace && (granuleVas daddr n).any p.covers
  let go (t : State) : State := (t.undrainBut q.id q.asid left).modReq q.id fun y => { y with
    space := dspace
    addr := daddr
    kind := .store (.bytes (s.copied q.strm bytes))
    sent := none
    trans := left }
  if let some (cls, k) := s.readRefusal q ext then s.holdReq q cls k q.loops
  else go (if s.outside q then s.sendOut (s.outMsg q) else s)

/-- A course of a row of a tile read: it is held where it is of a wrong format, or where its row, as long as its first course's format makes
it, passes the capability; the first course asks for the others (17 R321; log 31). -/
def State.performTile (s : State) (q : Req) (ext : Ext) (row col : Nat) : State :=
  match s.engine? q.strm with
  | none => s.dropReq q.id
  | some o =>
    let stride := match o.kind with
      | .cpyq _ n => n
      | _ => 0
    let c := bytesCourse (s.readBytes q q.addr 64 ext.data)
    let head := if col = 0 then c else (o.tile? row 0).getD 0
    let more := if col = 0 then (List.range (tileCourses c)).drop 1 else []
    match s.readRefusal q ext with
    | some (cls, k) => s.holdReq q cls k q.loops
    | none =>
      if tileCourseCode head c ≠ 99 then s.holdReq q 4 (tileCourseCode head c) q.loops
      else if col = 0 && decide (capTop o.src < q.addr + 64 * tileCourses c) then s.holdReq q 2 8 q.loops
      else
        let s1 := (if s.outside q then s.sendOut (s.outMsg q) else s).modEngine o.id fun y => { y with tile := setKey y.tile (row, col) c }
        ((more.filter fun i => !(o.misses (row * stride + 64 * i) 64)).foldl (fun t i => t.addReq (o.tileReq s stride row i)) s1).dropReq q.id

/-- Source words of a collective read (17 R323). -/
def State.performWords (s : State) (q : Req) (ext : Ext) (off n : Nat) : State :=
  let bs := s.readBytes q q.addr n ext.data
  match s.readRefusal q ext with
  | some (cls, k) => s.holdReq q cls k q.loops
  | none =>
    let put (l : List (BitVec 32)) (i : Nat) : List (BitVec 32) := modAt l (off / 4 + i) fun _ => BitVec.ofNat 32 (fieldAt bs (4 * i) 4)
    ((if s.outside q then s.sendOut (s.outMsg q) else s).modEngine q.strm fun y =>
      { y with words := (List.range (n / 4)).foldl put y.words }).dropReq q.id

/-- A course of a generator's load performed: it fills its slot, or is held where a typed page holds no such course (11 R245;
20 R401). -/
def State.performStream (s : State) (q : Req) (ext : Ext) (ty : Ty) (r n : Nat) : State :=
  let c := bytesCourse (s.readBytes q q.addr 64 ext.data)
  let k := if s.typedAt q q.addr then checkTyped ty c else 99
  if let some (cls, k) := s.readRefusal q ext then s.holdReq q cls k q.loops
  else if k ≠ 99 then s.holdReq q 4 k q.loops
  else ((if s.outside q then s.sendOut (s.outMsg q) else s).fillSlot q r n
    (if s.typedAt q q.addr then withZ (effective c) else c)).dropReq q.id

/-- The course map that CXPT writes for the granule of a request. -/
def State.mapOf (s : State) (q : Req) : List Byte :=
  match s.spot q q.addr, s.pageOf q q.addr with
  | some x, some p => natBytes (s.courseMap x.key (pteCmp p.leaf)).toNat 8
  | _, _ => List.replicate 8 0

/-- A request may be performed now. -/
def State.ripe (s : State) (q : Req) : Bool := s.mayPerform q && s.translated q && !(s.copiedOver q)

/-- A request that may be performed now, with the state in which it has left its port. -/
def State.ripeReq (s : State) (id : Nat) : Option (State × Req) :=
  match s.req? id with
  | none => none
  | some q => if s.ripe q then ((s.leave q).req? id).map fun r => (s.leave q, r) else none

/-- The data of a load request returns (11 R243). -/
def State.loadReturn (s : State) (id : Nat) (ext : Ext) : State :=
  match s.ripeReq id with
  | none => s
  | some (s, q) =>
    match q.kind with
      | .load _ _ | .gather _ _ | .acquire _ => s.performLoad q ext
      | .engineRead ds da n => s.performRead q ext ds da (s.asRead q (s.readBytes q q.addr n ext.data))
      | .engineMap ds da => s.performRead q ext ds da (s.mapOf q)
      | .engineTile row col => s.performTile q ext row col
      | .engineWords off n => s.performWords q ext off n
      | .genLoad ty r n => s.performStream q ext ty r n
      | _ => s

/-! ### Stores (10 R212 to R220) -/

/-- A store request with its data as it stands now: a generator reads its ring entry (11 R245). -/
def State.storeData (s : State) (q : Req) : Option StoreData :=
  match q.kind with
  | .store d => some d
  | .genStore _ r n => some (.course ((((s.homeCtx q.ctx q.load_).ring? r).map fun g => (g.entry n).bits).getD 0))
  | _ => none

/-- The queued readers of a structure word answered with its bytes, in order, each with its activation's own stores below it laid over
(10 R219; 11 R243). -/
def State.answerReaders (s : State) (rs : List Nat) (bytes : List Byte) : State :=
  rs.foldl (fun t i => match t.req? i with
    | some q => t.deliverLoad q ⟨((t.act q.unit).map fun a => a.over q bytes).getD bytes, false, false⟩
    | none => t) s

/-- What follows a store that has been performed: bytes counted, slots freed. -/
def State.storeOver (s : State) (q : Req) (n : Nat) : State :=
  if s.net.reqs.any fun r => r.id = q.id then s
  else match q.kind with
    | .genStore _ r _ => s.freeSlots q.ctx q.load_ r
    | _ => if q.port.kind = 3 then s.modEngine q.strm fun o => { o with bytes := o.bytes + n } else s

/-- A committed store performed where it goes (10 R212). -/
def State.storePerform (s : State) (id : Nat) (ext : Ext) : State :=
  match s.ripeReq id with
  | none => s
  | some (s, q) =>
    match s.storeData q with
    | none => s
    | some d =>
      if q.space = 5 then s.dropReq id
      else
        let y := s.performStore q d ext
        (y.1.answerReaders y.2 (d.image.map (·.2))).storeOver q d.size

/-! ### Atomics (11 R250; 15 R296, R300; 17 R311 to R313) -/

/-- The result of an atomic leaves as a token, or fills the input of the successor that its commit chained (17 R311). -/
def State.sendResult (s : State) (q : Req) (out : Option AtomicOut) (v : Val) : State :=
  match out with
  | none => s
  | some o =>
    match o.chain with
    | some made =>
      let fits (w : Waiting) : Bool := w.made = made && w.tag = o.tag && w.kind ≠ .frame && w.kind ≠ .source
      s.modHome q.ctx q.load_ fun x =>
        { x with waiting := x.waiting.map fun y =>
            if fits y then { y with slots := modAt y.slots o.port fun l => { l with val := some v }, since := s.sched.moves } else y }
    | none =>
      match (s.homeCtx q.ctx q.load_).opOf? q.ptr with
      | none => s
      | some p => s.modHome q.ctx q.load_ fun x =>
          (x.outEdges p o.port).foldl
            (fun y i => y.putToken (x.copyOn p q.unit) i ⟨v, o.tag, o.stamp, q.birth, none, o.after⟩) x

/-- The code with which the kind of its leaf refuses an atomic: a course asks for a typed page, a word for an untyped one (17 R311). -/
def atomicLeafCode (course typed : Bool) : Nat := if course && !typed then 7 else if !course && typed then 8 else 99

/-- The refusal of an atomic at its place: class and code (10 R219, R220; 17 R311). -/
def State.atomicRefusal (s : State) (q : Req) (ty : Ty) (course : Bool) (x : Spot) : Option (Nat × Nat) :=
  if atomicLeafCode course x.typed ≠ 99 then some (4, atomicLeafCode course x.typed)
  else if course && (s.byteAt x.key).toNat ≠ fmtCode ty then some (4, 3)
  else if s.deferredIn x.key q.kind.size then some (3, 7) else none

/-- An atomic performed at its place: the state, its old value, its flags. -/
def State.atomicAt (s : State) (key fn : Nat) (ty : Ty) (b e : Word) (course : Option Course) : State × Val × BitVec 6 :=
  match course with
  | some c =>
    let y := atomicCourse fn ty (s.courseAt key) c
    (s.putCourse key y.1, Val.zero .course, y.2)
  | none =>
    let n := tySize ty
    let old := s.numAt key n
    let y := atomicStep fn ty old (rawInt ty b) (rawInt ty e)
    (s.writeAt key (natBytes y.1 n), Val.ofWord (extInt ty old), y.2)

/-- Flags of a request performed after its commit ORed into its unit's copy of CX.FLAGS (17 R311). -/
def State.lateFlags (s : State) (q : Req) (f : BitVec 6) : State :=
  s.modHome q.ctx q.load_ fun z => z.modElem q.unit fun d => { d with flags := addFlags d.flags f 0 }

/-- What an atomic that another device performed brings: its old value, and the flags of its step on that (17 R311; 18 R334). -/
def atomicAnswer (ext : Ext) (fn : Nat) (ty : Ty) (b e : Word) (course : Option Course) : Val × BitVec 6 :=
  match course with
  | some c => (Val.zero .course, (atomicCourse fn ty (bytesCourse (ext.data.take 64)) c).2)
  | none =>
    let old := bytesNat (ext.data.take (tySize ty))
    (Val.ofWord (extInt ty old), (atomicStep fn ty old (rawInt ty b) (rawInt ty e)).2)

/-- A committed atomic performed (17 R311); one on another device answers through its response. -/
def State.performAtomic (s : State) (q : Req) (ext : Ext) (fn : Nat) (ty : Ty) (b e : Word) (course : Option Course)
    (out : Option AtomicOut) : State :=
  let leaf := ((s.leafTyped q).map (atomicLeafCode course.isSome)).getD 99
  if s.outside q && leaf ≠ 99 then s.holdReq q 4 leaf q.loops
  else if s.outside q then
    match s.refusedOutside q ext with
    | some k => s.holdReq q 3 k q.loops
    | none =>
      let y := atomicAnswer ext fn ty b e course
      (((s.sendOut (s.outMsg q)).dropReq q.id).lateFlags q y.2).sendResult q out y.1
  else match s.spot q q.addr with
    | none => s
    | some x =>
      match s.atomicRefusal q ty course.isSome x with
      | some (cls, code) => s.holdReq q cls code q.loops
      | none =>
        if (List.range q.kind.size).any fun i => s.poisonedAt q (q.addr + i) then s.holdReq q 8 3 q.loops
        else
          let y := s.atomicAt x.key fn ty b e course
          ((y.1.dropReq q.id).lateFlags q y.2.2).sendResult q out y.2.1

/-- A request that goes outside as it stands, or is refused there. -/
def State.passOut (s : State) (q : Req) (ext : Ext) : State :=
  match s.refusedOutside q ext with
  | some k => s.holdReq q 3 k q.loops
  | none => (s.sendOut (s.outMsg q)).dropReq q.id

/-- What an append adds to its unit's copies once it is performed: its flags, and the courses that it rescaled (15 R296, R298). -/
def State.appendOver (s : State) (q : Req) (l : List (Course × BitVec 6 × Bool)) : State :=
  let n := (l.filter fun y => y.2.2).length
  (s.modHome q.ctx q.load_ fun z => z.modElem q.unit fun d => { d with kvrs := sat32 (d.kvrs.toNat + n) }).lateFlags q
    (l.foldl (fun f y => f ||| y.2.1) noFlags)

/-- An append performed at its places: courses not on typed pages, of a wrong kind, with deferred words or poison refuse all of it, with class
and code (15 R296). -/
def State.appendAt (s : State) (spots : List Spot) (pos : Nat) (vs : List (BitVec 32)) :
    Except (Nat × Nat) (State × List (Course × BitVec 6 × Bool)) :=
  let new := (spots.zip vs).map fun x => kvAppend (s.courseAt x.1.key) pos x.2
  let k := firstCode (spots.map fun x => (kvCode (s.courseAt x.key) ≠ 99, kvCode (s.courseAt x.key)))
  if spots.any fun x => !x.typed then .error (4, 7)
  else if k ≠ 99 then .error (4, k)
  else if spots.any fun x => s.deferredIn x.key 64 then .error (3, 7)
  else if spots.any fun x => s.poisonIn x.key 64 then .error (8, 3)
  else .ok ((spots.zip new).foldl (fun t x => t.putCourse x.1.key x.2.1) s, new)

/-- An append performed on its courses, all of them or none (15 R296); those of another device as its response brings them. -/
def State.performAppend (s : State) (q : Req) (ext : Ext) (pos : Nat) (vs : List (BitVec 32)) : State :=
  let at_ := (List.range vs.length).mapM fun i => s.spot q (q.addr + 64 * i)
  let old (i : Nat) : Course := bytesCourse ((ext.data.drop (64 * i)).take 64)
  match at_ with
  | none => s
  | some spots =>
    if spots.any fun x => !x.typed then s.holdReq q 4 7 q.loops
    else if s.outside q then
      match s.refusedOutside q ext with
      | some k => s.holdReq q 3 k q.loops
      | none => ((s.sendOut (s.outMsg q)).dropReq q.id).appendOver q (vs.zipIdx.map fun v => kvAppend (old v.2) pos v.1)
    else match s.appendAt spots pos vs with
      | .error (cls, k) => s.holdReq q cls k q.loops
      | .ok (t, new) => (t.dropReq q.id).appendOver q new

/-- The greater of two signed words. -/
def maxWord (x y : Int) : Int := if x < y then y else x

/-- A length record of n layers updated for a layer, each of its words at the place of its own page; refused with class and code on a typed
page, at a deferred word, at poison (15 R299, R300). -/
def State.lengthAt (s : State) (spots : List Spot) (layer n p : Nat) : Except (Nat × Nat) State :=
  let key (i : Nat) : Nat := ((spots[i]?).map (·.key)).getD 0
  let word (i : Nat) : Int := toInt64 (s.numAt (key i) 8)
  let mark (j : Nat) : Int := if j = layer then maxWord (word (2 + j)) ((p : Int) + 1) else word (2 + j)
  let low := (List.range n).foldl (fun m j => if mark j < m then mark j else m) (mark layer)
  let put (t : State) (i : Nat) (v : Int) : State := t.writeAt (key i) (natBytes (BitVec.ofInt 64 v).toNat 8)
  if spots.any (·.typed) then .error (4, 8)
  else if spots.any fun x => s.deferredIn x.key 8 then .error (3, 7)
  else if spots.any fun x => s.poisonIn x.key 8 then .error (8, 3)
  else .ok (put (put s (2 + layer) (mark layer)) 0 (maxWord (word 0) low))

/-- A length record's update performed (15 R299, R300). -/
def State.performLength (s : State) (q : Req) (ext : Ext) (layer n p : Nat) : State :=
  match (List.range (n + 2)).mapM fun i => s.spot q (q.addr + 8 * i) with
  | none => s
  | some spots =>
    if s.outside q && !(spots.any (·.typed)) then s.passOut q ext
    else match s.lengthAt spots layer n p with
      | .error (cls, k) => s.holdReq q cls k q.loops
      | .ok t => t.dropReq q.id

/-- A release count one more at its place, or the refusal (11 R250). -/
def State.releaseAt (s : State) (x : Spot) : Except (Nat × Nat) State :=
  if x.typed then .error (4, 8)
  else if s.deferredIn x.key 8 then .error (3, 7)
  else .ok (s.writeAt x.key (natBytes ((s.numAt x.key 8 + 1) % 2 ^ 64) 8))

/-- A committed atomic, append or length update is performed. -/
def State.atomicPerform (s : State) (id : Nat) (ext : Ext) : State :=
  match s.ripeReq id with
  | none => s
  | some (s, q) =>
    match q.kind with
      | .atomic fn ty b e course out => s.performAtomic q ext fn ty b e course out
      | .kvapp pos vs => s.performAppend q ext pos vs
      | .kvlen layer n p => s.performLength q ext layer n p
      | _ => s

/-- A release increments its word once the stores it covers are there (11 R250). -/
def State.releaseIncrement (s : State) (id : Nat) (ext : Ext) : State :=
  match s.ripeReq id with
  | none => s
  | some (s, q) =>
    if q.kind ≠ .release then s
    else match s.spot q q.addr with
      | none => s
      | some x =>
        if s.outside q && !x.typed then s.passOut q ext
        else match s.releaseAt x with
          | .error (cls, k) => s.holdReq q cls k q.loops
          | .ok t => t.dropReq id

/-! ### Walks, windows and moves (05 R104; 10 R207, R218) -/

/-- A leaf entered in a port's cache. -/
def State.cacheLeaf (s : State) (port : PortId) (asid : BitVec 16) (p : Page) : State :=
  let e : CacheEntry := ⟨port, asid, p⟩
  { s with net := { s.net with cache := (s.net.cache.filter fun y => y ≠ e) ++ [e] } }

/-- A walk for a request ends: the leaf is cached, or the request is held; with every page there it takes them for good, and leaves its port
where its turn has come (05 R103, R104; 10 R207; 20 R347, R358). -/
def State.walkDone (s : State) (id : Nat) : State :=
  match s.req? id with
  | none => s
  | some q =>
    if !q.st.goes then s
    else match s.firstMiss q with
      | none =>
        let r := s.takePages q
        let t := (if q.trans = [] then s.undrain id else s).modReq id fun _ => r
        if t.mayLeave r then t.leave r else t
      | some (_, some k) => s.holdReq q 3 k q.loops
      | some (va, none) =>
        match walk s q.asid va with
        | .ok w => s.cacheLeaf q.port q.asid w.page
        | .error k => s.holdReq q 3 k q.loops

/-- A window after a response with a sequence number and mark (05 R104). -/
def PortWin.response (w : PortWin) (seq : Nat) (mark : Bool) : PortWin :=
  if mark && decide (w.epoch ≤ seq) then { w with w := max 1 (w.w / 2), epoch := w.next, clean := 0 }
  else if mark then w
  else if w.w ≤ w.clean + 1 then { w with w := min 64 (w.w + 1), clean := 0 }
  else { w with clean := w.clean + 1 }

/-- The response of request seq of a port and class comes back with the mark that the request took, once the request is over or held: one
less is outstanding (05 R104). -/
def State.respond (s : State) (port : PortId) (cls seq : Nat) : State :=
  let w := s.window port cls
  let out := s.net.reqs.any fun q => q.port = port && (match q.sent with
    | some x => x.parts.any fun y => y.1 = cls && y.2.1 = seq
    | none => false)
  match w.out.find? fun y => y.1 = seq with
  | none => s
  | some y => if out then s else s.putWindow (({ w with out := w.out.filter fun z => z.1 ≠ seq } : PortWin).response seq y.2)

/-- A port that received "moved" re-translates the access and re-issues it in its place: until then the younger ones of its stream stay
behind it (10 R218). -/
def State.reissue (s : State) (id : Nat) : State :=
  match s.req? id with
  | none => s
  | some q => if q.st = .moved then ((s.undrain id).forget q).modReq id fun y => { y with st := .again, sent := none, trans := [] } else s

/-- STORE_PERFORM (10 R212). -/
def execStorePerform (s : State) : Result State := .next (s.storePerform s.sched.subject.id s.sched.subject.ext)
/-- LOAD_RETURN (11 R243). -/
def execLoadReturn (s : State) : Result State := .next (s.loadReturn s.sched.subject.id s.sched.subject.ext)
/-- ATOMIC_PERFORM (17 R311). -/
def execAtomicPerform (s : State) : Result State := .next (s.atomicPerform s.sched.subject.id s.sched.subject.ext)
/-- RELEASE_INCREMENT (11 R250). -/
def execReleaseIncrement (s : State) : Result State := .next (s.releaseIncrement s.sched.subject.id s.sched.subject.ext)
/-- PAGE_WALK_COMPLETE (10 R207). -/
def execPageWalkComplete (s : State) : Result State := .next (s.walkDone s.sched.subject.id)
/-- PORT_WINDOW_UPDATE (05 R104). -/
def execPortWindowUpdate (s : State) : Result State :=
  let x := s.sched.subject
  .next (s.respond x.port x.k x.id)
/-- MOVED_REISSUE (10 R218). -/
def execMovedReissue (s : State) : Result State := .next (s.reissue s.sched.subject.id)
/-- LK_ERR_READ (18 R332). -/
def execLkErrRead (s : State) : Result State :=
  let p := s.sched.subject.k
  .next (if p < 18 then (s.sysRead (0x2100 + 8 * p)).emit (.hostReg (0x2100 + 8 * p) (s.sysWord (0x2100 + 8 * p))) else s)

end Sys2Proof.Machine
end

