-- ==== Sys2Proof/Machine/HostMem.lean ====
section
/-! DEFINITION. Invalidations and moves of pages, the HBM bands, and memory as the host and peers reach it (10 R215 to R222; 18 R325,
R334; 20 R358 to R361). -/
namespace Sys2Proof.Machine

/-! ### Invalidation (20 R358, R359) -/

/-- The bytes of a block's image. -/
def Block.bytes (b : Block) : Nat := 12 * (1 + b.nodes.length + b.exits.length + b.ins.length)

/-- The decoded blocks that units keep or fetched ahead without those whose image lies in a range of an ASID, or in a dropped global page. -/
def State.dropBlocks (s : State) (asid : BitVec 16) (va n : Nat) (global : List Page) : State :=
  let lies (b : Block) : Bool := rangesMeet (b.ptr.toNat * 64, b.bytes) (va, n)
  let named (k : Nat × Block) : Bool :=
    lies k.2 && ((s.ctx k.1).asid = asid || global.any fun p => p.meets (k.2.ptr.toNat * 64) k.2.bytes)
  { s with cells := s.cells.map fun y => (y.1, { y.2 with kept := y.2.kept.filter (fun k => !(named k)), ahead := y.2.ahead.filter fun k => !(named k) }) }

/-- Every port cache and walker drops what a range of an ASID names, and units the decoded blocks there. -/
def State.dropPages (s : State) (asid : BitVec 16) (va n : Nat) : State :=
  let gone := s.net.cache.filter fun e => e.page.named e.asid asid va n
  let s1 := s.dropBlocks asid va n ((gone.map (·.page)).filter fun p => pteGlobal p.leaf)
  { s1 with net := { s1.net with cache := s1.net.cache.filter fun e => !(e.page.named e.asid asid va n) } }

/-- The requests translated through what a range of an ASID names and still to be performed. -/
def State.through (s : State) (asid : BitVec 16) (va n : Nat) : List Nat :=
  (s.net.reqs.filter fun q => !q.st.stopped && q.trans.any fun p => p.named q.asid asid va n).map (·.id)

/-- A committed TLBI takes effect once the stores below it are there. -/
def State.invalidate (s : State) (id : Nat) : State :=
  match s.net.tlbis.find? fun t => t.id = id with
  | none => s
  | some t =>
    if t.done || !(s.over t.after) then s
    else
      let ids := s.through t.asid t.range.1 t.range.2
      let s1 := s.dropPages t.asid t.range.1 t.range.2
      { s1 with net := { s1.net with
        tlbis := s1.net.tlbis.map fun y => if y.id = id then { y with done := true, drain := ids } else y } }

/-- A request is refused or over. -/
def State.refusedOrOver (s : State) (id : Nat) : Bool := !(s.net.reqs.any fun q => q.id = id && !q.st.stopped)

/-- A TLBI has drained once every access through an entry that it dropped is performed or refused. -/
def State.drained (s : State) (id : Nat) : State :=
  match s.net.tlbis.find? fun t => t.id = id with
  | none => s
  | some t =>
    if t.done && t.drain.all s.refusedOrOver then
      { s with net := { s.net with tlbis := s.net.tlbis.filter fun y => y.id ≠ id } }
    else s

/-! ### Migration (10 R217; 20 R361) -/

/-- A number moved from a range to the like place of another. -/
def moved (src dst x : Nat) : Nat := dst + (x - src)

/-- A number lies in a range. -/
def inSpan (lo n x : Nat) : Bool := decide (lo ≤ x) && decide (x < lo + n)

/-- The cells of a memory with a range replaced. -/
def Memory.replace (m : Memory) (lo n : Nat) (l : List Host.Cell) : Memory :=
  l.foldl (fun t c => Memory.set t c.1 c.2) (m.filter fun c => !(inSpan lo n c.1))

/-- The n bytes of a frame copied to another, with tags and poison; what the other held is gone. -/
def State.copyFrame (s : State) (src dst n : Nat) : State :=
  let mine (x : Nat) : Bool := inSpan src n x
  let other (x : Nat) : Bool := !(inSpan dst n x)
  let go (l : List Nat) : List Nat := l.filter other ++ (l.filter mine).map (moved src dst)
  { s with
    mem := s.mem.replace dst n ((s.mem.filter fun c => mine c.1).map fun c => (moved src dst c.1, c.2))
    net := { s.net with
      captags := go s.net.captags
      poison := go s.net.poison
      structs := s.net.structs.filter fun x => other x.1 } }

/-- The structure states of a frame moved to another (10 R219). -/
def State.moveStructs (s : State) (src dst n : Nat) : State :=
  { s with net := { s.net with structs := s.net.structs.map fun x => if inSpan src n x.1 then (moved src dst x.1, x.2) else x } }

/-- The key of a leaf's frame inside the device; none where the host or a peer holds it. -/
def frameKey (leaf : Word) : Option Nat :=
  match pteTier leaf with
  | 0 => some (hbmKey (ptePa leaf))
  | 1 => some (croftKey (ptePa leaf))
  | _ => none

/-- The message that carries bytes to a frame of the host or a peer. -/
def frameMsg (leaf : Word) (off : Nat) (l : List Byte) : OutMsg :=
  let pa := ptePa leaf + off
  if pteTier leaf = 3 then .space3 (pa / 2 ^ 34) (pa % 2 ^ 34) (.store (.bytes l)) else .space4 pa (.store (.bytes l))

/-- The next n bytes of a moving page copied to its new frame; from outside as they answer. -/
def State.copyPart (s : State) (m : Migration) (n : Nat) (bytes : List Byte) : State :=
  let off := 64 * m.copied
  match frameKey m.old, frameKey m.new with
  | some a, some b => if a = b then s else s.copyFrame (a + off) (b + off) n
  | none, some b => s.writeAt (b + off) ((List.range n).map fun i => bytes.getD i 0)
  | some a, none => s.sendOut (frameMsg m.new off (Memory.bytes s.mem (a + off) n))
  | none, none => s.sendOut (frameMsg m.new off (bytes.take n))

/-- Every access through a page, and every one held at its old frame, is refused with "moved" (10 R217). -/
def State.refuseMoved (s : State) (asid : BitVec 16) (va n : Nat) : State :=
  let ids := s.through asid va n
  let named (q : Req) : Bool := q.st.goes && (ids.contains q.id || s.copiedOver q)
  { s with net := { s.net with reqs := s.net.reqs.map fun q => if named q then { q with st := .moved, sent := none, trans := [] } else q } }

/-- The switch of a migration whose page is copied: the entry still as MIGR wrote it takes the new leaf; else the old frame stays. -/
def State.switch (s : State) (m : Migration) : State :=
  let off (t : State) : State := { t with net := { t.net with migs := t.net.migs.filter fun y => y.id ≠ m.id } }
  if s.wordAt m.pte = m.old then
    let s1 := match frameKey m.old, frameKey m.new with
      | some a, some b => s.moveStructs a b m.size
      | _, _ => s
    let s2 := s1.writeAt (hbmKey m.pte) (natBytes (m.new &&& ~~~16#64).toNat 8)
    (off ((s2.refuseMoved m.asid m.va m.size).dropPages m.asid m.va m.size)).raise m.die 3 (Config.eventToken 3 m.va 0)
  else (off (s.refuseMoved m.asid m.va m.size)).raise m.die 3 (Config.eventToken 3 m.va 6)

/-- A migration goes on: it copies the next courses of its page, k of them and at least one, and with all copied it switches (10 R217; 20
R361; log 111). -/
def State.migrate (s : State) (id k : Nat) (bytes : List Byte) : State :=
  match s.net.migs.find? fun m => m.id = id with
  | none => s
  | some m =>
    let left := m.size / 64 - m.copied
    if left = 0 then s.switch m
    else
      let n := min (max 1 k) left
      let t := s.copyPart m (64 * n) bytes
      { t with net := { t.net with migs := t.net.migs.map fun y => if y.id = id then { y with copied := y.copied + n } else y } }

/-! ### The HBM bands (10 R221, R222) -/

/-- The band thresholds in 1/16 degree. -/
def bandLimits : List Nat := [1360, 1520, 1680]

/-- The band after a sample: a threshold passed raises it, one undercut by 2 degrees lowers it. -/
def nextBand (band t : Nat) : Nat :=
  let up := (bandLimits.filter fun x => decide (x < t)).length
  let down := (bandLimits.filter fun x => decide (x - 32 < t)).length
  max up (min band down)

/-- The temperature of a stack changes. -/
def State.bandChange (s : State) (k : Nat) (t : BitVec 16) : State :=
  let x := s.stack k
  let b := nextBand x.band.toNat t.toNat
  let hot := decide (b = 3) && x.band ≠ 3
  let s1 : State := { s with fab := { s.fab with
    hbm := modAt s.fab.hbm k fun y => { y with temp := t, band := BitVec.ofNat 2 b, hot := y.hot || hot } } }
  if hot && decide (k < 8) then s1.raise keystone 10 (0#480 ++ t ++ 0#13 ++ BitVec.ofNat 3 k) else s1

/-! ### The host (10 R216; 18 R325) -/

/-- An HDM offset that reaches nothing: outside the window, or beyond the interleaved range of its stack. -/
def hdmVoid (off : Nat) : Bool :=
  decide (2 ^ 39 + 2 ^ 41 ≤ off) || (decide (off < 2 ^ 39) && decide (Config.range ≤ off % 2 ^ 36 / 4096))

/-- A page as a home slice knows it, by its frame. -/
structure PageKind where
  key   : Nat
  size  : Nat
  typed : Bool
  cmp   : Bool
  deriving DecidableEq, Repr, Inhabited

/-- The entries of a table of n words that are not zero. -/
def State.entries (s : State) (table n : Nat) : List Nat :=
  ((s.mem.filter fun c => inSpan (hbmKey table) (8 * n) c.1).map fun c => (c.1 - hbmKey table) / 8).dedup

/-- The pages of the device that a table of a level maps, as the walk finds them (10 R204 to R206). -/
def State.pagesFrom (s : State) (level table : Nat) : List PageKind :=
  (s.entries table (if level = 5 then 32768 else 512)).flatMap fun i =>
    let pte := table + 8 * i
    let e := s.wordAt pte
    if !(pteValid e) then []
    else if pteLeaf e then
      (match leafBad s level pte e, frameKey e with
       | false, some k => [⟨k, levelSize level, pteTyped e, pteCmp e⟩]
       | _, _ => [])
    else if slice e 2 10 ≠ 0 then []
    else match level with
      | 0 => []
      | n + 1 => s.pagesFrom n (ptePa e)

/-- The pages of the device that the tables of every ASID map (log 27). -/
def State.pages (s : State) : List PageKind :=
  (s.entries s.net.asidTab 65536).flatMap fun i =>
    let e := s.wordAt (s.net.asidTab + 8 * i)
    if pteValid e then s.pagesFrom 5 (ptePa e) else []

/-- The n bytes from a key meet a page that meets a test (log 27). -/
def State.meetsPage (s : State) (p : PageKind → Bool) (key n : Nat) : Bool :=
  s.pages.any fun k => p k && rangesMeet (k.key, k.size) (key, n)

/-- The packed image of a granule (10 R215). -/
def State.packed (s : State) (base : Nat) : List Byte :=
  let cs := (List.range 64).map fun i => courseBytes (s.courseAt (base + 64 * i))
  let here (l : List Byte) : Bool := !(crsZ (bytesCourse l))
  let whole := (cs.filter here).flatten
  let heads := (cs.filter fun l => !(here l)).flatMap fun l => l.take 2 ++ l.drop 62
  let img := whole ++ heads
  img ++ List.replicate (4096 - img.length) 0

/-- A byte as the host reads it. -/
def State.hostByte (s : State) (off : Nat) : Byte :=
  if s.meetsPage (·.cmp) off 1 then (s.packed (off / 4096 * 4096)).getD (off % 4096) 0 else s.byteAt off

/-- A CXL.mem read of n bytes. -/
def State.hostRead (s : State) (off n : Nat) : State :=
  let bad := (span off n).any fun x => hdmVoid x || s.net.poison.contains (x / 8 * 8)
  s.emit (if bad then .hostRead off true [] else .hostRead off false ((span off n).map s.hostByte))

/-- Z of the course at a key set by its payload (03 R47). -/
def State.resetZ (s : State) (key : Nat) : State :=
  s.putMem (Memory.store s.mem key (courseBytes (withZ (BitVec.ofNat 512 (Memory.num s.mem key 64)))))

/-- The payload of an event that names an HDM offset. -/
def hdmPayload (off : Nat) : Course := BitVec.ofNat 512 (off % 2 ^ 42)

/-- Bytes from an HDM offset meet the courses of a moving page that are copied already (10 R217). -/
def State.copiedHdm (s : State) (off n : Nat) : Bool :=
  if off < 2 ^ 39 then s.copiedAt 0 off n else s.copiedAt 1 (off - 2 ^ 39) n

/-- A CXL.mem write: at its home slice it merges, has no effect, or is discarded; one to a course of a moving page that is copied is held
there until the switch (10 R217). -/
def State.hostWrite (s : State) (off : Nat) (l : List Byte) : State :=
  let n := l.length
  if n = 0 || (span off n).any hdmVoid || s.copiedHdm off n then s
  else if s.meetsPage (·.cmp) off n then s.raise keystone 12 (hdmPayload off)
  else if s.deferredIn off n then s.raise keystone 13 (hdmPayload off)
  else
    let s1 := s.writeAt off l
    ((span (off / 64) ((off + n - 1) / 64 - off / 64 + 1)).filter fun i => s.meetsPage (·.typed) (64 * i) 64).foldl (fun t i => t.resetZ (64 * i)) s1

/-! ### Peers (18 R334) -/

/-- What a peer's store asks. -/
def peerData (o : PeerOp) : Option StoreData :=
  match o with
  | .bytes l => some (.bytes l)
  | .course c => some (.course c)
  | .narrow c => some (.narrow c)
  | .masked ty m c => some (.masked ty m c)
  | .scalar ty v => some (.scalar ty v)
  | .pair p tagged => some (.pair p tagged)
  | .area l => some (.area l)
  | .packed l => some (.packed l)
  | .load _ | .atomic _ _ _ _ _ | .release | .append _ _ | .length _ _ _ => none

/-- A peer's request as a request of a link port under ASID 0xFFFF. -/
def peerReq (r : PeerReq) : Req :=
  let kind : ReqKind :=
    match r.op with
    | .load n => .load n false
    | .atomic fn ty b e c => .atomic fn ty b e c none
    | .release => .release
    | .append pos vs => .kvapp pos vs
    | .length layer n p => .kvlen layer n p
    | o => .store ((peerData o).getD (.bytes []))
  ⟨0, ⟨4, 0⟩, 0, 0, 0, .newel 0, 0, 0, 0, 0, 0, 0, r.off, 0xFFFF, kind, .waiting, none, [], ⟨[], []⟩, []⟩

/-- The state after what a peer asked, or its refusal: the code alone goes back (18 R334). -/
def State.peerDone (s : State) (r : Except (Nat × Nat) State) : State × Nat × List Byte :=
  match r with
  | .ok t => (t, 0, [])
  | .error e => (s, e.2, [])

/-- Every n-th place of a list. -/
def everyNth (l : List Spot) (n : Nat) : List Spot := (l.zipIdx.filter fun x => x.2 % n = 0).map (·.1)

/-- A peer's request performed at its places, the first of them x, as a space 0 access would be: the state, the code of a refusal, the bytes
that its response brings. -/
def State.peerAt (s : State) (q : Req) (spots : List Spot) (x : Spot) : State × Nat × List Byte :=
  let bad := spots.any fun y => s.net.poison.contains (y.key / 8 * 8)
  match q.kind with
  | .store d =>
    (match s.storeRefusal 0 d q.addr x with
     | some (_, code) => (s, code, [])
     | none => (s.storeAt d q.addr x, 0, []))
  | .atomic fn ty b e c _ =>
    (match s.atomicRefusal q ty c.isSome x with
     | some (_, code) => (s, code, [])
     | none =>
       if bad then (s, 3, [])
       else
         let y := s.atomicAt x.key fn ty b e c
         (y.1, 0, natBytes y.2.1.bits.toNat (tySize ty)))
  | .load n _ =>
    if bad then (s, 3, [])
    else
      let l := spots.map fun y => s.byteAt y.key
      let whole := x.typed && x.key % 64 = 0 && n % 64 = 0
      (s, 0, if whole then mapCourses (n / 64) (fun c => withZ (effective c)) l else l)
  | .release => s.peerDone (s.releaseAt x)
  | .kvapp pos vs =>
    let keys := everyNth spots 64
    let old := keys.flatMap fun y => courseBytes (s.courseAt y.key)
    let r := s.peerDone ((s.appendAt keys pos vs).map (·.1))
    (r.1, r.2.1, if r.2.1 = 0 then old else [])
  | .kvlen layer n p => s.peerDone (s.lengthAt (everyNth spots 8) layer n p)
  | _ => (s, 0, [])

/-- A space 3 request of another device: translated, performed, answered; a leaf outside the device passes it on. -/
def State.peerRequest (s : State) (r : PeerReq) (ext : Ext) : State :=
  let q := peerReq r
  let answer (t : State) (code : Nat) (typed : Bool) (l : List Byte) : State := t.sendOut (.reply r.src code typed l)
  match s.portSpots q q.kind.size q.kind.need with
  | .error (_, code, _) => answer s code false []
  | .ok spots =>
    match spots.find? fun x => !x.inside with
    | some x =>
      (match s.extRefusal (x.message q.kind) ext with
       | some k => answer s k false []
       | none => answer (s.sendOut (x.message q.kind)) 0 (x.typed || ext.typed) ext.data)
    | none =>
      match spots with
      | [] => answer s 0 false []
      | x :: _ =>
        let y := s.peerAt q spots x
        if q.kind.need ≠ .load && s.copiedAt x.tier x.pa q.kind.size then s else answer y.1 y.2.1 (spots.all (·.typed)) y.2.2

/-- MIGRATION_SWITCH (20 R361). -/
def execMigrationSwitch (s : State) : Result State := .next (s.migrate s.sched.subject.k s.sched.subject.len s.sched.subject.bytes)
/-- TLBI_INVALIDATE (20 R358). -/
def execTlbiInvalidate (s : State) : Result State := .next (s.invalidate s.sched.subject.k)
/-- TLBI_DRAIN_COMPLETE (20 R359). -/
def execTlbiDrainComplete (s : State) : Result State := .next (s.drained s.sched.subject.k)
/-- HBM_BAND_CHANGE (10 R221). -/
def execHbmBandChange (s : State) : Result State :=
  .next (s.bandChange s.sched.subject.k (slice s.sched.subject.data 0 16))
/-- HOST_MEM_READ (18 R325). -/
def execHostMemRead (s : State) : Result State := .next (s.hostRead s.sched.subject.off s.sched.subject.len)
/-- HOST_MEM_WRITE (18 R325). -/
def execHostMemWrite (s : State) : Result State := .next (s.hostWrite s.sched.subject.off s.sched.subject.bytes)
/-- PEER_REQUEST (18 R334). -/
def execPeerRequest (s : State) : Result State := .next (s.peerRequest s.sched.subject.peer s.sched.subject.ext)

end Sys2Proof.Machine
end

