-- ==== Sys2Proof/Machine/Image.lean ====
section
/-! DEFINITION. The graph image as CTXL reads it: its parts, and what makes it an image that CTXL refuses with status 5 (06 R404; 17
R307; 18 R337). -/
namespace Sys2Proof.Machine

/-! ### Fields -/

/-- A section descriptor: offset, length and entry count. -/
structure Section where
  off   : Nat
  len   : Nat
  count : Nat
  deriving DecidableEq, Repr, Inhabited

/-- Section i of an image. -/
def sectionAt (l : List Byte) (i : Nat) : Section :=
  ⟨fieldAt l (64 + 16 * i) 8, fieldAt l (72 + 16 * i) 4, fieldAt l (76 + 16 * i) 4⟩

/-- The bytes of an entry of each section; 0 where a section has no table. -/
def entrySize (i : Nat) : Nat := [64, 16, 0, 16, 32, 32, 0, 32, 32, 0, 0, 0].getD i 0

/-- The entries of section i, each as its bytes. -/
def entries (l : List Byte) (i : Nat) : List (List Byte) :=
  let t := sectionAt l i
  (List.range t.count).map fun k => (l.drop (t.off + entrySize i * k)).take (entrySize i)

/-- A signed field of n bytes. -/
def signedAt (l : List Byte) (off n : Nat) : Int := (BitVec.ofNat (8 * n) (fieldAt l off n)).toInt

/-- The bytes of a list from a to b are zero. -/
def zeroBytes (l : List Byte) (a b : Nat) : Bool := (l.drop a).take (b - a) |>.all fun x => x = 0

/-- The space that the sections take, in the image. -/
def sectionSpans (l : List Byte) : List (Nat × Nat) := (List.range 9).map fun i => ((sectionAt l i).off, (sectionAt l i).len)

/-- No two of a list of ranges share a byte. -/
def disjointSpans (l : List (Nat × Nat)) : Bool :=
  match l with
  | [] => true
  | x :: t => (t.all fun y => x.2 = 0 || y.2 = 0 || !(rangesMeet x y)) && disjointSpans t

/-- A section is as R404 wants it, in an image of n bytes. -/
def sectionOk (l : List Byte) (n i : Nat) : Bool :=
  let t := sectionAt l i
  if t.count = 0 then t.off = 0 && t.len = 0
  else decide (256 ≤ t.off) && decide (t.off + t.len ≤ n) && (i = 6 || t.off % 64 = 0) &&
    (i = 2 || i = 6 || t.len = entrySize i * t.count)

/-! ### Entries -/

/-- A tile declaration: L to 7, T a power of two from 2^L to 128 (04 R85). -/
def tileLimits (haar tile : Nat) : Bool := decide (haar ≤ 7) && [1, 2, 4, 8, 16, 32, 64, 128].contains tile && decide (2 ^ haar ≤ tile)

/-- A number of 48 bits, sign-extended. -/
def in48 (x : Int) : Bool := decide (-(2 ^ 47 : Int) ≤ x) && decide (x < 2 ^ 47)

/-- An operator entry. -/
def readOp (e : List Byte) : OpDesc where
  entry := fieldAt e 0 2
  nblocks := fieldAt e 2 2
  rtfBlock := if fieldAt e 4 1 = 1 then some (fieldAt e 20 2) else none
  clonable := bit (BitVec.ofNat 8 (fieldAt e 5 1)) 0
  trap := bit (BitVec.ofNat 8 (fieldAt e 5 1)) 1
  state := fieldAt e 5 1 / 4 % 4
  origin := if bit (BitVec.ofNat 8 (fieldAt e 5 1)) 4 then some (signedAt e 32 8) else none
  bay := if fieldAt e 6 2 = 0xFFFF then none else some (fieldAt e 6 2)
  newel := if fieldAt e 8 1 = 0xFF then none else some (fieldAt e 8 1)
  m := fieldAt e 10 2
  a := signedAt e 12 4
  b := signedAt e 16 4
  d := fieldAt e 9 1
  landing := fieldAt e 24 8

/-- An operator entry breaks its limits, in an image with n blocks (04 R83, R90; 06 R404; 14 R278; 21 R365). -/
def opBad (e : List Byte) (n : Nat) : Bool :=
  let o := readOp e
  !(zeroBytes e 22 24) || !(zeroBytes e 40 64) || decide (32 ≤ fieldAt e 5 1) || decide (1 < fieldAt e 4 1) || o.state = 3 ||
  o.nblocks = 0 || decide (n < o.entry + o.nblocks) || decide (15 < o.d) ||
  ((o.rtfBlock.map fun k => decide (n ≤ k)).getD false) || ((o.bay.map fun k => decide (448 ≤ k)).getD false) ||
  ((o.newel.map fun k => decide (4 ≤ k)).getD false) ||
  (o.state = 2 && (o.landing = 0 || decide (2 ^ 32 < o.landing) || o.clonable)) ||
  ((o.origin.map fun t => !(in48 t)).getD false)

/-- The virtual address of a section: its at= address, or the base plus its offset. -/
def placeVa (base off at_ : Nat) : Nat := if at_ = 0 then base + off else at_

/-- A block entry with its image; none where its header or block check fails (06 R110, R120). -/
def readBlk (l : List Byte) (base : Nat) (e : List Byte) : Option BlkDesc :=
  let off := fieldAt e 0 4
  let at_ := fieldAt e 8 8
  let ptr : BlockPtr := BitVec.ofNat 66 (placeVa base off at_ / 64)
  (looseBlock ptr (l.drop off)).map fun b => ⟨ptr, fieldAt e 4 2, off, at_, b⟩

/-- A block entry breaks its limits, in an image with n operators; only an operator of a Newel places a block (22 R387). -/
def blkBad (l e : List Byte) (n : Nat) (ops : List OpDesc) : Bool :=
  let off := fieldAt e 0 4
  let t := sectionAt l 2
  !(zeroBytes e 6 8) || decide (n ≤ fieldAt e 4 2) || decide (off % 64 ≠ 0) || decide (fieldAt e 8 8 % 64 ≠ 0) ||
  decide (off < t.off) || decide (t.off + t.len ≤ off) ||
  (fieldAt e 8 8 ≠ 0 && ((ops.getD (fieldAt e 4 2) default).newel).isNone)

/-- A frame edge entry. -/
def readEdge (e : List Byte) : Edge where
  prod := fieldAt e 0 2
  oport := fieldAt e 2 1
  cons := if fieldAt e 3 1 = 1 then .sink (fieldAt e 4 2) else .op (fieldAt e 4 2) (fieldAt e 6 1)
  haar := fieldAt e 7 1
  tile := fieldAt e 8 1
  flight := []
  blocked := false
  dreg := ⟨[], none, 2 ^ fieldAt e 7 1, []⟩
  seen := []

/-- A frame edge entry breaks its limits, in an image with n operators. -/
def edgeBad (e : List Byte) (n : Nat) : Bool :=
  let x := readEdge e
  !(zeroBytes e 9 16) || decide (1 < fieldAt e 3 1) || decide (n ≤ x.prod) || decide (16 ≤ x.oport) || !(tileLimits x.haar x.tile) ||
  (match x.cons with
   | .op o i => decide (n ≤ o) || decide (16 ≤ i)
   | .sink k => decide (16 ≤ k) || fieldAt e 6 1 ≠ 0)

/-- A data section entry. -/
def readData (e : List Byte) : DataDesc :=
  ⟨fieldAt e 0 8, fieldAt e 8 4, if fieldAt e 12 1 = 1 then some (fieldAt e 16 8) else none⟩

/-- A data section entry breaks its limits. -/
def dataBad (l e : List Byte) : Bool :=
  let d := readData e
  let t := sectionAt l 6
  !(zeroBytes e 13 16) || !(zeroBytes e 24 32) || decide (1 < fieldAt e 12 1) ||
  (match d.at_ with
   | some va => decide (va % 64 ≠ 0)
   | none => fieldAt e 16 8 ≠ 0) ||
  (d.len ≠ 0 && (decide (d.off < t.off) || decide (t.off + t.len < d.off + d.len)))

/-- The kind of a ring entry. -/
def readKind (k : Nat) : RingKind := if k = 1 then .const else if k = 2 then .fibre else .stream

/-- The operator whose blocks write a ring or move its write cursor (12 R252). -/
def ringProducer (blocks : List BlkDesc) (none_ q : Nat) : Nat :=
  let writes (w : Record) : Bool :=
    match Op.ofCode (slice w 88 8) (slice w 84 4) (slice w 0 32) with
    | some o =>
      (o = .rwr || o = .wadv || o = .vcvt || o = .hfwd || o = .hinv || o = .ldq || o = .fibrd || o = .spfl) &&
      (o.ringFields (parseFields w)).contains q
    | none => false
  ((blocks.find? fun b => b.blk.nodes.any writes).map (·.op)).getD none_

/-- The slots of a ring as CTXL fills them: a const ring from its section (01 M21; 02 R29). -/
def ringSlots (l : List Byte) (kind : RingKind) (depth : Nat) (d : Option DataDesc) : List (Option Val) :=
  match kind, d with
  | .const, some s =>
    (List.range depth).map fun i =>
      let n := min 64 (s.len - 64 * i)
      some ⟨.course, bytesCourse ((l.drop (s.off + 64 * i)).take n), false⟩
  | _, _ => List.replicate depth none

/-- A ring entry. -/
def readRing (l : List Byte) (datas : List DataDesc) (blocks : List BlkDesc) (ops : Nat) (e : List Byte) : Ring :=
  let kind := readKind (fieldAt e 1 1)
  let depth := fieldAt e 2 2
  let data := if fieldAt e 8 2 = 0xFFFF then none else some (fieldAt e 8 2)
  { q := fieldAt e 0 1
    kind := kind
    depth := depth
    give := fieldAt e 4 1
    take := fieldAt e 5 1
    cons := fieldAt e 6 2
    prod := if kind = .const then ops else ringProducer blocks ops (fieldAt e 0 1)
    data := data
    haar := fieldAt e 10 1
    tile := fieldAt e 11 1
    slots := ringSlots l kind depth (data.bind fun i => datas[i]?)
    rd := 0
    wr := if kind = .const then depth else 0
    freed := 0
    dreg := ⟨[], none, 2 ^ fieldAt e 10 1, []⟩ }

/-- A ring entry breaks its limits; the rates and depth of stream and fibre rings are the loader's (05 R98; 15 R286). -/
def ringBad (e : List Byte) (ops datas : Nat) : Bool :=
  let kind := fieldAt e 1 1
  let rates := fieldAt e 4 1 ≠ 0 || fieldAt e 5 1 ≠ 0
  !(zeroBytes e 12 32) || decide (2 < kind) || decide (16 ≤ fieldAt e 0 1) || decide (ops ≤ fieldAt e 6 2) ||
  !(tileLimits (fieldAt e 10 1) (fieldAt e 11 1)) || (kind ≠ 0 && rates) ||
  (if kind = 1 then decide (datas ≤ fieldAt e 8 2) else fieldAt e 8 2 ≠ 0xFFFF)

/-- A region-table entry (17 R307). -/
def readRegion (e : List Byte) : Region :=
  let w := BitVec.ofNat 256 (bytesNat e)
  ⟨(slice w 0 72).toNat, (slice w 72 56).toNat, (slice w 128 72).toNat, (slice w 200 3).toNat⟩

/-- A region-table entry breaks R307 by itself. -/
def regionBad (e : List Byte) : Bool :=
  let r := readRegion e
  let w := BitVec.ofNat 256 (bytesNat e)
  slice w 203 53 ≠ 0 || r.level = 0 || r.level = 6 || r.level = 7 || decide (r.obj % 8 ≠ 0) || r.len = 0 || decide (r.len % 64 ≠ 0) ||
  decide (r.base % 64 ≠ 0)

/-- The region table of an image breaks R307, beside the tables of other resident images. -/
def regionsBad (rs others : List Region) : Bool :=
  !(disjointSpans (rs.map fun r => (r.base, r.len))) ||
  (rs.any fun r => rs.any fun x => inSpan x.base x.len r.obj) ||
  rs.any fun r => others.any fun x => rangesMeet (r.base, r.len) (x.base, x.len) && r.obj ≠ x.obj

/-- A demand entry. -/
def readDemand (e : List Byte) : Nat × Ival := (fieldAt e 0 1, ⟨signedAt e 8 8, signedAt e 16 8⟩)

/-- A demand entry breaks its limits. -/
def demandBad (e : List Byte) : Bool :=
  let d := readDemand e
  !(zeroBytes e 1 8) || !(zeroBytes e 24 32) || decide (16 ≤ d.1) || !(in48 d.2.lo) || !(in48 d.2.hi)

/-! ### The whole image -/

/-- The header of an image, from its first 256 bytes (06 R404). -/
structure ImageHead where
  good   : Bool
  length : Nat
  base   : Nat
  launch : Word
  deriving DecidableEq, Repr, Inhabited

/-- The header read: good where magic, version, hlen, length and the zero bytes are as the header table gives them. -/
def readHead (l : List Byte) : ImageHead :=
  let n := fieldAt l 8 8
  ⟨fieldAt l 0 4 = 0x3158424C && fieldAt l 4 2 = 1 && fieldAt l 6 2 = 256 && decide (256 ≤ n) && decide (n ≤ 2 ^ 30) &&
     zeroBytes l 36 64 && zeroBytes l 208 256,
   n, fieldAt l 16 8, BitVec.ofNat 64 (fieldAt l 24 8)⟩

/-- An operator's blocks are its own, consecutive. -/
def blocksOwn (ops : List OpDesc) (owners : List Nat) : Bool :=
  ops.zipIdx.all fun x => (span x.1.entry x.1.nblocks).all fun k => owners[k]? = some x.2

/-- The tables of an image break R404. -/
def tablesBad (l : List Byte) (n : Nat) : Bool :=
  let ops := (sectionAt l 0).count
  let blks := (sectionAt l 1).count
  let datas := (sectionAt l 5).count
  let rings := (entries l 4).map fun e => fieldAt e 0 1
  ((List.range 9).any fun i => !(sectionOk l n i)) || !(disjointSpans (sectionSpans l)) ||
  ((entries l 0).any fun e => opBad e blks) || ((entries l 1).any fun e => blkBad l e ops ((entries l 0).map readOp)) ||
  ((entries l 3).any fun e => edgeBad e ops) || ((entries l 4).any fun e => ringBad e ops datas) || rings.dedup ≠ rings ||
  ((entries l 5).any fun e => dataBad l e) || decide (256 < (sectionAt l 7).count) || ((entries l 7).any regionBad) ||
  ((entries l 8).any demandBad) || !(blocksOwn ((entries l 0).map readOp) ((entries l 1).map fun e => fieldAt e 4 2))

/-- The image at an address, from its bytes; none where CTXL refuses it with status 5. Demands that ask for no time, or for more
than 4 096, are not posted (04 R81). A last partial word counts filled with zeros (log 160). -/
def readImage (cursor : Nat) (others : List Region) (l : List Byte) : Option Image :=
  let h := readHead l
  let regions := (entries l 7).map readRegion
  if !h.good || decide (h.base % 4096 ≠ 0) || h.base ≠ cursor || tablesBad l h.length || wordSum (l.length / 4 + 1) l ≠ 0 ||
      regionsBad regions others then none
  else
    match (entries l 1).mapM (readBlk l h.base) with
    | none => none
    | some blocks =>
      let ops := (entries l 0).map readOp
      let datas := (entries l 5).map readData
      some
        { base := h.base
          length := h.length
          launch := h.launch
          bytes := l
          ops := ops
          blocks := blocks
          edges := (entries l 3).map readEdge
          rings := (entries l 4).map (readRing l datas blocks ops.length)
          datas := datas
          regions := regions
          demands := ((entries l 8).map readDemand).filter fun d => decide (d.2.lo ≤ d.2.hi) && decide (d.2.hi - d.2.lo < 4096) }

end Sys2Proof.Machine
end

