-- ==== Sys2Proof/Machine/Placement.lean ====
section
/-! DEFINITION. The loader's placement and its checks: partition and placement, status codes 2 and 4 (04 R72; 05 R95 to R98; 11 R226,
R228, R238; 13 R260, R262; 14 R278; 15 R286, R287, R292; 17 R314 to R319; 21 R365; 23 R392). -/
namespace Sys2Proof.Machine

/-! ### Placement (05 R97; 14 R278; 21 R365; log 8) -/

/-- The node records of a block that name a form, with their fields. -/
def BlkDesc.forms (b : BlkDesc) : List (Op × Rec) :=
  b.blk.nodes.filterMap fun w => (Op.ofCode (slice w 88 8) (slice w 84 4) (slice w 0 32)).map fun o => (o, parseFields w)

/-- Two operators are the ends of a fibre ring, and are never placed on one element (15 R286). -/
def Image.apart (i : Image) (o p : Nat) : Bool :=
  i.rings.any fun g => g.kind = .fibre && ((g.prod = o && g.cons = p) || (g.prod = p && g.cons = o))

/-- What the loader's choices depend on (05 R97): the places of the resident contexts, and the remap table, whatever the order in which its
entries were made. -/
def State.loaderSees (s : State) : List (List UnitId) × List Nat :=
  (s.ctxs.map (·.place), s.fab.dies.flatMap fun d => d.rows ++ sortBy id (d.elems.map fun e => e.1 * 9 + e.2))

/-- A matrix tile of an operator splits over two bays (05 R102; 13 R260). -/
def Image.splitsOp (i : Image) (o : Nat) : Bool :=
  i.blocks.any fun b => b.op = o && b.forms.any fun f => f.1 = .mzro && bit f.2.lit 25

/-- The bays whose link to the next is reserved for a context that is there (05 R102). -/
def Ctx.linkBays (x : Ctx) : List Nat :=
  if x.status = .absent then []
  else (x.image.blocks.zip x.place).filterMap fun y => if isElement y.2 && x.image.splitsOp y.1.op then some (unitBay y.2) else none

/-- The bays of some operators chosen in turn: as bay= names it, or of the loader's choice; of an operator whose tile splits, the first bay from
the chosen one on that has a neighbour to which its link is free, if there is one (05 R102; 13 R260). -/
def State.chooseBays (s : State) (i : Image) (links : List Nat) (l : List (OpDesc × Nat)) : List Nat :=
  match l with
  | [] => []
  | (d, o) :: t =>
    let first := Config.freeBay i.bytes s.loaderSees.1 s.loaderSees.2 o % Config.bays
    let able (b : Nat) : Bool := decide (b % 7 ≠ 6) && !(links.contains b)
    let bay := match d.bay with
      | some b => b
      | none =>
        if i.splitsOp o then (((List.range Config.bays).map fun k => (first + k) % Config.bays).find? able).getD first else first
    bay :: s.chooseBays i (if i.splitsOp o then bay :: links else links) t

/-- The bays of the operators of an image. The links that resident contexts and operators placed by bay= need are taken before the choice. -/
def State.bays (s : State) (i : Image) : List Nat :=
  let ops := i.ops.zipIdx
  let named := ops.filterMap fun x => if i.splitsOp x.2 then x.1.bay else none
  s.chooseBays i (s.ctxs.flatMap (·.linkBays) ++ named) ops

/-- The bay of an operator. -/
def State.bayFor (s : State) (i : Image) (o : Nat) : Nat := (s.bays i).getD o 0

/-- The sparse accumulators that a block names. -/
def BlkDesc.spas (b : BlkDesc) : List Nat := b.forms.filterMap fun f => if f.1 = .spacc || f.1 = .spfl then some (litSpa f.2) else none

/-- Two blocks are never placed on one element: their operators are the ends of a fibre ring (15 R286), or each names a sparse accumulator
that would be the other operator's too (02 R19; 15 R292; log 148). -/
def Image.parted (i : Image) (b y : BlkDesc) : Bool := i.apart b.op y.op || (b.op ≠ y.op && b.spas.any y.spas.contains)

/-- The unit of block n beside those placed before it; a bay that cannot hold it. -/
def State.placeBlock (s : State) (i : Image) (placed : List UnitId) (n : Nat) (b : BlkDesc) : Except Nat UnitId :=
  match ((i.ops[b.op]?).getD default).newel with
  | some d => .ok (.newel d)
  | none =>
    let bay := s.bayFor i b.op
    let first := Config.freeElement i.bytes s.loaderSees.1 s.loaderSees.2 n
    let free (e : Nat) : Bool := placed.zipIdx.all fun y =>
      y.1 ≠ .element (8 * bay + e) || !((i.blocks[y.2]?).any (i.parted b))
    match ((List.range 8).map fun k => (first + k) % 8).find? free with
    | some e => .ok (.element (8 * bay + e))
    | none => .error bay

/-- The blocks from number n placed in turn. -/
def State.placeFrom (s : State) (i : Image) (placed : List UnitId) (n : Nat) (l : List BlkDesc) : Except Nat (List UnitId) :=
  match l with
  | [] => .ok placed
  | b :: t =>
    match s.placeBlock i placed n b with
    | .error k => .error k
    | .ok u => s.placeFrom i (placed ++ [u]) (n + 1) t

/-- The places of the blocks of an image; a bay that cannot hold its blocks. -/
def State.placeImage (s : State) (i : Image) : Except Nat (List UnitId) := s.placeFrom i [] 0 i.blocks

/-- An image with its places and its partition claim, as the checks see it. -/
structure Placed where
  img   : Image
  place : List UnitId
  part  : Word
  deriving DecidableEq, Repr, Inhabited

/-- The bays of a placement. -/
def Placed.bays (p : Placed) : List Nat := (p.place.filterMap fun u => if isElement u then some (unitBay u) else none).dedup

/-- The unit of a block. -/
def Placed.unit (p : Placed) (n : Nat) : UnitId := p.place.getD n (.element 0)

/-- The bay of an operator: that of its entry block; 0xFFFF on a Newel. -/
def Placed.opBay (p : Placed) (o : Nat) : Nat :=
  let u := p.unit (((p.img.ops[o]?).map (·.entry)).getD 0)
  if isElement u then unitBay u else 0xFFFF

/-- Every record of every block: block, unit, form and fields. -/
def Placed.records (p : Placed) : List (BlkDesc × UnitId × Op × Rec) :=
  p.img.blocks.zipIdx.flatMap fun x => x.1.forms.map fun f => (x.1, p.unit x.2, f.1, f.2)

/-- The bay that a refusal reports for a unit (04 R71). -/
def reportBay (u : UnitId) : Nat := if isElement u then unitBay u else 0xFFFF

/-- The ring of an image. -/
def Image.ring? (i : Image) (q : Nat) : Option Ring := i.rings.find? fun g => g.q = q

/-! ### Partition (04 R72; 10 R201) -/

/-- The first bay of a placement in which the claims exceed 96 units, beside context c. -/
def State.partFault (s : State) (c : Nat) (p : Placed) : Option Nat :=
  p.bays.find? fun b =>
    let others := [0, 1, 2, 3].filter fun d => d ≠ c && (s.ctx d).status ≠ .absent && (s.ctx d).bays.contains b
    decide (96 < claimUnits p.part + sumNat (others.map fun d => claimUnits (s.ctx d).part))

/-! ### Rings (05 R98; 15 R286) -/

/-- The rates and depth of one ring break R98. -/
def ringRatesBad (g : Ring) : Bool :=
  match g.kind with
  | .stream =>
    g.give = 0 || decide (32 < g.give) || g.take = 0 || decide (32 < g.take) || g.depth = 0 || decide (4096 < g.depth) ||
    decide (g.depth < g.give + g.take - Nat.gcd g.give g.take)
  | .fibre => g.depth = 0 || decide (4096 < g.depth)
  | .const => false

/-- How far an offset of a ring's consumer may reach: its take rate, or its depth for a const or fibre ring. -/
def Ring.reach (g : Ring) : Nat := if g.kind = .stream then g.take else g.depth

/-- A ring source of a record lies beyond its ring's reach. -/
def Placed.offsetBad (p : Placed) (b : BlkDesc) (r : Rec) : Bool :=
  r.ringSources.any fun q =>
    match p.img.ring? q with
    | some g => (g.kind = .const || g.cons = b.op) && decide (g.reach ≤ (slice r.ax 8 5).toNat)
    | none => false

/-- The slots of the rings held in a bay: those whose consumer is there. -/
def Placed.ringSlots (p : Placed) (bay : Nat) : Nat :=
  sumNat (p.img.rings.map fun g => if p.opBay g.cons = bay then g.depth else 0)

/-- A positive rational as numerator and denominator, reduced. -/
def ratio (n d : Nat) : Nat × Nat := (n / max 1 (Nat.gcd n d), d / max 1 (Nat.gcd n d))

/-- The rates q(op) known so far carried over one ring. -/
def carryRate (l : List (Option (Nat × Nat))) (g : Ring) : List (Option (Nat × Nat)) :=
  match (l[g.prod]?).join, (l[g.cons]?).join with
  | some x, none => modAt l g.cons fun _ => some (ratio (x.1 * g.give) (x.2 * g.take))
  | none, some y => modAt l g.prod fun _ => some (ratio (y.1 * g.take) (y.2 * g.give))
  | _, _ => l

/-- The rates of all operators: carried over the rings until nothing changes, each operator still without one starting at 1. -/
def rates (rings : List Ring) (n fuel : Nat) (l : List (Option (Nat × Nat))) : List (Option (Nat × Nat)) :=
  match fuel with
  | 0 => l
  | k + 1 =>
    let l1 := (List.range n).foldl (fun t _ => rings.foldl carryRate t) l
    match indexOf? l1 fun x => x.isNone with
    | none => l1
    | some o => rates rings n k (modAt l1 o fun _ => some (1, 1))

/-- The stream rings of an image. -/
def Image.streams (i : Image) : List Ring := i.rings.filter fun g => g.kind = .stream

/-- The rates of an image's operators as rationals. -/
def Image.opRates (i : Image) : List (Nat × Nat) :=
  let n := i.ops.length
  (rates i.streams n (n + 1) (List.replicate n none)).map fun x => x.getD (1, 1)

/-- A ring that no positive rates balance. -/
def Image.unbalanced (i : Image) : Option Ring :=
  let l := i.opRates
  i.streams.find? fun g =>
    let x := l.getD g.prod (1, 1)
    let y := l.getD g.cons (1, 1)
    x.1 * g.give * y.2 ≠ y.1 * g.take * x.2

/-- The activations of each operator in a period of the balanced schedule. -/
def Image.period (i : Image) : List Nat :=
  let l := i.opRates
  let m := l.foldl (fun t x => Nat.lcm t x.2) 1
  let ns := l.map fun x => x.1 * (m / x.2)
  let g := ns.foldl Nat.gcd 0
  ns.map fun x => x / max 1 g

/-- One operator that can fire fires: what is left to fire, and the fill of the rings. -/
def fireOnce (rings : List Ring) (left fill : List Nat) : Option (List Nat × List Nat) :=
  let ok (o : Nat) : Bool := decide (0 < left.getD o 0) && (rings.zipIdx.all fun g =>
    (g.1.cons ≠ o || decide (g.1.take ≤ fill.getD g.2 0)) && (g.1.prod ≠ o || decide (fill.getD g.2 0 + g.1.give ≤ g.1.depth)))
  ((List.range left.length).find? ok).map fun o =>
    (modAt left o (· - 1),
     rings.zipIdx.map fun g => fill.getD g.2 0 - (if g.1.cons = o then g.1.take else 0) + (if g.1.prod = o then g.1.give else 0))

/-- A schedule runs to its end. -/
def runsOut (rings : List Ring) (fuel : Nat) (left fill : List Nat) : Bool :=
  match fuel with
  | 0 => true
  | n + 1 =>
    match fireOnce rings left fill with
    | none => left.all fun x => x = 0
    | some (l, f) => runsOut rings n l f

/-- One period of the balanced schedule completes. -/
def Image.live (i : Image) : Bool :=
  let l := (i.period.zipIdx).map fun x => if i.streams.any fun g => g.prod = x.2 || g.cons = x.2 then x.1 else 0
  runsOut i.streams (sumNat l + 1) l (i.streams.map fun _ => 0)

/-- The bay that the ring checks report. R71 asks for the bay where the failure arose: of several failures the first in the order of R98's
table counts, a ring's is that of its consumer, and liveness names none (log 147). -/
def Placed.ringFault (p : Placed) : Option Nat :=
  match p.img.rings.find? ringRatesBad with
  | some g => some (p.opBay g.cons)
  | none =>
    match p.records.find? fun x => p.offsetBad x.1 x.2.2.2 with
    | some x => some (reportBay x.2.1)
    | none =>
      match p.bays.find? fun b => decide ((slice p.part 16 8).toNat * 512 < p.ringSlots b) with
      | some b => some b
      | none =>
        match p.img.unbalanced with
        | some g => some (p.opBay g.cons)
        | none => if p.img.live then none else some 0xFFFF

/-! ### The rings that records name (09 R182; 11 R226, R244; 15 R287) -/

/-- A ring is there, of a kind, with an operator as its producer or consumer. -/
def Image.ringIs (i : Image) (q : Nat) (kinds : List RingKind) (prod : Bool) (o : Nat) : Bool :=
  match i.ring? q with
  | none => false
  | some g => kinds.contains g.kind && (g.kind = .const || (if prod then g.prod else g.cons) = o)

/-- A form that writes courses to a ring keeps within its rates: n courses in from AX, m out to LIT. -/
def Image.movesBad (i : Image) (o : Nat) (r : Rec) (n m : Nat) : Bool :=
  let (q, off, dq, doff) := ringMove r
  !(i.ringIs dq [.stream] true o) || decide (((i.ring? dq).map (·.give)).getD 0 < doff + m) ||
  (match i.ring? q with
   | some g => decide (g.reach < off + n)
   | none => true)

/-- A record names rings in a way that its form does not allow. -/
def Image.pairingBad (i : Image) (o : Nat) (f : Op) (r : Rec) : Bool :=
  let lit := (slice r.lit 0 4).toNat
  let ax := (slice r.ax 0 4).toNat
  match f with
  | .rrd => !(i.ringIs lit [.stream, .const, .fibre] false o)
  | .rwr | .wadv => !(i.ringIs lit [.stream, .fibre] true o)
  | .radv => !(i.ringIs lit [.stream, .fibre] false o)
  | .xsect => !(i.ringIs lit [.fibre] false o) || !(i.ringIs (slice r.lit 4 4).toNat [.fibre] false o)
  | .fibrd | .spfl => !(i.ringIs ax [.fibre] true o)
  | .fibwr => !(i.ringIs ax [.fibre] false o)
  | .hfwd | .hinv => let t := 2 ^ (slice r.lit 12 3).toNat; i.movesBad o r t t
  | .vcvt =>
    let src := ((Ty.ofCode (slice r.lit 9 4)).getD .f32).count
    let g := Nat.lcm src r.ty.count
    i.movesBad o r (g / src) (g / r.ty.count)
  | .stc =>
    (match i.ring? ax with
     | some g => decide (g.reach < (slice r.ax 8 5).toNat + stcCount r.ty)
     | none => true)
  | _ => false

/-! ### Frames, landings, nodes, barriers -/

/-- The block that a frame form names has no such port, is not in the bay of the block that names it (11 R228), or is of another operator
(02 R19; log 148). -/
def Placed.frameBad (p : Placed) (o : Nat) (u : UnitId) (f : Op) (r : Rec) : Bool :=
  let port := if f = .falloc || f = .ffree then 0 else litPort r
  if f = .falloc || f = .ffree || f = .flds || f = .fsts || f = .cmbi then
    match p.img.blocks[litBlock r]? with
    | none => true
    | some b => decide (b.blk.inputs ≤ port) || unitBay (p.unit (litBlock r)) ≠ unitBay u || b.op ≠ o
  else false

/-- A form that reads an accumulator node reads one that an MZRO of another operator names in its bay (02 R19; log 148). What MTASK and
MACC add to a node of another operator they do not read (13 R259). -/
def Placed.nodeBad (p : Placed) (o : Nat) (u : UnitId) (f : Op) (r : Rec) : Bool :=
  (f = .mrow || f = .meor || f = .mspl || f = .mqry) && p.records.any fun x =>
    x.2.2.1 = .mzro && unitBay x.2.1 = unitBay u && litNode x.2.2.2 = litNode r && x.1.op ≠ o

/-- A form that names an accumulator node. -/
def namesNode (f : Op) : Bool :=
  f = .mtask || f = .mrow || f = .macc || f = .meor || f = .mspl || f = .mrst || f = .mzro || f = .mqry

/-- A record breaks R365 for an operator placed by newel=: it names a ring, a node or a sparse accumulator. -/
def newelFormBad (f : Op) (r : Rec) : Bool :=
  namesNode f || f = .spacc || f = .spfl || f = .rfill || f = .stc || !((cursorUses f r).isEmpty)

/-- A record may not stand where it is placed (11 R238; 17 R314, R316; 21 R365). -/
def Placed.formBad (p : Placed) (b : BlkDesc) (u : UnitId) (f : Op) (r : Rec) : Bool :=
  let d := (p.img.ops[b.op]?).getD default
  (isNewel u && newelFormBad f r) || p.img.pairingBad b.op f r || p.frameBad b.op u f r || p.nodeBad b.op u f r ||
  ((f = .land || f = .lrest) && d.state ≠ 2) ||
  (f = .cmb && (p.img.edges.any fun e => e.prod = b.op && e.oport = (slice r.lit 0 4).toNat && (match e.cons with
    | .sink _ => true
    | .op _ _ => false))) ||
  (f = .barv && slice r.lit 7 9 ≠ 0x1FF && !(p.bays.contains (slice r.lit 7 9).toNat)) ||
  ((f = .mtask || f = .mldb) && slice p.part 24 8 = 0)

/-- An operator placed by newel= breaks R365. -/
def Placed.newelBad (p : Placed) : Bool :=
  (p.img.ops.zipIdx.any fun x => x.1.newel.isSome && (x.1.bay.isSome || p.img.rings.any fun g => g.cons = x.2)) ||
  p.img.blocks.any fun b => (((p.img.ops[b.op]?).getD default).newel).isSome &&
    ((b.blk.cls ≠ 1 && b.blk.cls ≠ 3) || b.blk.rings ≠ 0)

/-- A node allocated for one more MZRO (13 R260). -/
def growNode (l : List Node) (bay : Nat) (r : Rec) : List Node :=
  let id := litNode r
  let old := (l.find? fun n => n.bay = bay && n.id = id).getD ⟨bay, id, 0, 0, false, 0, 0, false, [], [], 0, [], []⟩
  (l.filter fun n => !(n.bay = bay && n.id = id)) ++
  [{ old with arows := max old.arows (litRow r + 1), acols := max old.acols (litCol r + 1), apair := old.apair || bit r.lit 25 }]

/-- The nodes that the loader allocates. -/
def Placed.nodes (p : Placed) : List Node :=
  (p.records.filter fun x => x.2.2.1 = .mzro && isElement x.2.1).foldl (fun l x => growNode l (unitBay x.2.1) x.2.2.2) []

/-- The bytes that an allocated node takes in a bay. -/
def Node.bytesIn (n : Node) (bay : Nat) : Nat :=
  let w := (n.acols + 14) / 15 * 64
  let h := (n.arows + 1) / 2
  if !n.apair then (if n.bay = bay then n.arows * w else 0)
  else if n.bay = bay then h * w
  else if n.bay + 1 = bay then (n.arows - h) * w
  else 0

/-- The sparse accumulators that the blocks of a bay name (15 R292). -/
def Placed.spas (p : Placed) (bay : Nat) : Nat :=
  ((p.records.filterMap fun x =>
    if (x.2.2.1 = .spacc || x.2.2.1 = .spfl) && isElement x.2.1 && unitBay x.2.1 = bay then some (x.2.1, litSpa x.2.2.2) else none).dedup).length

/-- The bay whose accumulator partition the loader finds too small, or whose node is no pair's bay (13 R260; 15 R292). -/
def Placed.accFault (p : Placed) : Option Nat :=
  let ns := p.nodes
  match ns.find? fun n => n.apair && n.bay % 7 = 6 with
  | some n => some n.bay
  | none =>
    (p.bays ++ ns.map fun (n : Node) => n.bay + 1).find? fun b =>
      decide ((slice p.part 8 8).toNat * 32768 < sumNat (ns.map fun (n : Node) => n.bytesIn b) + 16896 * p.spas b)

/-- The barriers that the records of a bay name, or that records name in it (17 R315). -/
def Placed.barriers (p : Placed) (bay : Nat) : List Nat :=
  (p.records.filterMap fun x =>
    let (_, u, f, r) := x
    let own := unitBay u
    match f with
    | .bari | .barw | .barq => if own = bay then some (litBar r) else none
    | .barv => if (if slice r.lit 7 9 = 0x1FF then own else (slice r.lit 7 9).toNat) = bay then some (litBar r) else none
    | .meor | .mspl => if own = bay then some (slice r.lit 6 7).toNat else none
    | .cpy | .cpyq | .cxpt | .collGather | .collRsum | .collAsum | .collBcast =>
      if own = bay && bit r.lit 13 then some (slice r.lit 6 7).toNat else none
    | _ => none).dedup

/-- The copy tags that the records of a bay name (17 R319). -/
def Placed.copyTags (p : Placed) (bay : Nat) : List Nat :=
  (p.records.filterMap fun x =>
    match x.2.2.1 with
    | .cpy | .cpyq | .cxpt | .collGather | .collRsum | .collAsum | .collBcast =>
      if unitBay x.2.1 = bay then some (slice x.2.2.2.lit 0 6).toNat else none
    | _ => none).dedup

/-- A context as the checks see it. -/
def Ctx.placed (x : Ctx) : Placed := ⟨x.image, x.place, x.part⟩

/-- The bay in which the physical barriers or tags do not suffice, beside context c. -/
def State.syncFault (s : State) (c : Nat) (p : Placed) : Option Nat :=
  let others := ([0, 1, 2, 3].filter fun d => d ≠ c && (s.ctx d).status ≠ .absent).map fun d => (s.ctx d).placed
  p.bays.find? fun b =>
    decide (128 < sumNat ((p :: others).map fun y => (y.barriers b).length)) ||
    decide (64 < sumNat ((p :: others).map fun y => (y.copyTags b).length))

/-! ### Split tiles and their links (05 R102; 13 R260) -/

/-- The bays whose link to the next is reserved, with the operator whose tile splits over it. -/
def Placed.splits (p : Placed) : List (Nat × Nat) :=
  p.records.filterMap fun x => if x.2.2.1 = .mzro && isElement x.2.1 && bit x.2.2.2.lit 25 then some (unitBay x.2.1, x.1.op) else none

/-- A bay whose link two operators would need, of this image or of a context that is there (log 149). -/
def State.linkFault (s : State) (c : Nat) (p : Placed) : Option Nat :=
  let others := ([0, 1, 2, 3].filter fun d => d ≠ c && (s.ctx d).status ≠ .absent).flatMap fun d => (s.ctx d).placed.splits
  (p.splits.find? fun x => (p.splits.any fun y => y.1 = x.1 && y.2 ≠ x.2) || others.any fun y => y.1 = x.1).map (·.1)

/-! ### Tracks (05 R100) -/

/-- The tracks of each length in each direction over a tile edge. -/
def trackCount (len : Nat) : Nat := if len = 1 then 16 else if len = 4 then 8 else 4

/-- The steps that a segment of a length takes (05 R106). -/
def trackSteps (len : Nat) : Nat := if len = 1 then 1 else if len = 4 then 2 else 4

/-- The tile n further in a direction from a tile of the package, 5 rows of 28 to a die; none beyond the die's edge. -/
def tileStep (tile dir n : Nat) : Option Nat :=
  let row := tile / 28 % 5
  let col := tile % 28
  match dir with
  | 0 => if col + n < 28 then some (tile + n) else none
  | 1 => if n ≤ col then some (tile - n) else none
  | 2 => if row + n < 5 then some (tile + 28 * n) else none
  | _ => if n ≤ row then some (tile - 28 * n) else none

/-- The tiles from which a segment crosses an edge in its direction. -/
def Segment.edges (x : Segment) : List Nat := (List.range x.len).filterMap fun k => tileStep x.tile x.dir k

/-- A segment is of the stream's own, or a track of its length is free on every edge that it crosses. -/
def segmentFree (used own : List Segment) (x : Segment) : Bool :=
  own.contains x || x.edges.all fun t =>
    decide ((used.filter fun y => y.dir = x.dir && y.len = x.len && y.edges.contains t).length < trackCount x.len)

/-- The segments from a tile with the tiles that they lead to. -/
def segmentsFrom (tile : Nat) : List (Segment × Nat) :=
  [0, 1, 2, 3].flatMap fun dir => [1, 4, 16].filterMap fun len => (tileStep tile dir len).map fun t => (⟨tile, dir, len⟩, t)

/-- A chain of free segments of least latency to a tile (05 R100): the open chains, by latency, with the tile that each has reached. Of
several the one found first is taken (log 150). -/
def findChain (used own : List Segment) (goal fuel : Nat) (seen : List Nat) (chains : List (Nat × Nat × List Segment)) :
    Option (List Segment) :=
  match fuel, chains with
  | 0, _ => none
  | _, [] => none
  | n + 1, (lat, tile, path) :: rest =>
    if tile = goal then some path
    else if seen.contains tile then findChain used own goal n seen rest
    else
      let next := (segmentsFrom tile).filter fun x => !(seen.contains x.2) && segmentFree used own x.1
      let more := next.map fun x => (lat + trackSteps x.1.len, x.2, path ++ [x.1])
      findChain used own goal n (tile :: seen) (more.foldl (fun l y => insertBy (·.1) y l) rest)

/-- The chains of one stream to the tiles of its consumers, each of least latency and sharing the stream's own segments; none where no
free route is left. -/
def routeStream (used : List Segment) (start : Nat) (goals : List Nat) (own : List Segment) : Option (List Segment) :=
  match goals with
  | [] => some own
  | g :: t =>
    match findChain (used ++ own) own g 1800 [] [(0, start, [])] with
    | none => none
    | some path => routeStream used start t (own ++ path.filter fun x => !(own.contains x))

/-- The configured streams of a placement: the operator, and the bays of its consumers in its die (05 R100, R101; 21 R365). One is of an
output port, or of a ring; sinks, Newels and other dies are reached otherwise. -/
def Placed.streams (p : Placed) : List (Nat × List Nat) :=
  let near (o bay : Nat) : Bool := bay ≠ 0xFFFF && p.opBay o ≠ 0xFFFF && dieOfBay bay = dieOfBay (p.opBay o)
  let ports := (p.img.edges.map fun e => (e.prod, e.oport)).dedup
  (ports.map fun x => (x.1, p.img.edges.filterMap fun e =>
    if e.prod = x.1 && e.oport = x.2 then
      (match e.cons with
       | .op o _ => if near x.1 (p.opBay o) then some (p.opBay o) else none
       | .sink _ => none)
    else none)) ++
  p.img.rings.filterMap fun g => if g.kind ≠ .const && near g.prod (p.opBay g.cons) then some (g.prod, [p.opBay g.cons]) else none

/-- The streams of a list routed in turn: all their segments, or the operator of one that fans out too far or finds no free route. -/
def State.routeAll (s : State) (p : Placed) (used : List Segment) (l : List (Nat × List Nat)) : Except Nat (List Segment) :=
  match l with
  | [] => .ok []
  | (o, bays) :: t =>
    if 8 < bays.length then .error o
    else match routeStream used (s.tileOf (p.opBay o)) (bays.map s.tileOf) [] with
      | none => .error o
      | some own =>
        match s.routeAll p (used ++ own) t with
        | .error k => .error k
        | .ok l1 => .ok (own ++ l1)

/-- The segments that the streams of a placement of context c take beside those of the contexts that are there (05 R100). -/
def State.routes (s : State) (c : Nat) (p : Placed) : Except Nat (List Segment) :=
  s.routeAll p ([0, 1, 2, 3].flatMap fun d => if d ≠ c && (s.ctx d).status ≠ .absent then (s.ctx d).routes else []) p.streams

/-! ### Scopes (05 R99) -/

/-- The tiles of the operators of a placement that meet a test: the units of their blocks, and the second bay of a split tile. -/
def Placed.tiles (p : Placed) (ok : Nat → Bool) : List UnitId :=
  ((p.img.blocks.zipIdx.filter fun x => ok x.1.op).map fun x => p.unit x.2) ++
  ((p.splits.filter fun x => ok x.2).map fun x => UnitId.element (8 * (x.1 + 1)))

/-- The smallest group among bay, hall, wing, die and package that covers tiles; an operator on a Newel occupies its die (05 R99; 21
R365). -/
def tileGroup (l : List UnitId) : Group :=
  match l with
  | [] => .element
  | u :: _ =>
    let b := unitBay u
    let all (f : Nat → Nat) : Bool := l.all fun v => isElement v && f (unitBay v) = f b
    if l.any fun v => unitDie v ≠ unitDie u then .package
    else if all id then .bay b
    else if all hallOfBay then .hall (hallOfBay b)
    else if all fun x => wingOfHall (hallOfBay x) then .wing (wingOfHall (hallOfBay b))
    else .die (unitDie u)

/-- The groups bound to the levels of a placed graph beside other contexts: region table and tiles of each (05 R99). No level is bound
below the one under it. -/
def Placed.scopes (p : Placed) (others : List (List Region × List UnitId)) : Scopes :=
  let trap (o : Nat) : Bool := ((p.img.ops[o]?).map (·.trap)).getD false
  let graph := tileGroup (p.tiles fun o => !(trap o))
  let whole := p.tiles fun _ => true
  let all := graph.wider (tileGroup whole)
  { ops := (List.range p.img.ops.length).map fun o => tileGroup (p.tiles fun x => x = o)
    graph := graph
    trap := all
    objs := ((p.img.regions.map (·.obj)).dedup).map fun k =>
      (k, all.wider (tileGroup (whole ++ (others.filter fun x => x.1.any fun g => g.obj = k).flatMap (·.2)))) }

/-- The groups of a placement of context c beside the contexts that are there, those that come or go among them (05 R99; log 159). -/
def State.scopes (s : State) (c : Nat) (p : Placed) : Scopes :=
  p.scopes (([0, 1, 2, 3].filter fun d => d ≠ c && (s.ctx d).status ≠ .absent).map fun d =>
    ((s.ctx d).image.regions, (s.ctx d).placed.tiles fun _ => true))

/-- The bay that the loader's fifth check reports for a placement of context c; none where it passes (04 R72; 23 R392). -/
def State.placeFault (s : State) (c : Nat) (p : Placed) : Option Nat :=
  if p.newelBad then some 0xFFFF
  else match (p.bays ++ p.splits.map fun (x : Nat × Nat) => x.1 + 1).find? fun b => s.fab.failed.contains b with
    | some b => some b
    | none =>
      match p.ringFault with
      | some b => some b
      | none =>
        match p.records.find? fun x => p.formBad x.1 x.2.1 x.2.2.1 x.2.2.2 with
        | some x => some (reportBay x.2.1)
        | none =>
          match p.accFault, s.linkFault c p, s.syncFault c p with
          | some b, _, _ => some b
          | none, some b, _ => some b
          | none, none, some b => some b
          | none, none, none =>
            match s.routes c p with
            | .error o => some (p.opBay o)
            | .ok _ => none

end Sys2Proof.Machine
end

