-- ==== Sys2Proof/Machine/Loader.lean ====
section
/-! DEFINITION. The loader: CTXL of an image or a save area, the copies it makes, evictions and residency requests (04 R69 to R76, R91;
18 R337; 20 R355 to R357; 22 R387; 23 R395). -/
namespace Sys2Proof.Machine

/-! ### Launch words (04 R69, R72) -/

/-- The ASID of a launch word. -/
def lwAsid (w : Word) : BitVec 16 := slice w 48 16
/-- The context of a launch word. -/
def lwCtx (w : Word) : Nat := (slice w 36 2).toNat
/-- The level of a launch word. -/
def lwPrio (w : Word) : BitVec 4 := slice w 32 4
/-- The partition claim of a launch word. -/
def lwPart (w : Word) : Word := zextTo 64 (slice w 0 32)

/-- A launch word fails the first check of R72, for a CTXL on a Newel or not. -/
def launchBad (w : Word) (newel : Bool) : Bool :=
  lwPrio w = 0 || decide (11 < lwPrio w) || decide (24 < (slice w 8 8).toNat) || slice w 39 9 ≠ 0 || (bit w 38 && !newel)

/-! ### Copies (18 R337; 22 R387) -/

/-- A copy that CTXL makes: address, bytes, and whether its pages need fetch. -/
structure ImageCopy where
  va    : Nat
  bytes : List Byte
  fetch : Bool
  deriving DecidableEq, Repr, Inhabited

/-- The copies that an image asks for. -/
def Image.copies (i : Image) : List ImageCopy :=
  (i.datas.filterMap fun d => d.at_.map fun va => ⟨va, (i.bytes.drop d.off).take d.len, false⟩) ++
  (i.blocks.filter fun b => b.at_ ≠ 0).map fun b => ⟨b.at_, (i.bytes.drop b.off).take b.blk.bytes, true⟩

/-- A copy cut at granules. -/
def ImageCopy.pieces (k : ImageCopy) : List (Nat × List Byte) := splitBytes (k.bytes.length + 1) k.va k.bytes

/-- A piece of a copy does not reach its page under an ASID. -/
def State.pieceBad (s : State) (asid : BitVec 16) (fetch : Bool) (x : Nat × List Byte) : Bool :=
  match walk s asid x.1 with
  | .error _ => true
  | .ok w =>
    let p := w.page.spot x.1
    leafCode w.page x.1 0 .store ≠ 99 || p.typed || (fetch && !(pteAllows w.page.leaf .fetch)) ||
      (p.inside && s.deferredIn p.key x.2.length)

/-- Bytes that the loader writes to a moving page reach the new frame too as far as their courses are copied already, so that every reader
finds them on either side of the switch (10 R217; 18 R337). -/
def State.writeMoved (s : State) (tier pa : Nat) (l : List Byte) : State :=
  let put (t : State) (m : Migration) : State :=
    let off := pa - ptePa m.old
    match l.take (64 * m.copied - off), frameKey m.new with
    | [], _ => t
    | part, some k => t.writeAt (k + off) part
    | part, none => t.sendOut (frameMsg m.new off part)
  (s.net.migs.filter fun m => tier = pteTier m.old && inSpan (ptePa m.old) m.size pa).foldl put s

/-- A piece of a copy written. -/
def State.writePiece (s : State) (asid : BitVec 16) (x : Nat × List Byte) : State :=
  match walk s asid x.1 with
  | .error _ => s
  | .ok w =>
    let p := w.page.spot x.1
    (if p.inside then s.writeAt p.key x.2 else s.sendOut (frameMsg w.page.leaf (x.1 - w.page.va) x.2)).writeMoved p.tier p.pa x.2

/-- Every copy of an image written. -/
def State.writeCopies (s : State) (asid : BitVec 16) (l : List ImageCopy) : State :=
  l.foldl (fun t k => k.pieces.foldl (fun y x => y.writePiece asid x) t) s

/-! ### A context as CTXL makes it (04 R73, R91) -/

/-- An operator as loaded. -/
def OpState.fresh (o : OpDesc) : OpState :=
  { (default : OpState) with
    stime := if o.unbounded then o.origin.getD 0 else 0
    valid := o.unbounded && o.origin.isSome }

/-- The units whose copies a context with a placement keeps: every element of its bays, the Newels, its demand unit. -/
def Placed.units (p : Placed) (c : Nat) : List UnitId :=
  (p.bays.flatMap fun b => (List.range 8).map fun e => UnitId.element (8 * b + e)) ++
  (List.range 4).map UnitId.newel ++ [.demand c]

/-- The context of a placed image under a launch word, loaded as stream n. -/
def Placed.context (p : Placed) (c : Nat) (lw : Word) (n : Nat) : Ctx :=
  { Ctx.reset with
    status := .loading
    sys := bit lw 38
    image := p.img
    place := p.place
    loadSeq := n
    stream := n
    asid := lwAsid lw
    part := p.part
    prio := lwPrio lw
    seed := 1
    elems := (p.units c).map fun u => (u, ⟨0, 0, 0, seedFor 1 u, [], []⟩)
    rings := p.img.rings.map fun g => g.fresh n
    edges := p.img.edges
    sinks := ((List.range 16).filter fun k => p.img.edges.any fun e => e.cons = .sink k).map fun k => ⟨k, [], [], [], 0, [], []⟩
    ops := p.img.ops.map OpState.fresh
    nodes := p.nodes
    launch := lw
    digest := digest p.img.bytes }

/-- A context with what the loader binds anew at every CTXL: its scopes, its routes, and the window of the resource manager (05 R99, R100; 07
R136). -/
def State.bind (s : State) (c : Nat) (x : Ctx) : Ctx :=
  { x with
    scopes := s.scopes c x.placed
    routes := ((s.routes c x.placed).toOption).getD []
    windowAt := s.clock.steps / cloneWindow * cloneWindow }

/-- A macro set without the cells that it holds under a binding of a context. -/
def MacroSet.without (x : MacroSet) (c : Nat) : MacroSet :=
  if x.binding.any fun b => b.ctx = c then { x with binding := none, cells := [] } else x

/-- What units keep of the context that had a number is gone: predictor history, decoded blocks (06 R122, R124), weights (13 R267). -/
def State.clearUnits (s : State) (c : Nat) : State :=
  { s with
    cells := s.cells.map fun y =>
      (y.1, { y.2 with predict := y.2.predict.filter fun p => p.1.1 ≠ c, kept := y.2.kept.filter fun k => k.1 ≠ c })
    fab := { s.fab with sets := s.fab.sets.map fun y => (y.1, y.2.without c) } }

/-- The region tables of the other contexts that are there (17 R307). -/
def State.otherRegions (s : State) (c : Nat) : List Region :=
  [0, 1, 2, 3].flatMap fun d => if d ≠ c && (s.ctx d).status ≠ .absent then (s.ctx d).image.regions else []

/-- A place of each block that tells its bay alone. -/
def State.roughPlace (s : State) (i : Image) : List UnitId :=
  i.blocks.map fun b =>
    match ((i.ops[b.op]?).getD default).newel with
    | some d => .newel d
    | none => .element (8 * s.bayFor i b.op)

/-- An image that passed the first three checks of R72 installed in slot c, or the code and bay of its refusal. -/
def State.install (s : State) (c : Nat) (lw : Word) (i : Image) : Except (Nat × Nat) State :=
  match s.partFault c ⟨i, s.roughPlace i, lwPart lw⟩ with
  | some b => .error (2, b)
  | none =>
    match s.placeImage i with
    | .error b => .error (4, b)
    | .ok place =>
      let p : Placed := ⟨i, place, lwPart lw⟩
      match s.placeFault c p with
      | some b => .error (4, b)
      | none =>
        if i.copies.any fun k => k.pieces.any (s.pieceBad (lwAsid lw) k.fetch) then .error (5, 0xFFFF)
        else .ok (((s.clearUnits c).writeCopies (lwAsid lw) i.copies).modCtx c fun _ => s.bind c (p.context c lw (s.sched.moves + 1)))

/-! ### CTXL (04 R71 to R73) -/

/-- How a load ends: held or faulted on its bytes, a capability too short, refused with code and bay, or loaded into a slot. -/
inductive LoadEnd where
  | stopped (cls code va : Nat)
  | short
  | refused (code bay : Nat)
  | loaded (c : Nat) (s : State)
  deriving DecidableEq, Repr, Inhabited

/-- An image with a header h at an address installed under a launch word, or under its own where that is 0; slot names the context
that the launch word gives way to; rest reads the whole image. -/
def State.takeImage (s : State) (h : ImageHead) (addr : Nat) (newel : Bool) (launch : Word) (slot : Option Nat)
    (rest : Except (Nat × Nat × Nat) (List Byte)) : LoadEnd :=
  let lw := if launch = 0 then h.launch else launch
  let c := slot.getD (lwCtx lw)
  if launchBad lw newel then .refused 3 0xFFFF
  else if (s.ctx c).status ≠ .absent then .refused 1 0xFFFF
  else if !h.good then .refused 5 0xFFFF
  else match rest with
    | .error e => .stopped e.1 e.2.1 e.2.2
    | .ok l =>
      match readImage addr (s.otherRegions c) l with
      | none => .refused 5 0xFFFF
      | some i =>
        match s.install c lw i with
        | .error (k, b) => .refused k b
        | .ok t => .loaded c t

/-- The image that a capability names read and installed. -/
def State.loadImage (s : State) (q : Req) (newel : Bool) (cap : Pair) (launch : Word) (slot : Option Nat) (ext : Ext) : LoadEnd :=
  match s.portBytes q 256 0 ext with
  | .error e => .stopped e.1 e.2.1 e.2.2
  | .ok head =>
    let h := readHead head
    if h.good && decide (capTop cap < q.addr + h.length) then .short
    else s.takeImage h q.addr newel launch slot (if h.good then s.portBytes q h.length 0 ext else .ok [])

/-- The byte of a save area at an index, for the stream saved there: open (04 R76; log 9). -/
def areaByte (stream i : Nat) : Byte := Config.freeByte (2 ^ 40 * (stream + 1) + i)

/-- The key by which a save area is known. -/
def areaKey (x : Spot) : Nat := if x.inside then x.key else 2 ^ 64 * (x.tier + 1) + x.pa

/-- The context saved in an area, where its bytes stand as CTXE wrote them. -/
def State.savedAt (s : State) (x : Spot) : Option Save := s.net.saves.find? fun v => v.key = areaKey x

/-- What a unit keeps of a context as CTXL sets it: flags, burst, rescales and stall counters 0 (04 R73; 15 R298). The generator's state is
restored (03 R58). -/
def ElemCtx.resumed (e : ElemCtx) : ElemCtx := { e with flags := 0, burst := 0, kvrs := 0, stall := [] }

/-- A saved context as a resume puts it back (04 R71, R73, R76; 23 R395): the registers that CTXL sets are set in the resume form too, and
nothing of its image is posted or measured again (log 75). -/
def Ctx.resumed (x : Ctx) (n : Nat) : Ctx :=
  { x with
    status := .loading
    loadSeq := n
    image := { x.image with demands := [] }
    tagSet := 0xFFFF
    storeLim := 0xFFFF
    pwrLim := 0xFFFF
    seed := 1
    thr := 0
    mpln := 8
    elems := x.elems.map fun y => (y.1, y.2.resumed)
    launch := 0
    digest := 0
    area := none }

/-- A save area read and its context put back, at a level where one is given. -/
def State.loadSave (s : State) (q : Req) (newel : Bool) (cap : Pair) (level : Option (BitVec 4)) (ext : Ext) : LoadEnd :=
  match s.portSpots q 1 .load with
  | .error e => .stopped e.1 e.2.1 e.2.2
  | .ok spots =>
    match s.savedAt (spots.headD default) with
    | none => .refused 5 0xFFFF
    | some v =>
      let c := v.slot
      let n := v.ctx.saveSize
      if capTop cap < q.addr + n then .short
      else if v.ctx.sys && !newel then .refused 3 0xFFFF
      else if (s.ctx c).status ≠ .absent then .refused 1 0xFFFF
      else match s.portBytes q n 0 ext with
        | .error e => .stopped e.1 e.2.1 e.2.2
        | .ok l =>
          if l ≠ (List.range n).map (areaByte v.ctx.stream) || regionsBad v.ctx.image.regions (s.otherRegions c) then .refused 5 0xFFFF
          else match s.partFault c v.ctx.placed with
            | some b => .refused 2 b
            | none =>
              match s.placeFault c v.ctx.placed with
              | some b => .refused 4 b
              | none =>
                let x := v.ctx.resumed (s.sched.moves + 1)
                .loaded c ((s.clearUnits c).modCtx c fun _ => { s.bind c x with prio := level.getD x.prio })

/-- The load for which the activation of a unit waits ends (04 R73). -/
def State.loadDone (s : State) (u : UnitId) (ext : Ext) : State :=
  let mine (q : Req) : Bool := q.unit = u && (match q.kind with
    | .image _ _ _ => true
    | _ => false)
  match s.act u, s.net.reqs.find? mine with
  | some a, some q =>
    if !(s.mayPerform q) || (a.slot q.rec_).st ≠ .issued q.id then s
    else match q.kind, a.info q.rec_ with
      | .image cap resume launch, some (_, r) =>
        let end_ := if resume then s.loadSave q (isNewel u) cap none ext else s.loadImage q (isNewel u) cap launch none ext
        (match end_ with
         | .stopped 8 code va => s.takeFault u a q.rec_ 8 code 0 va
         | .stopped cls code va => s.holdReq { q with addr := va } cls code q.loops
         | .short => settle (s.dropReq q.id) u a q.rec_ r (capFault cap 8)
         | .refused k b => settle (s.dropReq q.id) u a q.rec_ r (give a noFlags (statusVal k b))
         | .loaded c t => settle (t.dropReq q.id) u a q.rec_ r (give (a.effect q.rec_ (.loaded c)) noFlags (statusVal 0 0xFFFF)))
      | _, _ => s
  | _, _ => s

/-! ### Eviction (04 R76; 20 R355, R356) -/

/-- An activation that has begun waits on something outside itself: a record of it, or its commit (20 R355). -/
def State.actWaits (s : State) (u : UnitId) (a : Act) : Bool :=
  let recs := a.recs.any fun r => match r.st with
    | .waiting => true
    | .issued _ => true
    | _ => false
  recs || (match a.stage with
    | .running => false
    | .committing _ next _ _ =>
      match (⟨s, [], noFlags⟩ : Moment).effects u a (next ≠ 0) with
      | .error .wait => true
      | .error (.full _) => true
      | _ => false)

/-- The units that execute activations of a context. -/
def State.unitsOn (s : State) (c : Nat) : List UnitId :=
  s.cells.filterMap fun y => match y.2.act with
    | some a => if a.ctx = c then some y.1 else none
    | none => none

/-- The activations of a context that units have chosen wait again. -/
def State.unchoose (s : State) (c : Nat) : State :=
  let back := s.cells.filterMap fun y => y.2.chosen.filter fun w => tagCtx w.tag = c
  let clear (y : Cell) : Cell := { y with chosen := y.chosen.filter fun w => tagCtx w.tag ≠ c }
  ({ s with cells := s.cells.map fun y => (y.1, clear y.2) } : State).modCtx c fun x => { x with waiting := x.waiting ++ back }

/-- The activations of a context that wait on something outside themselves are abandoned. -/
def State.abandonWaiting (s : State) (c : Nat) : State :=
  (s.unitsOn c).foldl
    (fun t u => match t.act u with
      | some a => if t.actWaits u a then t.abandon u else t
      | none => t) s

/-- A waiting activation or an offered token of a clone goes to its operator's own unit; an empty frame that is there already is
dropped (07 R137). -/
def Ctx.withoutClones (x : Ctx) : Ctx :=
  let clones := x.ops.flatMap fun o => o.clones.map (·.unit)
  let own (u : UnitId) (p : BlockPtr) : UnitId := if clones.contains u then x.unitOf ((x.ordinal? p).getD 0) else u
  let home (w : Waiting) : Waiting := { w with unit := own w.unit w.ptr }
  let stay := x.waiting.filter fun w => !(clones.contains w.unit)
  let empty (w : Waiting) : Bool := w.kind = .frame && w.slots.all fun l => l.val.isNone && l.part.isNone
  let add (l : List Waiting) (w : Waiting) : List Waiting :=
    if empty w && l.any fun y => y.kind = .frame && y.ptr = w.ptr && y.tag = w.tag then l else l ++ [home w]
  { x with
    waiting := (x.waiting.filter fun w => clones.contains w.unit).foldl add stay
    edges := x.edges.map fun e => { e with blocked := false }
    offered := x.offered.map fun y => (y.1, own y.2.1 y.1, y.2.2)
    ops := x.ops.map fun o => { o with clones := [], own := [], want := false, quiet := 0, busy := 0, full := 0 } }

/-- A running or deferred record goes back to its place in the queue at its last row tag (13 R267). -/
def Task.requeue (t : Task) : Task := if t.st = .queued then t else { t with st := .queued }

/-- A copy operation of a stream is still to complete and nothing holds it (20 R356). -/
def State.copyRuns (s : State) (stream : Nat) : Bool :=
  s.net.engines.any fun o => o.load_ = stream && o.coll?.isNone && !(s.engineHeld o.id) &&
    !(s.net.reqs.any fun q => q.isHeld && ((q.port.kind = 3 && q.strm = o.id) || o.after.contains q.id))

/-- The pages of a save area under its ASID: none where one does not translate or take a store. -/
def State.areaPages (s : State) (z : SaveArea) (n : Nat) : Option (List Page) :=
  (granuleVas (capBase z.cap) n).mapM fun va =>
    match walk s z.asid va with
    | .error _ => none
    | .ok w => if leafCode w.page va 0 .store ≠ 99 || pteTyped w.page.leaf then none else some w.page

/-- The bytes of a saved context put into its area. -/
def State.writeArea (s : State) (z : SaveArea) (stream n : Nat) : State :=
  let k : ImageCopy := ⟨capBase z.cap, (List.range n).map (areaByte stream), false⟩
  s.writeCopies z.asid [k]

/-- What an eviction does until the context is saved: waiting activations are abandoned, tasks cut, clones and power windows gone;
with nothing left that executes, the area is written. R75 checks the area when CTXE fires and no rule says what a page that does not take the
save does later: the eviction waits for it (log 151). -/
def State.saveStep (s : State) (c : Nat) : State :=
  match (s.ctx c).status, (s.ctx c).area with
  | .evicting, some z =>
    let s1 := (s.abandonWaiting c).unchoose c
    let s2 := s1.modCtx c fun x => { x with tasks := x.tasks.map Task.requeue, windows := [] }
    let x := s2.ctx c
    if z.written || s2.unitsOn c ≠ [] || s2.copyRuns x.stream then s2
    else match s2.areaPages z x.saveSize with
      | none => s2
      | some _ =>
        (s2.writeArea z x.stream x.saveSize).modCtx c fun y => { y.withoutClones with area := some { z with written := true } }
  | _, _ => s

/-- The successors of a context that Newels hold for IRET are saved with it; nothing resumes in their place (20 R362). -/
def State.takeSaved (s : State) (c : Nat) : State :=
  let of (w : Option Waiting) : Bool := (w.map fun y => decide (tagCtx y.tag = c)).getD false
  let back := s.newels.flatMap fun n => n.saved.filterMap fun w => if of w then w else none
  ({ s with newels := s.newels.map fun n => { n with saved := n.saved.map fun w => if of w then none else w } } : State).modCtx c
    fun x => { x with waiting := x.waiting ++ back }

/-- The slot of an evicting context whose area is written becomes free (04 R76; 23 R395). -/
def State.evictDone (s : State) (c : Nat) : State :=
  match (s.ctx c).status, (s.ctx c).area with
  | .evicting, some z =>
    if !z.written then s
    else match s.areaPages z 1 with
      | none | some [] => s
      | some (p :: _) =>
        let s1 := s.takeSaved c
        let x := s1.ctx c
        let v : Save := ⟨areaKey (p.spot (capBase z.cap)), c, { x with area := none }⟩
        let rest := s1.net.saves.filter fun y => y.key ≠ v.key && y.ctx.stream ≠ x.stream
        (({ s1 with net := { s1.net with saves := rest ++ [v] } } : State).modCtx c fun _ => Ctx.reset).raise z.die 4
          (Config.eventToken 4 c 0)
  | _, _ => s

/-! ### Residency requests (20 R357) -/

/-- The request by which the keystone Newel's graph reads for a residency request. -/
def residencyReq (r : Residency) : Req :=
  ⟨0, ⟨5, keystone⟩, 0, 0, 0, .newel keystone, 0, 0, 0, 0, 0, capSpace r.cap, if r.resume then capBase r.cap else capCursor r.cap, r.asid,
    .image r.cap r.resume r.launch, .waiting, none, [], ⟨[], []⟩, []⟩

/-- The level of a request. -/
def residencyLevel (r : Residency) : Nat := (lwPrio r.launch).toNat

/-- The save that a request names. -/
def State.saveOf (s : State) (r : Residency) : Option Save :=
  match s.portSpots (residencyReq r) 1 .load with
  | .ok (x :: _) => s.savedAt x
  | _ => none

/-- The context that a request names, where it is resident. -/
def State.residentFor (s : State) (r : Residency) : Option Nat :=
  [0, 1, 2, 3].find? fun c =>
    let x := s.ctx c
    x.status = .resident &&
    (if r.resume then ((s.saveOf r).map fun v => decide (v.ctx.stream = x.stream)).getD false
     else decide (x.image.base = capCursor r.cap) && x.asid = lwAsid r.launch)

/-- The slots that a request can be loaded into: any, or the one a saved context left (log 51). -/
def State.slotsFor (s : State) (r : Residency) : List Nat :=
  if r.resume then ((s.saveOf r).map (·.slot)).toList else [0, 1, 2, 3]

/-- The request that is served first: the highest level, then the earliest. -/
def firstRequest (l : List (Residency × Nat)) : Option (Residency × Nat) :=
  firstBy (fun a b => decide (residencyLevel b.1 < residencyLevel a.1) || (residencyLevel a.1 = residencyLevel b.1 && decide (a.2 < b.2))) l

/-- The context that a request evicts: the resident one of lowest level, the earliest loaded on a tie, below its own level. -/
def State.victim (s : State) (r : Residency) : Option Nat :=
  let less (a b : Nat) : Bool :=
    decide ((s.ctx a).prio < (s.ctx b).prio) ||
    ((s.ctx a).prio = (s.ctx b).prio && decide ((s.ctx a).loadSeq < (s.ctx b).loadSeq))
  (firstBy less ((s.slotsFor r).filter s.resident)).filter fun c => decide ((s.ctx c).prio.toNat < residencyLevel r)

/-- A request that has a slot loaded into it; one that is refused ends. -/
def State.serveInto (s : State) (r : Residency) (c : Nat) (ext : Ext) : State :=
  let end_ := if r.resume then s.loadSave (residencyReq r) true r.cap (some (lwPrio r.launch)) ext
    else s.loadImage (residencyReq r) true r.cap r.launch (some c) ext
  match end_ with
  | .loaded d t => t.becomeResident d
  | _ => s

/-- The first request served: loaded where a slot is free, else a context is evicted for it (20 R357). The mailbox's is carried out by the
mailbox, for which the slot stays free (18 R329). -/
def State.serveResidency (s : State) (ext : Ext) : State :=
  match firstRequest s.host.resid with
  | none => s
  | some r =>
    match (s.slotsFor r.1).find? fun c => (s.ctx c).status = .absent with
    | some c => if s.host.mailRes = some r.2 then s else ({ s with host := { s.host with resid := removeOne s.host.resid r } } : State).serveInto r.1 c ext
    | none =>
      if s.host.reserve.isSome then s
      else match s.victim r.1 with
        | none => s
        | some c =>
          let z : SaveArea := ⟨(Config.freeArea s.sched.moves).1, keystone, (Config.freeArea s.sched.moves).2, false⟩
          ({ s with host := { s.host with reserve := some c } } : State).modCtx c fun x =>
            { x with status := .evicting, area := some z }

/-- A residency request: of a resident context it is PRIO, any other waits for its slot. -/
def State.residency (s : State) (r : Residency) (ext : Ext) : State :=
  match s.residentFor r with
  | some c => s.setPrio c (residencyLevel r)
  | none =>
    ({ s with host := { s.host with
      resid := s.host.resid ++ [(r, s.host.nextRes)], nextRes := s.host.nextRes + 1 } } : State).serveResidency ext

/-- An eviction complete; a slot that it frees is loaded for the first request. -/
def State.evictComplete (s : State) (c : Nat) (ext : Ext) : State :=
  let s1 := s.evictDone c
  if (s.ctx c).status = .evicting && (s1.ctx c).status = .absent then
    let open_ : State := { s1 with host := { s1.host with reserve := s1.host.reserve.filter fun d => d ≠ c } }
    open_.serveResidency ext
  else s1

/-- CTXL_LOAD_DONE (04 R73). -/
def execCtxlLoadDone (s : State) : Result State := .next (s.loadDone s.sched.subject.u s.sched.subject.ext)
/-- EVICTION_SAVE (04 R76): the save of an evicting context goes on; where the context is not being evicted, the residency requests that wait
are served again, since a slot may be free or a context below the first one's level there by now (20 R357). -/
def execEvictionSave (s : State) : Result State :=
  .next (if (s.ctx s.sched.subject.c).status = .evicting then s.saveStep s.sched.subject.c else s.serveResidency s.sched.subject.ext)
/-- EVICTION_COMPLETE (04 R76). -/
def execEvictionComplete (s : State) : Result State := .next (s.evictComplete s.sched.subject.c s.sched.subject.ext)
/-- RESIDENCY_REQUEST (20 R357). -/
def execResidencyRequest (s : State) : Result State := .next (s.residency s.sched.subject.resid s.sched.subject.ext)

end Sys2Proof.Machine
end

