-- ==== Sys2Proof/Machine/Hardware.lean ====
section
/-! DEFINITION. Hardware faults, re-fire and context replay, spares and ageing, links and slices that fail (20 R350 to R354; 22 R370; 23
R392, R393). -/
namespace Sys2Proof.Machine

/-! ### Records and abandoned work (20 R350, R351) -/

/-- The record of a hardware fault of a context, on a unit; where no activation caused it, of no block. -/
def hwFault (code c : Nat) (w : Option Waiting) : FaultInfo :=
  match w with
  | some w => ⟨8, code, 0xFF, 0, 0, false, w.ptr, w.tag, w.stamp, []⟩
  | none => ⟨8, code, 0xFF, 0, 0, false, 0, tagWord c 0 0, 0, []⟩

/-- The units that execute in a hall. -/
def State.executingIn (s : State) (hall : Nat) : List UnitId :=
  s.cells.filterMap fun y => if isElement y.1 && hallOfBay (unitBay y.1) = hall && y.2.act.isSome then some y.1 else none

/-- Every activation that executes in a hall is abandoned, to fire again (20 R351). -/
def State.abandonHall (s : State) (hall : Nat) : State := (s.executingIn hall).foldl State.abandon s

/-- A datapath error in the activation that a unit executes (20 R351). -/
def State.datapathError (s : State) (u : UnitId) : State :=
  match s.act u with
  | none => s
  | some a =>
    let t := if isElement u then s.abandonHall (hallOfBay (unitBay u)) else s.abandon u
    t.deliverFault (hwFault 1 a.ctx (some a.w)) (unitCode u) (unitDie u) a.ctx

/-! ### Context replay (20 R352) -/

/-- A context has configuration or state in a bay: blocks, clones, nodes of its own or of a pair. -/
def Ctx.inBay (x : Ctx) (bay : Nat) : Bool :=
  x.bays.contains bay || (x.ops.any fun o => o.clones.any fun k => unitBay k.unit = bay) ||
  x.nodes.any fun n => n.bay = bay || (n.apair && n.bay + 1 = bay)

/-- A context has configuration on a unit. -/
def Ctx.onUnit (x : Ctx) (u : UnitId) : Bool := x.place.contains u || x.ops.any fun o => o.clones.any fun k => k.unit = u

/-- The contexts that are there and meet a test. -/
def State.ctxsThat (s : State) (p : Ctx → Bool) : List Nat := [0, 1, 2, 3].filter fun c => (s.ctx c).there && p (s.ctx c)

/-- Contexts are to be replayed: what they execute on the units of some bays is abandoned, the rest commits or faults, and what units have
chosen of them does not begin. -/
def State.beginReplay (s : State) (cs bays : List Nat) : State :=
  let fails (u : UnitId) (a : Act) : Bool := cs.contains a.ctx && isElement u && bays.contains (unitBay u)
  let units := s.cells.filterMap fun y => y.2.act.bind fun a => if fails y.1 a then some y.1 else none
  cs.foldl (fun t c => (t.unchoose c).modCtx c fun x => { x with replay := true }) (units.foldl State.abandon s)

/-- The records of a hardware fault of contexts, sent to the Newel of a die. -/
def State.reportEach (s : State) (cs : List Nat) (code unit die : Nat) : State :=
  cs.foldl (fun t c => t.deliverFault (hwFault code c none) unit die c) s

/-- An uncorrectable error in the pool of a bay. -/
def State.poolError (s : State) (bay : Nat) : State :=
  let cs := s.ctxsThat fun x => x.inBay bay
  (s.beginReplay cs [bay]).reportEach cs 2 (8 * bay) (dieOfBay bay)

/-- A remap entry for an element, where its bay has its spare left; none where it has not (05 R96; 23 R392). -/
def State.spareElement (s : State) (bay e : Nat) : Option State :=
  let die := dieOfBay bay
  if ((s.fab.dies[die]?).map fun d => d.elems.any fun y => y.1 / 8 = bay).getD true then none
  else some { s with fab := { s.fab with dies := modAt s.fab.dies die fun d => { d with elems := d.elems ++ [(8 * bay + e, 8)] } } }

/-- A spare waits for the next CTXL of a context that still works on a unit past its ageing limit (23 R393). -/
def State.spareWaits (s : State) (u : UnitId) (m : Option Nat) : Bool :=
  (s.fab.dies[unitDie u]?).any fun d => s.remapped d u m && d.aged.any fun y =>
    y.1 = u && y.2.1 = m && s.ctxs.any fun x => x.there && decide (x.loadSeq ≤ y.2.2) && s.occupies d y x

/-- The spare that waits for a unit is in force at once (23 R392). -/
def State.bringIn (s : State) (u : UnitId) (m : Option Nat) : State :=
  { s with fab := { s.fab with dies := modAt s.fab.dies (unitDie u) fun d =>
      { d with aged := d.aged.filter fun y => !(y.1 = u && y.2.1 = m) } } }

/-- An element failure: the spare that waits for it, or else the bay's, is brought in, and its contexts are replayed; without a spare the bay waits
for its row. -/
def State.elementFails (s : State) (bay e : Nat) : State :=
  if 448 ≤ bay then s
  else
    let u : UnitId := .element (8 * bay + e % 8)
    let t := (if s.spareWaits u none then s.bringIn u none else (s.spareElement bay (e % 8)).getD (s.failBay bay)).abandon u
    let cs := t.ctxsThat fun x => x.onUnit u
    (t.beginReplay cs []).reportEach cs 4 (8 * bay + e % 8) (dieOfBay bay)

/-- A macro failure (13 R268; 20 R350): the spare that waits for the macro, or else one of its bay, takes its place, or its bay waits for its row;
a row tag in progress has applied nothing, and runs again. The report names the contexts whose tasks run on the set; with none there it is no context's (log
152). -/
def State.macroFails (s : State) (bay m : Nat) : State :=
  if 448 ≤ bay then s
  else
    let u : UnitId := .element (8 * bay)
    let t := if s.spareWaits u (some (m % 32)) then s.bringIn u (some (m % 32))
      else match (s.macroSet bay).spare (m % 32) with
        | some x => s.modSet bay fun _ => x
        | none => s.failBay bay
    let runs (x : Ctx) : Bool := x.tasks.any fun k => k.running && (k.set?.any fun b => (x.setsOf k b).contains bay)
    match t.ctxsThat runs with
    | [] => t.raise (dieOfBay bay) 2 (faultRecord (hwFault 5 0 none) (8 * bay) 0 0)
    | cs => t.reportEach cs 5 (8 * bay) (dieOfBay bay)

/-- A ring as it stands after a load of its image. -/
def Ring.renew (g : Ring) (img : Image) : Ring :=
  match img.rings.find? fun r => r.q = g.q with
  | some r => r
  | none => g

/-- A ring number that no ring has. -/
def noRing : Nat := 16

/-- The requests that are left when the state of their context goes: a generator's store has its entry as it stands, a load that is held has
no slot to fill any more, an atomic no token to send. -/
def Req.settled (q : Req) (x : Ctx) : Req :=
  match q.kind with
  | .genLoad ty _ n => { q with kind := .genLoad ty noRing n }
  | .genStore _ r n => { q with kind := .store (.course (((x.ring? r).map fun g => (g.entry n).bits).getD 0)) }
  | .atomic fn ty b e c _ => { q with kind := .atomic fn ty b e c none }
  | _ => q

/-- The operators of a replayed context: no time or interval is left, every unbounded state is invalid, the clones stand with empty
registers (07 R140). -/
def OpState.replayed (st : OpState) : OpState :=
  { st with
    issue := []
    rtfQueue := []
    queue := []
    serving := none
    undone := []
    skipped := []
    silent := none
    valid := false
    mode := 0
    clones := st.clones.map fun y => { y with regs := [] }
    own := [] }

/-- A context whose lost state is discarded; its sinks ask again for what is pending there. -/
def Ctx.replayed (x : Ctx) (n : Nat) : Ctx :=
  let y : Ctx :=
    { x with
      replay := false
      waiting := x.waiting.filter Waiting.isHandler
      edges := x.edges.map fun e =>
        { e with flight := [], blocked := false, seen := [], dreg := ⟨[], none, e.dreg.g, []⟩ }
      rings := x.rings.map fun g => (g.renew x.image).fresh n
      nodes := x.nodes.map fun n => { n with rows := 0, cols := 0, pair := false, lanes := [], tails := [], got := 0, lastKc := [], releases := [] }
      tasks := []
      bars := []
      tags := []
      live := []
      offered := []
      elems := x.elems.map fun e => (e.1, { e.2 with spas := [] })
      ops := x.ops.map OpState.replayed }
  y.sinks.foldl (fun z k => k.pend.foldl (fun w v => w.feedSink k.k v) z) y

/-- An engine operation of a stream is in flight, held or not (20 R352). -/
def State.engineRuns (s : State) (stream : Nat) : Bool := s.net.engines.any fun o => o.load_ = stream

/-- A load of a generator that has yet to be performed goes with the ring that a replay discards; one that is held stays (20 R352). -/
def Req.lost (q : Req) : Bool := q.kind.isStream && !q.isHeld

/-- A replay of a context: once no activation of it executes and its engine operations are over, what was lost is discarded (20
R352). A context on a bay that waits for its row's replacement cannot be placed again. -/
def State.replayStep (s : State) (c : Nat) : State :=
  if !((s.ctx c).replay) || !((s.ctx c).there) then s
  else
    let s1 := s.unchoose c
    let x := s1.ctx c
    if s1.unitsOn c ≠ [] || s1.engineRuns x.stream || x.bays.any s1.fab.failed.contains then s1
    else
      let mine (q : Req) : Bool := q.ctx = c && q.load_ = x.stream
      ({ s1 with net := { s1.net with
        reqs := (s1.net.reqs.filter fun q => !(mine q && q.lost)).map fun q => if mine q then q.settled x else q
        contribs := s1.net.contribs.filter fun k => k.load_ ≠ x.stream
        ringHeld := s1.net.ringHeld.filter fun h => h.load_ ≠ x.stream } } : State).modCtx c fun y => y.replayed s1.sched.moves

/-! ### Poison, undervolting, ageing, rows (20 R353, R354; 22 R370; 23 R392, R393) -/

/-- A line of 64 bytes is poisoned. -/
def State.poisonLine (s : State) (key : Nat) : State :=
  let ws := (List.range 8).map fun i => key / 64 * 64 + 8 * i
  { s with net := { s.net with poison := s.net.poison ++ ws.filter fun w => !(s.net.poison.contains w) } }

/-- An uncorrectable error in a hall: a setting is held anew from here. Where the hall runs below its default voltage: its safe point, a
floor two steps above it, locked; its work is fired again, or replayed where pool state was lost. No record names a context (20 R354; 22
R370). -/
def State.undervoltError (s : State) (hall : Nat) (lost : Bool) : State :=
  let h := s.hall hall
  let t := s.modHall hall fun y => { y with erred := true, heldAt := s.clock.ns }
  if 64 ≤ hall then s
  else if !h.uv || decide (800 ≤ h.mv.toNat) then t
  else
    let s1 := (t.modHall hall fun y => { y with mv := y.safe, floor := y.safe + 10, lock := true, lockedAt := s.clock.ns }).raise
      (dieOfHall hall) 15 (BitVec.ofNat 512 hall)
    if lost then s1.beginReplay (s1.ctxsThat fun x => (span (7 * hall) 7).any x.inBay) (span (7 * hall) 7) else s1.abandonHall hall

/-- A hall's check of its canary rows, 100 ms after the last one: its voltage raised, lowered or held; after an uncorrectable error in the 100
ms its response stands (22 R370). -/
def Hall.check (g : Hall) (count now : Nat) : Hall :=
  let h : Hall := { g with checkedAt := now, erred := false }
  if now < g.checkedAt + 100000000 then g
  else if !g.uv || g.erred then h
  else if 2 * h.cetgt.toNat < count then
    (if h.mv.toNat < 800 then { h with mv := BitVec.ofNat 16 (min 800 (h.mv.toNat + 5)), heldAt := now } else h)
  else if decide (count < h.cetgt.toNat) && decide (h.floor.toNat + 5 ≤ h.mv.toNat) then { h with mv := h.mv - 5, heldAt := now }
  else h

/-- A setting held for 1 s becomes safe. -/
def Hall.safePoint (h : Hall) (now : Nat) : Hall := if h.heldAt + 1000000000 ≤ now then { h with safe := h.mv } else h

/-- A floor locked for ten minutes is free again. -/
def Hall.unlock (h : Hall) (now : Nat) : Hall :=
  if h.lock && decide (h.lockedAt + 600000000000 ≤ now) then { h with lock := false, floor := 650 } else h

/-- An element or macro passes its ageing limit: a remap entry is written for it where a spare is left (log 120). -/
def State.ages (s : State) (bay : Nat) (macroUnit : Bool) (e : Nat) : State :=
  let u : UnitId := if macroUnit then .element (8 * bay) else .element (8 * bay + e % 8)
  let m := if macroUnit then some (e % 32) else none
  let spare := if macroUnit then ((s.macroSet bay).spare (e % 32)).map fun x => s.modSet bay fun _ => x else s.spareElement bay (e % 8)
  if 448 ≤ bay then s
  else
    let t := spare.getD s
    { t with fab := { t.fab with dies := modAt t.fab.dies (dieOfBay bay) fun d => { d with aged := d.aged ++ [(u, m, s.sched.moves)] } } }

/-- A slice fails: its row waits for replacement, or its deconfiguration, at the next reset. -/
def State.sliceFails (s : State) (hall : Nat) : State := (s.modHall hall fun h => { h with failed := true }).markRow hall

/-- A lane of the UCIe site repaired. -/
def State.ucieTrained (s : State) (lane : Nat) : State :=
  { s with host := { s.host with ucie := s.host.ucie ++ [lane], trained := s.host.trained + 1 } }

/-- A flight link lost after retry: the requests that need it are held as translation code 4 (18 R334). -/
def State.linkLost (s : State) (p : Nat) : State :=
  let dev (q : Req) : Option Nat :=
    if !q.st.goes || !(s.outside q) then none
    else match s.outMsg q with
      | .space3 d _ _ => some d
      | _ => none
  let needs (q : Req) : Bool := ((dev q).map fun d => decide (s.route d = some p)).getD false
  let s1 : State := { s with links := { s.links with ports := modAt s.links.ports p fun y => { y with up := false } } }
  (s.net.reqs.filter needs).foldl (fun t q => t.holdReq q 3 4 q.loops) s1

/-- MACRO_FAILURE (13 R268). -/
def execMacroFailure (s : State) : Result State := .next (s.macroFails s.sched.subject.k s.sched.subject.e)
/-- HW_DATAPATH_ERROR (20 R351). -/
def execHwDatapathError (s : State) : Result State := .next (s.datapathError s.sched.subject.u)
/-- POOL_UNCORRECTABLE (20 R352). -/
def execPoolUncorrectable (s : State) : Result State := .next (s.poolError s.sched.subject.k)
/-- ELEMENT_FAILURE (20 R350). -/
def execElementFailure (s : State) : Result State := .next (s.elementFails s.sched.subject.k s.sched.subject.e)
/-- CONTEXT_REPLAY (20 R352). -/
def execContextReplay (s : State) : Result State := .next (s.replayStep s.sched.subject.c)
/-- LINE_POISON (20 R353). -/
def execLinePoison (s : State) : Result State := .next (s.poisonLine s.sched.subject.k)
/-- UNDERVOLT_UE (20 R354). -/
def execUndervoltUe (s : State) : Result State := .next (s.undervoltError s.sched.subject.k s.sched.subject.flag)
/-- LINK_LOST (20 R350). -/
def execLinkLost (s : State) : Result State := .next (s.linkLost s.sched.subject.k)
/-- UNDERVOLT_CHECK (22 R370). -/
def execUndervoltCheck (s : State) : Result State :=
  .next (s.modHall s.sched.subject.k fun h => h.check s.sched.subject.e s.clock.ns)
/-- SAFE_POINT_TIMER (22 R370). -/
def execSafePointTimer (s : State) : Result State := .next (s.modHall s.sched.subject.k fun h => h.safePoint s.clock.ns)
/-- FLOOR_LOCK_EXPIRE (22 R370). -/
def execFloorLockExpire (s : State) : Result State := .next (s.modHall s.sched.subject.k fun h => h.unlock s.clock.ns)
/-- AGEING_LIMIT_PASS (23 R393). -/
def execAgeingLimitPass (s : State) : Result State :=
  .next (s.ages s.sched.subject.k s.sched.subject.flag s.sched.subject.e)
/-- SLICE_FAILURE (23 R392). -/
def execSliceFailure (s : State) : Result State := .next (s.sliceFails s.sched.subject.k)
/-- UCIE_LINK_TRAINING (23 R392). -/
def execUcieLinkTraining (s : State) : Result State := .next (s.ucieTrained s.sched.subject.k)

end Sys2Proof.Machine
end

