-- ==== Sys2Proof/Machine/Power.lean ====
section
/-! DEFINITION. Heat, the package power controller, ballast, and the events of the Newels (18 R336; 22 R371 to R385). -/
namespace Sys2Proof.Machine

/-! ### Zones (22 R371 to R374) -/

/-- A sample against a threshold: the zone entered or left, at 2 degrees below it. -/
def inZone (was : Bool) (t limit : Nat) : Bool := if was then decide (limit < t + 32) else decide (limit ≤ t)

/-- The event of a change of zone: its own number at entry, 8 at departure. -/
def zoneEvent (was now : Bool) (n : Nat) : List Nat := if now && !was then [n] else if was && !now then [8] else []

/-- A hall after a sample. -/
def Hall.sample (h : Hall) (p : Power) (t : BitVec 16) : Hall :=
  let hard := inZone h.hard t.toNat p.thard.toNat
  { h with
    temp := t
    warn := inZone h.warn t.toNat p.twarn.toNat
    thr := inZone h.thr t.toNat p.tthr.toNat
    hard := hard
    khw := if hard && !h.hard then 12 else if h.hard && !hard then 0 else h.khw }

/-- The events of a hall's sample. -/
def Hall.zoneEvents (h g : Hall) : List Nat := zoneEvent h.warn g.warn 5 ++ zoneEvent h.thr g.thr 6 ++ zoneEvent h.hard g.hard 7

/-- The samples of all halls taken: zones, events, the hottest sensor. -/
def State.sample (s : State) (temps : List (BitVec 16)) : State :=
  let one (t : State) (i : Nat) : State :=
    let h := t.hall i
    let g := h.sample t.power (temps.getD i h.temp)
    (h.zoneEvents g).foldl (fun y n => y.raise (dieOfHall i) n (0#490 ++ BitVec.ofNat 6 i ++ g.temp)) (t.modHall i fun _ => g)
  let s1 := (List.range 64).foldl one s
  let best := (List.range 64).foldl (fun b i => if (s1.hall b).temp < (s1.hall i).temp then i else b) 0
  { s1 with power := { s1.power with thmax := (s1.hall best).temp, thhall := BitVec.ofNat 6 best } }

/-- The supplies are removed: fabric, pool and slice state is lost until reset; the stacks and what the host sees stay (log 53). -/
def State.tripped (s : State) : State :=
  { s with
    ctxs := [Ctx.reset, Ctx.reset, Ctx.reset, Ctx.reset]
    cells := []
    newels := [Newel.reset, Newel.reset, Newel.reset, Newel.reset]
    mem := s.mem.filter fun c => decide (c.1 < 2 ^ 42)
    net := { Net.reset with
      captags := s.net.captags.filter fun a => decide (a < 2 ^ 42)
      poison := s.net.poison.filter fun a => decide (a < 2 ^ 42)
      asidTab := s.net.asidTab
      nextReq := s.net.nextReq
      out := s.net.out }
    fab := { s.fab with sets := s.fab.sets.map fun y => (y.1, { MacroSet.empty with spares := y.2.spares }), evFly := [] }
    power := { s.power with trip := true } }

/-- A thermal sample, 10 us after the last one: at the trip point of any hall the supplies go. -/
def State.thermal (s : State) (temps : List (BitVec 16)) : State :=
  if s.clock.ns < s.power.sampledAt + 10000 then s
  else
    let t := ({ s with power := { s.power with sampledAt := s.clock.ns } } : State).sample temps
    if temps.take 64 |>.any fun x => decide (0x07D0 ≤ x.toNat) then t.tripped else t

/-! ### The controller (22 R378 to R380) -/

/-- The target draw G in W. -/
def Power.target (p : Power) : Nat := if p.capi = 0 then min p.balset.toNat p.cap.toNat else p.cap.toNat - p.margin.toNat

/-- The macro groups of a hall on which no task runs (22 R378, R379). -/
def State.idleGroups (s : State) (hall : Nat) : Nat := sumNat ((span (7 * hall) 7).map fun b => if s.setBusy b then 0 else 8)

/-- The admitted macros, in groups of four, of the windows of a hall whose regulators pre-position (13 R276). -/
def State.windowGroups (s : State) (hall : Nat) : Nat :=
  sumNat (s.ctxs.map fun x => sumNat ((x.windows.filter fun w => w.hall = hall && !w.open_ && decide (w.openAt ≤ s.clock.ns + 8000)).map
    fun w => (w.adm + 3) / 4))

/-- The groups that halls take of n, hall by hall: each its share of what is left and idle, then as much as there is. -/
def splitGrant (share idle : Nat → Nat) (n : Nat) (l : List Nat) : List Nat :=
  let first := l.foldl (fun (a : List Nat × Nat) h => let k := min (min (idle h) (share h)) a.2; (a.1 ++ [k], a.2 - k)) ([], n)
  ((l.zip first.1).foldl (fun (a : List Nat × Nat) x => let k := min (idle x.1 - x.2) a.2; (a.1 ++ [x.2 + k], a.2 - k))
    ([], first.2)).1

/-- The draw in W below which it may not fall in the coming microsecond, 0 where the slope is not bounded (22 R379). -/
def Power.floorDraw (p : Power) (w16 : Nat) (bounded : Bool) : Nat :=
  if p.wus = 0 || !bounded then 0 else ceilDiv w16 16 - p.wus.toNat

/-- The draw in W that the controller aims at next: a rise waits for its instant, a fall is bounded. -/
def Power.aim (p : Power) (w16 : Nat) (bounded : Bool) : Nat :=
  let draw := w16 / 16
  let g := p.target
  let low := p.floorDraw w16 bounded
  if draw < g && !(p.mayRaise || !p.lock || !p.stagEn) then max draw low else max g low

/-- The groups of halls lowered by what each asks for, hall by hall while there is something left that may go. -/
def lowerGrants (asks : Nat → Nat) (left : Nat) (l : List (Nat × Nat)) : List Nat :=
  match l with
  | [] => []
  | (n, h) :: t => let k := min (min n (asks h)) left; (n - k) :: lowerGrants asks (left - k) t

/-- The grants of the halls: as many groups as bring the draw from that of the tasks to a goal, and one more where it would fall below a floor;
no more than the groups idle in a hall; then lowered by the macros that a window about to open there admits, as far as the floor lets
them, since the slope bound goes before the window (22 R378, R379, R381). -/
def State.grants (s : State) (goal low task : Nat) : State :=
  let w := max 1 Config.groupWatts
  let n := (goal - task) / w
  let m := if task + n * w < low then n + 1 else n
  let l := splitGrant (Config.freeShare s.sched.moves) s.idleGroups m (List.range 64)
  let l1 := lowerGrants s.windowGroups (sumNat l - ceilDiv (low - task) w) l.zipIdx
  { s with fab := { s.fab with halls := s.fab.halls.zipIdx.map fun h => { h.1 with grant := l1.getD h.2 0 } } }

/-- A set whose ballast is cut to a number of groups, those that began last first. -/
def MacroSet.cutTo (m : MacroSet) (n : Nat) : MacroSet :=
  let keep := m.bursts.foldl (fun (a : List (Nat × Nat) × Nat) b => (a.1 ++ [(min b.1 a.2, b.2)], a.2 - b.1)) ([], n)
  { m with bursts := keep.1.filter fun b => b.1 ≠ 0 }

/-- The ballast of some bays cut to a number of groups in all. -/
def State.cutSets (s : State) (n : Nat) (bays : List Nat) : State :=
  match bays with
  | [] => s
  | b :: t =>
    let k := (s.macroSet b).ballast
    (if n < k then s.modSet b fun m => m.cutTo n else s).cutSets (n - k) t

/-- The ballast that runs in every hall cut to the hall's grant. -/
def State.cutBallast (s : State) : State :=
  (List.range 64).foldl (fun t h => t.cutSets (t.hall h).grant (span (7 * h) 7)) s

/-- The grant of every hall is 0. -/
def State.noGrants (s : State) : Bool := s.fab.halls.all fun h => h.grant = 0

/-- The integrator after a microsecond. -/
def Power.integrate (p : Power) (w16 : Nat) : BitVec 32 :=
  let cap := 16 * p.cap.toNat
  if cap < w16 then BitVec.ofNat 32 (min (2 ^ 32 - 1) (p.capi.toNat + (w16 - cap) / 16))
  else BitVec.ofNat 32 (p.capi.toNat - (cap - w16) / 16)

/-- The controller's registers after a microsecond: the draw, the integrator, pressure, the time above cap, which the draw passed in that
microsecond at the earliest as it began (22 R380). -/
def Power.measure (p : Power) (w16 now : Nat) (none_ : Bool) : Power :=
  let above := decide (16 * p.cap.toNat < w16)
  let capi := p.integrate w16
  let pressed := above || capi ≠ 0
  { p with
    w := BitVec.ofNat 32 w16
    capi := capi
    pressure := pressed
    since := if p.pressure && pressed && none_ then p.since else now
    aboveAt := if above then some (p.aboveAt.getD p.tickedAt) else none
    expired := above && p.expired
    mayRaise := false }

/-- Power pressure on the live tags of a context: at most once in 4 096 steps. -/
def Ctx.press (x : Ctx) (now : Nat) : Ctx :=
  if x.status = .absent || x.prio = 0 || decide (10 < x.prio) || x.pwrAt.any fun t => decide (now < t + 4096) then x
  else
    { x with
      pwrLim := BitVec.ofNat 16 (max 1 (x.live.length / 2))
      pwrAt := some now
      pwrUp := now }

/-- The draw has been above cap for 40 us: the slope is bounded no longer (22 R380). -/
def Power.slopeOver (p : Power) (now : Nat) : Bool := p.expired || p.aboveAt.any fun t => decide (t + 40000 ≤ now)

/-- One tick of the controller. -/
def State.tickNow (s : State) (d : Draw) : State :=
  let p := s.power
  let q := { p.measure d.w16 s.clock.ns s.noGrants with tickedAt := s.clock.ns }
  let late := q.slopeOver s.clock.ns
  let goal := ({ q with mayRaise := p.mayRaise } : Power).aim d.w16 (!late)
  let set := ({ s with power := q } : State).grants goal (q.floorDraw d.w16 (!late)) d.task
  let s1 := if late then set.cutBallast else set
  let s2 : State := if q.pressure then { s1 with ctxs := s1.ctxs.map fun x => x.press s.clock.steps } else s1
  if q.pressure && !p.pressure then s2.raise keystone 14 (BitVec.ofNat 512 (d.w16 % 2 ^ 32)) else s2

/-- A tick, a microsecond after the last one. -/
def State.tick (s : State) (d : Draw) : State := if s.clock.ns < s.power.tickedAt + 1000 then s else s.tickNow d

/-- Slope bounding above cap ends 40 us after the draw passed it: ballast falls at once to G. -/
def State.slopeExpires (s : State) (d : Draw) : State :=
  match s.power.aboveAt with
  | some t =>
    if t + 40000 ≤ s.clock.ns && !s.power.expired then
      (({ s with power := { s.power with expired := true } } : State).grants (min s.power.target (d.w16 / 16)) 0 d.task).cutBallast
    else s
  | none => s

/-- A step of k_p. -/
def Power.kpStep (p : Power) (now : Nat) : Power :=
  if now < p.kpAt + 16000 then p
  else if p.pressure then
    (if p.since + 64000 ≤ now then { p with kp := min 12 (p.kp + 2), kpAt := now } else p)
  else if p.kp = 0 then p
  else { p with kp := p.kp - 1, kpAt := now }

/-- A context's power limit doubles once pressure has ended. -/
def State.powerDouble (s : State) (c : Nat) : State :=
  let x := s.ctx c
  if s.power.pressure || x.pwrLim = 0xFFFF || decide (s.clock.steps < x.pwrUp + 4096) then s
  else s.modCtx c fun y => { y with pwrLim := BitVec.ofNat 16 (min 0xFFFF (2 * y.pwrLim.toNat)), pwrUp := s.clock.steps }

/-- The instant at which the controller may begin a rise (18 R336). -/
def State.staggerSlot (s : State) : State :=
  if s.clock.us % 128000 = 2000 * s.slot then { s with power := { s.power with mayRaise := true } } else s

/-- The ballast bursts of a bay that are over run no more; their groups are idle, and may be taken again as far as the grant goes. -/
def State.burstEnds (s : State) (bay : Nat) : State :=
  if (s.macroSet bay).bursts.any fun y => decide (y.2 ≤ s.clock.ns) then
    s.modSet bay fun x => { x with bursts := x.bursts.filter fun y => !(decide (y.2 ≤ s.clock.ns)) }
  else s

/-! ### The events of the Newels (20 R362; 22 R383, R384) -/

/-- A token queued at a Newel with its birth, or discarded. -/
def Newel.enqueue (n : Newel) (i : Nat) (birth : BitVec 32) (tok : Course) : Newel :=
  if (n.queued.filter fun q => q.1 = i).length < 8 then { n with queued := n.queued ++ [(i, birth, tok)] }
  else { n with evt := modAt n.evt i fun w => w ||| 32#64 }

/-- Event token k of those on their way arrives at its Newel, after those that the same unit issued to it before (22 R386). -/
def State.eventArrives (s : State) (k : Nat) : State :=
  match s.fab.evFly[k]? with
  | none => s
  | some e =>
    if e.by_.isSome && (s.fab.evFly.take k).any fun x => x.die = e.die && x.by_ = e.by_ then s
    else ({ s with fab := { s.fab with evFly := dropAt s.fab.evFly k } } : State).modNewel e.die fun x => x.enqueue e.n e.birth e.tok

/-- The lowest event that a Newel can take: pending, enabled, its context resident. -/
def State.takeable (s : State) (die : Nat) : Option Nat :=
  let n := s.newels.getD die Newel.reset
  (List.range 32).find? fun i =>
    bit (n.evt.getD i 0) 0 && bit n.pending i && s.resident (slice (n.evt.getD i 0) 2 2).toNat

/-- A handler that its event began and no move has fetched yet: no successor of anything (20 R362). -/
def Waiting.freshHandler (w : Waiting) : Bool :=
  match w.kind with
  | .handler _ first => first
  | _ => false

/-- The pending successor of a Newel: the chained one that came last. -/
def State.successorOf (s : State) (u : UnitId) : Option Waiting :=
  let mine (w : Waiting) : Bool := w.unit = u && !w.parked && !w.freshHandler && (match w.kind with
    | .chained => true
    | .handler _ _ => true
    | _ => false)
  firstBy (fun a b => decide (b.since < a.since)) ([0, 1, 2, 3].flatMap fun c => (s.ctx c).waiting.filter mine)

/-- The choice of a Newel goes back to its context, and is made again. -/
def State.unchooseUnit (s : State) (u : UnitId) : State :=
  match (s.cell u).chosen with
  | some v => (s.putCell u { s.cell u with chosen := none }).modCtx (tagCtx v.tag) fun x => { x with waiting := v :: x.waiting }
  | none => s

/-- The pending successor of a Newel goes onto its stack, if there is one (20 R362). -/
def State.saveSuccessor (s : State) (die : Nat) : State :=
  match s.successorOf (.newel die) with
  | some v => (s.modCtx (tagCtx v.tag) fun x => { x with waiting := removeOne x.waiting v }).modNewel die fun y =>
      { y with saved := y.saved ++ [some v] }
  | none => s

/-- The handler that event i of a Newel begins with a token of a birth epoch (22 R384). -/
def Newel.handler (n : Newel) (die i : Nat) (birth : BitVec 32) (tok : Course) (now : Nat) : Waiting :=
  let w := n.evt.getD i 0
  Waiting.fresh (.handler i true) (zextTo 66 (slice w 6 58)) (.newel die)
    (tagWord (slice w 2 2).toNat i (n.taken.getD i 0).toNat) 0 birth [⟨some ⟨.course, tok, false⟩, none, 0⟩] now

/-- A Newel between activations takes its lowest event: the successor saved, the handler begun. One that has chosen a handler and not fetched
it yet is not between activations. -/
def State.takeEvent (s : State) (die : Nat) : State :=
  let u : UnitId := .newel die
  let n := s.newels.getD die Newel.reset
  match s.takeable die with
  | none => s
  | some i =>
    if 4 ≤ die || (s.act u).isSome || (s.cell u).chosen.any Waiting.freshHandler || decide (4 ≤ n.saved.length) then s
    else
      let q := ((n.queued.find? fun q => q.1 = i).map (·.2)).getD (0, 0)
      let s1 := ((s.unchooseUnit u).saveSuccessor die).modNewel die fun y =>
        { y with
          queued := removeOne y.queued (i, q)
          taken := modAt y.taken i fun k => k + 1 }
      s1.putCell u { s1.cell u with chosen := some (n.handler die i q.1 q.2 s.sched.moves) }

/-- The firmware of the keystone Newel posts a host event as it takes one of its own: MSI-X vector 1 (18 R324; log 139). -/
def State.hostEvent (s : State) (die : Nat) (posts : Bool) : State :=
  if posts && die = keystone then { s with host := { s.host with msix := s.host.msix ||| 2#3 } } else s

/-- THERMAL_SAMPLE (22 R371). -/
def execThermalSample (s : State) : Result State := .next (s.thermal s.sched.subject.temps)
/-- POWER_CONTROL_TICK (22 R378). -/
def execPowerControlTick (s : State) : Result State := .next (s.tick s.sched.subject.draw)
/-- SLOPE_BOUND_EXPIRE (22 R380). -/
def execSlopeBoundExpire (s : State) : Result State := .next (s.slopeExpires s.sched.subject.draw)
/-- KP_STEP (22 R380). -/
def execKpStep (s : State) : Result State := .next { s with power := s.power.kpStep s.clock.ns }
/-- POWER_LIMIT_DOUBLE (22 R380). -/
def execPowerLimitDouble (s : State) : Result State := .next (s.powerDouble s.sched.subject.c)
/-- STAGGER_SLOT (18 R336). -/
def execStaggerSlot (s : State) : Result State := .next s.staggerSlot
/-- BALLAST_BURST_END (22 R379). -/
def execBallastBurstEnd (s : State) : Result State := .next (s.burstEnds s.sched.subject.k)
/-- NEWEL_EVENT_TAKE (22 R384). -/
def execNewelEventTake (s : State) : Result State := .next ((s.takeEvent s.sched.subject.k).hostEvent s.sched.subject.k s.sched.subject.flag)
/-- EVENT_QUEUE (22 R383). -/
def execEventQueue (s : State) : Result State := .next (s.eventArrives s.sched.subject.k)

end Sys2Proof.Machine
end

