-- ==== Sys2Proof/Machine/HostSide.lean ====
section
/-! DEFINITION. The mailbox, attestation, host register writes, flight-link flits, and reset (01 R15; 18 R324 to R333; 23 R392 to R397). -/
namespace Sys2Proof.Machine

/-! ### The mailbox (18 R328, R329) -/

/-- The host side changed. -/
def State.modHost (s : State) (f : HostSide → HostSide) : State := { s with host := f s.host }

/-- busy of HM.STAT. -/
def HostSide.busy (h : HostSide) : Bool := bit h.stat 8

/-- HM.GO written. -/
def State.mailboxGo (s : State) (w : Word) : State :=
  if !s.host.opened || !(bit w 0) then s
  else if s.host.busy || slice w 1 63 ≠ 0 then s.modHost fun h => { h with stat := h.stat ||| 512#64 }
  else s.modHost fun h => { h with latched := h.req, stat := h.stat ||| 256#64 }

/-- The address of a mailbox request. -/
def mailAddr (r : BitVec 192) : Nat := (slice r 0 56).toNat
/-- The length of a mailbox request. -/
def mailLen (r : BitVec 192) : Nat := (slice r 64 30).toNat

/-- A mailbox request is malformed (18 R329). -/
def mailBad (r : BitVec 192) : Bool :=
  mailLen r = 0 || decide (mailAddr r % 64 ≠ 0) || decide (2 ^ 56 < mailAddr r + mailLen r)

/-- HM.STAT at the end of a request: code, seq one more, busy clear. -/
def mailStat (w : Word) (code : Nat) : Word := (slice w 48 16 + 1) ++ 0#38 ++ BitVec.ofBool (bit w 9) ++ 0#1 ++ BitVec.ofNat 8 code

/-- The page-table words by which the system graph maps the image of a mailbox request (18 R329; log 54). -/
def State.mapMail (s : State) (l : List (Nat × Word)) : State :=
  l.foldl (fun t x => t.writeAt (hbmKey (x.1 / 8 * 8)) (natBytes x.2.toNat 8)) s

/-- The image of a mailbox request, at the base that it names. -/
def mailCopy (base : Nat) (l : List Byte) : ImageCopy := ⟨base, l, false⟩

/-- A mailbox request as a residency request: its image's base, its launch word (20 R357). -/
def mailRequest (base : Nat) (lw : Word) : Residency := ⟨false, BitVec.ofNat 128 (base % 2 ^ 72), lw, lwAsid lw⟩

/-- The number of the mailbox's residency request, which it takes when it first waits. -/
def State.mailNumber (s : State) : Nat := s.host.mailRes.getD s.host.nextRes

/-- The mailbox's request waits among the residency requests. -/
def State.queueMail (s : State) (r : Residency) : State :=
  if s.host.mailRes.isSome then s
  else s.modHost fun h => { h with resid := h.resid ++ [(r, h.nextRes)], nextRes := h.nextRes + 1, mailRes := some h.nextRes }

/-- The slot that the mailbox's request may be loaded into now: that of its launch word or another free one, where no waiting request goes
before it (20 R357). -/
def State.mailSlot (s : State) (lw : Word) : Option Nat :=
  if (firstRequest s.host.resid).any fun r => r.2 ≠ s.mailNumber then none
  else (lwCtx lw :: [0, 1, 2, 3]).find? fun c => (s.ctx c).status = .absent

/-- The measurement of a mailbox request's image, by the length that its header gives (23 R395), is one that the firmware allows (18 R329; log
13). -/
def measuredWell (h : ImageHead) (l : List Byte) : Bool := Config.allows (digest (if h.good then l.take h.length else l))

/-- The image of a mailbox request loaded: a resident context needs no slot, another takes a free one, or waits for an eviction (20 R357). The
state, and its code once it has ended. -/
def State.loadMail (s : State) (h : ImageHead) (lw : Word) (l : List Byte) : State × Option Nat :=
  let r := mailRequest h.base lw
  match s.residentFor r with
  | some c => (s.setPrio c (residencyLevel r), some 0)
  | none =>
    let t := s.queueMail r
    match t.mailSlot lw with
    | none => (t.serveResidency ⟨false, 0, [], false⟩, none)
    | some c =>
      match t.takeImage h h.base true lw (some c) (.ok (l.take h.length)) with
      | .loaded d y => (y.becomeResident d, some 0)
      | .refused k _ => (t, some k)
      | .stopped _ _ _ | .short => (t, some 5)

/-- A mailbox request carried out: the state, and its code once it has ended. It goes on only with every page of its image mapped. -/
def State.carryOut (s : State) (r : BitVec 192) (m : MailboxRead) : State × Option Nat :=
  if mailBad r then (s, some 10)
  else if m.err then (s, some 8)
  else
    let l := m.image.take (mailLen r)
    let h := readHead l
    let launch : Word := slice r 128 64
    let lw := if launch = 0 then h.launch else launch
    let copy := mailCopy h.base l
    let s1 := s.mapMail m.maps
    let refused := bit lw 38 && !(measuredWell h l)
    if !h.good then (s, some (if refused then 9 else if launchBad lw true then 3 else 5))
    else if copy.pieces.any (s1.pieceBad (lwAsid lw) false) then (s, none)
    else
      let s2 := s1.writeCopies (lwAsid lw) [copy]
      if refused then (s2, some 9)
      else if l.length < h.length then (s2, some 5)
      else if launchBad lw true then (s2, some 3)
      else s2.loadMail h lw l

/-- The mailbox request under way goes on, and ends where it can: code, seq, busy and vector 0. -/
def State.mailboxEnd (s : State) (m : MailboxRead) : State :=
  if !s.host.busy then s
  else match s.carryOut s.host.latched m with
    | (t, none) => t
    | (t, some k) => t.modHost fun h =>
      { h with
        stat := mailStat h.stat k
        msix := h.msix ||| 1#3
        resid := h.resid.filter fun r => some r.2 ≠ h.mailRes
        mailRes := none }

/-! ### Attestation (23 R395, R396) -/

/-- What a report says of a context: digest and launch word, zero where none is resident. -/
def Ctx.attested (x : Ctx) : BitVec 512 × Word := if x.status = .resident then (x.digest, x.launch) else (0, 0)

/-- HA.GO written: the contexts are those of that moment. -/
def State.attestGo (s : State) (w : Word) : State :=
  if !s.host.opened || !(bit w 0) then s
  else if bit s.host.haStat 1 then s.modHost fun h => { h with haStat := h.haStat ||| 4#64 }
  else s.modHost fun h => { h with haStat := h.haStat ||| 2#64, haCtxs := s.ctxs.map Ctx.attested }

/-- The bytes of a report that its signature covers. -/
def State.reportBody (s : State) : List Byte :=
  natBytes 1 4 ++ natBytes s.links.id.toNat 4 ++ natBytes s.host.nonce.toNat 32 ++ natBytes Config.firmwareDigest.toNat 64 ++
  s.host.haCtxs.flatMap fun x => natBytes x.1.toNat 64 ++ natBytes x.2.toNat 8

/-- A report completed. -/
def State.attestDone (s : State) : State :=
  if !(bit s.host.haStat 1) then s
  else
    let sign := (List.range 3309).map fun i => (Config.freeSignature s.sched.moves).getD i 0#8
    s.modHost fun h =>
      { h with
        report := s.reportBody ++ sign
        haStat := (slice h.haStat 48 16 + 1) ++ 0#45 ++ BitVec.ofBool (bit h.haStat 2) ++ 0#1 ++ BitVec.ofBool (bit h.haStat 0)
        msix := h.msix ||| 4#3 }

/-! ### Other host writes (01 R15; 18 R328; 23 R396) -/

/-- A register of n bits at a byte offset after a write of k bytes at another, within the mask of its writable bits. -/
def writeField {n : Nat} (x : BitVec n) (at_ off k : Nat) (d : BitVec 256) (writable : BitVec n) : BitVec n :=
  (List.range k).foldl
    (fun y i =>
      if off + i < at_ then y
      else
        let m := writable &&& (255#n <<< (8 * (off + i - at_)))
        (y &&& ~~~m) ||| ((zextTo n (slice d (8 * i) 8) <<< (8 * (off + i - at_))) &&& m)) x

/-- The writable bits of HM.REQ: launch, len and addr. -/
def mailMask : BitVec 192 := BitVec.ofNat 192 ((2 ^ 64 - 1) * 2 ^ 128 + (2 ^ 30 - 1) * 2 ^ 64 + (2 ^ 56 - 1))

/-- A bit of a status word cleared by a write of 1 to it. -/
def clearBit (x : Word) (i at_ off k : Nat) (d : BitVec 256) : Word :=
  if bit (writeField 0#64 at_ off k d (BitVec.allOnes 64)) i then x &&& ~~~(1#64 <<< i) else x

/-- A host write of k bytes at an offset of BAR 2 that starts nothing. -/
def State.barWrite (s : State) (off k : Nat) (d : BitVec 256) : State :=
  if !s.host.opened || decide (32 < k) then s
  else s.modHost fun h =>
    { h with
      req := if h.busy then h.req else writeField h.req 0x1000 off k d mailMask
      stat := clearBit h.stat 9 0x1020 off k d
      nonce := if bit h.haStat 1 then h.nonce else writeField h.nonce 0x2000 off k d (BitVec.allOnes 256)
      haStat := clearBit h.haStat 2 0x2028 off k d }

/-- The 64 bits that a read of BAR 2 finds at an offset: HD.ACC, HD.REF, HM.REQ, HM.STAT, HA.STAT and the report as they stand; the registers
that are write-only, HD.POST, HM.GO, HA.NONCE and HA.GO, return zero, as does an offset without a register (01 R15; 04 R78; 18 R328; 23
R396). -/
def HostSide.barWord (h : HostSide) (off : Nat) : Word :=
  if 0x100 ≤ off && decide (off < 0x120) then h.acc.getD ((off - 0x100) / 8) 0
  else if 0x140 ≤ off && decide (off < 0x160) then h.refWord ((off - 0x140) / 8)
  else if 0x1000 ≤ off && decide (off < 0x1018) then slice h.req (8 * (off - 0x1000)) 64
  else if off = 0x1020 then h.stat
  else if off = 0x2028 then h.haStat
  else if 0x3000 ≤ off && decide (off < 0x3000 + 3701) then BitVec.ofNat 64 (fieldAt h.report (off - 0x3000) 8)
  else 0

/-- A read of BAR 2 at a multiple of 8: the value, and HD.REF is then cleared. It is answered once the windows are open; where the firmware's check
has failed HA.STAT alone is (04 R78; 23 R394, R397). -/
def State.barRead (s : State) (off : Nat) : State :=
  if off % 8 ≠ 0 || !(s.host.opened || (s.host.halted && off = 0x2028)) then s
  else
    let read := s.emit (.hostReg off (s.host.barWord off))
    if 0x140 ≤ off && decide (off < 0x160) then read.modHost fun h => h.clearRef ((off - 0x140) / 8) else read

/-! ### Flight links (18 R330 to R333) -/

/-- A count of n bits with one more, saturating. -/
def satInc {n : Nat} (x : BitVec n) : BitVec n := if x = BitVec.allOnes n then x else x + 1

/-- A link port changed. -/
def State.modPort (s : State) (p : Nat) (f : LinkPort → LinkPort) : State :=
  { s with links := { s.links with ports := modAt s.links.ports p f } }

/-- The oldest flits of a port acknowledged, and those from a number on sent again where a replay is asked for (18 R331). -/
def State.acked (s : State) (p n : Nat) (again : Option (BitVec 8)) : State :=
  let s1 := s.modPort p fun y => { y with unacked := y.unacked.drop n }
  match again, s1.links.ports[p]? with
  | some q, some y => (y.unacked.dropWhile fun f => f.seq ≠ q).foldl (fun t f => t.emit (.flit p f)) s1
  | _, _ => s1

/-- What a flit tells beyond its bits, whose layout no rule gives (log 7): of a message of the clock, the time in ns that the clock takes and
whether it is then synchronised to within 1 us; of collective data, the group of its chunk. -/
structure FlitSays where
  time  : Nat
  lock  : Bool
  group : Nat
  deriving DecidableEq, Repr, Inhabited

/-- A message of the clock: it disciplines the clock, and is answered on vc 3 (18 R336; log 7). -/
def State.clockMessage (s : State) (src : Nat) (x : FlitSays) : State :=
  ({ s with clock := { s.clock with us := x.time }, power := { s.power with lock := x.lock } } : State).sendFlits 3 src
    (Config.messageFlits s.sched.moves)

/-- A flit for this device, on its virtual channel: collective data is kept until its chunk is whole (18 R335). -/
def State.localFlit (s : State) (p : Nat) (f : Flit) (x : FlitSays) : State :=
  if f.vc = 2 then { s with links := { s.links with rx := s.links.rx ++ [(p, x.group, f)] } }
  else if f.vc = 3 then s.clockMessage f.src.toNat x
  else s.emit (.local_ f)

/-- The credits of vc 2 of a port are withheld from the other end: what the port holds leaves no room for a flit in 64 KiB, or the port on
which a flit would go on has none itself (17 R323; 18 R333). -/
def State.noCredit (s : State) (p : Nat) (f : Flit) : Bool :=
  f.vc = 2 &&
  (if f.dst.toNat = s.links.id.toNat then decide (65536 < s.heldBytes p + 64)
   else (s.route f.dst.toNat).any fun q => (s.links.ports[q]?).any (·.withheld))

/-- A flit at a port: replayed, discarded, forwarded, or delivered here (18 R331, R333). One for which the sender has no credits has not been
sent: it takes no number, and what follows on other channels goes before it (17 R323). -/
def State.flit (s : State) (p : Nat) (f : Flit) (y : FlitSays) : State :=
  match s.links.ports[p]? with
  | none => s
  | some x =>
    if !f.crcOk then (s.modPort p fun y => { y with crc := satInc y.crc }).emit (.replay p x.seq.toNat)
    else if f.seq ≠ x.seq || s.noCredit p f then s
    else
      let s1 := s.modPort p fun y => { y with seq := y.seq + 1 }
      if 4 ≤ f.vc.toNat then s1.modPort p fun y => { y with vc := satInc y.vc }
      else if f.dst.toNat = s.links.id.toNat then s1.localFlit p f y
      else match s.route f.dst.toNat with
        | some q => s1.sendFlit q f
        | none => s1

/-- What comes in on a link: acknowledgements of n flits, a request to send again from a number, whether the other end withholds the credits of vc
2, and a flit. -/
def State.linkIn (s : State) (x : Subject) : State :=
  ((s.acked x.k x.e (if x.id = 0 then none else some (BitVec.ofNat 8 (x.id - 1)))).modPort x.k fun y => { y with withheld := x.off ≠ 0 }).flit
    x.k x.flit ⟨x.len, x.flag, x.chunk.group⟩

/-- A port retrains; its spare lane may take the place of a failing one. -/
def State.retrain (s : State) (p : Nat) (spare : Bool) : State :=
  s.modPort p fun y => { y with retrain := satInc y.retrain, spare := y.spare || spare, up := true }

/-! ### Reset (23 R392, R397) -/

/-- A die whose marked row is replaced by the spare row, where that is still free; its row's spare elements are the new row's. -/
def Die.reset (d : Die) (die : Nat) : Die :=
  match d.marked, d.spareRow with
  | some r, false =>
    let mine (e : Nat) : Bool := rowOfHall (hallOfBay (bayOf e)) = r && dieOfBay (bayOf e) = die
    { d with
      rows := modAt d.rows r fun _ => 4
      spareRow := true
      marked := none
      elems := d.elems.filter fun e => !(mine e.1)
      aged := d.aged.filter fun y => !(match y.1 with
        | .element e => mine e
        | _ => false) }
  | _, _ => { d with marked := none }

/-- A hall's row is the one that its die replaces at reset. -/
def Fabric.replaced (f : Fabric) (h : Nat) : Bool :=
  match f.dies[dieOfHall h]? with
  | some d => !d.spareRow && d.marked = some (rowOfHall h)
  | none => false

/-- The fabric after a reset whose firmware check failed: nothing is replaced or deconfigured, and what waits for that waits on (23 R397). -/
def Fabric.unchecked (f : Fabric) (now : Clock) : Fabric :=
  { Fabric.reset with
    halls := f.halls.map fun h => { Hall.reset with heldAt := now.ns, checkedAt := now.ns, failed := h.failed }
    epochFrom := now.steps
    countedAt := now.steps
    sets := f.sets.map fun y => (y.1, { MacroSet.empty with spares := y.2.spares })
    dies := f.dies
    dead := f.dead
    failed := f.failed }

/-- The fabric after reset: rows replaced; slices that failed with the spare row in use are deconfigured. -/
def Fabric.afterReset (f : Fabric) (now : Clock) : Fabric :=
  let gone := (List.range 64).filter fun h => !(f.replaced h) && ((f.halls[h]?).map fun x => x.failed).getD false
  { Fabric.reset with
    halls := List.replicate 64 { Hall.reset with heldAt := now.ns, checkedAt := now.ns }
    epochFrom := now.steps
    countedAt := now.steps
    sets := (f.sets.filter fun y => !(f.replaced (hallOfBay y.1))).map fun y => (y.1, { MacroSet.empty with spares := y.2.spares })
    dies := f.dies.zipIdx.map fun d => d.1.reset d.2
    dead := f.dead ++ gone.filter fun h => !(f.dead.contains h)
    failed := f.failed.filter fun b => !(f.replaced (hallOfBay b)) }

/-- A key of the stacks or the Undercroft whose contents a reset keeps: not in a stack of a wing whose N changes (10 R209). -/
def keptKey (f g : Fabric) (k : Nat) : Bool :=
  decide (k < 2 ^ 42) &&
  (decide (2 ^ 39 ≤ k) ||
    (f.dead.filter fun h => wingOfHall h = k / 2 ^ 36).length = (g.dead.filter fun h => wingOfHall h = k / 2 ^ 36).length)

/-- Reset, cold or after a trip, as bring-up finds and writes it. A check that fails halts the Newels: steps 2 to 6 are not run (23 R394,
R397). -/
def State.restart (s : State) (b : Boot) : State :=
  let f := if b.verified then s.fab.afterReset s.clock else s.fab.unchecked s.clock
  { State.reset with
    sched := s.sched
    clock := s.clock
    mem := s.mem.filter fun c => keptKey s.fab f c.1
    net := { Net.reset with
      captags := s.net.captags.filter (keptKey s.fab f)
      poison := s.net.poison.filter (keptKey s.fab f)
      asidTab := if b.verified then b.asidTab else 0
      out := s.net.out }
    fab := f
    power := { Power.reset with lock := b.verified && b.lock, sampledAt := s.clock.ns, tickedAt := s.clock.ns }
    host := { HostSide.reset with
      haStat := if b.verified then 0 else 1
      ucie := s.host.ucie
      trained := s.host.trained
      booted := b.verified
      halted := !b.verified
      opened := b.verified }
    links := if b.verified then { Links.reset with id := b.lkId, group := b.group, locals := b.locals } else Links.reset }

/-- An event that a device without supplies, or with its Newels halted, has no part in: only reset acts after a trip (22 R374); with
the Newels halted no request of their system graph is served, and their firmware writes no remap entry and clones nothing (23 R394). -/
def State.off (s : State) (i : Instr) : Bool :=
  match i with
  | .reset => false
  | .residencyRequest | .ageingLimitPass | .cloneWindowCheck => s.power.trip || s.host.halted
  | _ => s.power.trip

/-- HD_REF_READ (04 R78): a read of BAR 2, of HD.REF or of another of its registers. -/
def execHdRefRead (s : State) : Result State := .next (s.barRead s.sched.subject.off)
/-- HM_GO (18 R329). -/
def execHmGo (s : State) : Result State := .next (s.mailboxGo (slice s.sched.subject.data 0 64))
/-- MAILBOX_REQUEST_END (18 R329). -/
def execMailboxRequestEnd (s : State) : Result State := .next (s.mailboxEnd s.sched.subject.mail)
/-- HA_GO (23 R396). -/
def execHaGo (s : State) : Result State := .next (s.attestGo (slice s.sched.subject.data 0 64))
/-- ATTEST_REPORT_COMPLETE (23 R396). -/
def execAttestReportComplete (s : State) : Result State := .next s.attestDone
/-- RESET (23 R397). -/
def execReset (s : State) : Result State := .next (s.restart s.sched.subject.boot)
/-- REGISTER_WRITE (01 R15). -/
def execRegisterWrite (s : State) : Result State :=
  .next (s.barWrite s.sched.subject.off s.sched.subject.len s.sched.subject.data)
/-- FLIT_RECEIVE (18 R331). -/
def execFlitReceive (s : State) : Result State := .next (s.linkIn s.sched.subject)
/-- LINK_RETRAIN (18 R330). -/
def execLinkRetrain (s : State) : Result State := .next (s.retrain s.sched.subject.k s.sched.subject.flag)

end Sys2Proof.Machine
end

