-- ==== Sys2Proof/Machine/Dispatch.lean ====
section
/-! DEFINITION. The dispatch: one arm for each instruction, each a direct call of its meaning. -/
namespace Sys2Proof.Machine

def exec (i : Instr) (s : State) : Host.Outcome State Fault Refusal :=
  match i with
  | .nop r => Sys2Proof.Machine.execNop r s
  | .exitOp r => Sys2Proof.Machine.execExitOp r s
  | .exitp r => Sys2Proof.Machine.execExitp r s
  | .exitx r => Sys2Proof.Machine.execExitx r s
  | .pass r => Sys2Proof.Machine.execPass r s
  | .gate r => Sys2Proof.Machine.execGate r s
  | .steer r => Sys2Proof.Machine.execSteer r s
  | .mergeOp r => Sys2Proof.Machine.execMergeOp r s
  | .litOp r => Sys2Proof.Machine.execLitOp r s
  | .tget r => Sys2Proof.Machine.execTget r s
  | .tset r => Sys2Proof.Machine.execTset r s
  | .callb r => Sys2Proof.Machine.execCallb r s
  | .retb r => Sys2Proof.Machine.execRetb r s
  | .trap r => Sys2Proof.Machine.execTrap r s
  | .brk r => Sys2Proof.Machine.execBrk r s
  | .add r => Sys2Proof.Machine.execAdd r s
  | .sub r => Sys2Proof.Machine.execSub r s
  | .mul r => Sys2Proof.Machine.execMul r s
  | .mulh r => Sys2Proof.Machine.execMulh r s
  | .mad r => Sys2Proof.Machine.execMad r s
  | .div r => Sys2Proof.Machine.execDiv r s
  | .rem r => Sys2Proof.Machine.execRem r s
  | .neg r => Sys2Proof.Machine.execNeg r s
  | .abs r => Sys2Proof.Machine.execAbs r s
  | .min r => Sys2Proof.Machine.execMin r s
  | .max r => Sys2Proof.Machine.execMax r s
  | .shl r => Sys2Proof.Machine.execShl r s
  | .shr r => Sys2Proof.Machine.execShr r s
  | .andOp r => Sys2Proof.Machine.execAndOp r s
  | .orOp r => Sys2Proof.Machine.execOrOp r s
  | .xorOp r => Sys2Proof.Machine.execXorOp r s
  | .notOp r => Sys2Proof.Machine.execNotOp r s
  | .popc r => Sys2Proof.Machine.execPopc r s
  | .clz r => Sys2Proof.Machine.execClz r s
  | .brev r => Sys2Proof.Machine.execBrev r s
  | .bext r => Sys2Proof.Machine.execBext r s
  | .bins r => Sys2Proof.Machine.execBins r s
  | .rot r => Sys2Proof.Machine.execRot r s
  | .cmp r => Sys2Proof.Machine.execCmp r s
  | .selp r => Sys2Proof.Machine.execSelp r s
  | .clamp r => Sys2Proof.Machine.execClamp r s
  | .cgetf r => Sys2Proof.Machine.execCgetf r s
  | .csetb r => Sys2Proof.Machine.execCsetb r s
  | .cinc r => Sys2Proof.Machine.execCinc r s
  | .csetc r => Sys2Proof.Machine.execCsetc r s
  | .cperm r => Sys2Proof.Machine.execCperm r s
  | .cseal r => Sys2Proof.Machine.execCseal r s
  | .cunseal r => Sys2Proof.Machine.execCunseal r s
  | .ctag r => Sys2Proof.Machine.execCtag r s
  | .cdiff r => Sys2Proof.Machine.execCdiff r s
  | .cderiv r => Sys2Proof.Machine.execCderiv r s
  | .fadd r => Sys2Proof.Machine.execFadd r s
  | .fsub r => Sys2Proof.Machine.execFsub r s
  | .fmul r => Sys2Proof.Machine.execFmul r s
  | .ffma r => Sys2Proof.Machine.execFfma r s
  | .fdiv r => Sys2Proof.Machine.execFdiv r s
  | .fsqrt r => Sys2Proof.Machine.execFsqrt r s
  | .frsq r => Sys2Proof.Machine.execFrsq r s
  | .fmin r => Sys2Proof.Machine.execFmin r s
  | .fmax r => Sys2Proof.Machine.execFmax r s
  | .fcmp r => Sys2Proof.Machine.execFcmp r s
  | .fcls r => Sys2Proof.Machine.execFcls r s
  | .fcvt r => Sys2Proof.Machine.execFcvt r s
  | .icvt r => Sys2Proof.Machine.execIcvt r s
  | .frnd r => Sys2Proof.Machine.execFrnd r s
  | .vadd r => Sys2Proof.Machine.execVadd r s
  | .vsub r => Sys2Proof.Machine.execVsub r s
  | .vmul r => Sys2Proof.Machine.execVmul r s
  | .vfma r => Sys2Proof.Machine.execVfma r s
  | .vmin r => Sys2Proof.Machine.execVmin r s
  | .vmax r => Sys2Proof.Machine.execVmax r s
  | .vscl r => Sys2Proof.Machine.execVscl r s
  | .vcmp r => Sys2Proof.Machine.execVcmp r s
  | .vsel r => Sys2Proof.Machine.execVsel r s
  | .vbit r => Sys2Proof.Machine.execVbit r s
  | .vshf r => Sys2Proof.Machine.execVshf r s
  | .vsum r => Sys2Proof.Machine.execVsum r s
  | .vdot r => Sys2Proof.Machine.execVdot r s
  | .vrmax r => Sys2Proof.Machine.execVrmax r s
  | .vperm r => Sys2Proof.Machine.execVperm r s
  | .vbcst r => Sys2Proof.Machine.execVbcst r s
  | .vext r => Sys2Proof.Machine.execVext r s
  | .vins r => Sys2Proof.Machine.execVins r s
  | .vcvt r => Sys2Proof.Machine.execVcvt r s
  | .vqnt r => Sys2Proof.Machine.execVqnt r s
  | .vexp r => Sys2Proof.Machine.execVexp r s
  | .vln r => Sys2Proof.Machine.execVln r s
  | .vrcp r => Sys2Proof.Machine.execVrcp r s
  | .vrsq r => Sys2Proof.Machine.execVrsq r s
  | .vact r => Sys2Proof.Machine.execVact r s
  | .hfwd r => Sys2Proof.Machine.execHfwd r s
  | .hinv r => Sys2Proof.Machine.execHinv r s
  | .hthr r => Sys2Proof.Machine.execHthr r s
  | .hrec r => Sys2Proof.Machine.execHrec r s
  | .hget r => Sys2Proof.Machine.execHget r s
  | .htag r => Sys2Proof.Machine.execHtag r s
  | .hbias r => Sys2Proof.Machine.execHbias r s
  | .hspan r => Sys2Proof.Machine.execHspan r s
  | .hcnt r => Sys2Proof.Machine.execHcnt r s
  | .rrd r => Sys2Proof.Machine.execRrd r s
  | .rwr r => Sys2Proof.Machine.execRwr r s
  | .radv r => Sys2Proof.Machine.execRadv r s
  | .wadv r => Sys2Proof.Machine.execWadv r s
  | .rfill r => Sys2Proof.Machine.execRfill r s
  | .falloc r => Sys2Proof.Machine.execFalloc r s
  | .ffree r => Sys2Proof.Machine.execFfree r s
  | .flds r => Sys2Proof.Machine.execFlds r s
  | .fsts r => Sys2Proof.Machine.execFsts r s
  | .sendt r => Sys2Proof.Machine.execSendt r s
  | .tagn r => Sys2Proof.Machine.execTagn r s
  | .tagr r => Sys2Proof.Machine.execTagr r s
  | .dmd r => Sys2Proof.Machine.execDmd r s
  | .dget r => Sys2Proof.Machine.execDget r s
  | .dxfm r => Sys2Proof.Machine.execDxfm r s
  | .stime r => Sys2Proof.Machine.execStime r s
  | .stset r => Sys2Proof.Machine.execStset r s
  | .land r => Sys2Proof.Machine.execLand r s
  | .lfind r => Sys2Proof.Machine.execLfind r s
  | .lrest r => Sys2Proof.Machine.execLrest r s
  | .silent r => Sys2Proof.Machine.execSilent r s
  | .ddone r => Sys2Proof.Machine.execDdone r s
  | .ld r => Sys2Proof.Machine.execLd r s
  | .st r => Sys2Proof.Machine.execSt r s
  | .ldc r => Sys2Proof.Machine.execLdc r s
  | .stc r => Sys2Proof.Machine.execStc r s
  | .ldq r => Sys2Proof.Machine.execLdq r s
  | .stq r => Sys2Proof.Machine.execStq r s
  | .pref r => Sys2Proof.Machine.execPref r s
  | .ldx r => Sys2Proof.Machine.execLdx r s
  | .stx r => Sys2Proof.Machine.execStx r s
  | .lds r => Sys2Proof.Machine.execLds r s
  | .sts r => Sys2Proof.Machine.execSts r s
  | .fence r => Sys2Proof.Machine.execFence r s
  | .acq r => Sys2Proof.Machine.execAcq r s
  | .rel r => Sys2Proof.Machine.execRel r s
  | .aop r => Sys2Proof.Machine.execAop r s
  | .acas r => Sys2Proof.Machine.execAcas r s
  | .afadd r => Sys2Proof.Machine.execAfadd r s
  | .cmb r => Sys2Proof.Machine.execCmb r s
  | .cmbi r => Sys2Proof.Machine.execCmbi r s
  | .ared r => Sys2Proof.Machine.execAred r s
  | .mldb r => Sys2Proof.Machine.execMldb r s
  | .mtask r => Sys2Proof.Machine.execMtask r s
  | .mrow r => Sys2Proof.Machine.execMrow r s
  | .macc r => Sys2Proof.Machine.execMacc r s
  | .meor r => Sys2Proof.Machine.execMeor r s
  | .mspl r => Sys2Proof.Machine.execMspl r s
  | .mrst r => Sys2Proof.Machine.execMrst r s
  | .mzro r => Sys2Proof.Machine.execMzro r s
  | .mpln r => Sys2Proof.Machine.execMpln r s
  | .mqry r => Sys2Proof.Machine.execMqry r s
  | .mcut r => Sys2Proof.Machine.execMcut r s
  | .cpy r => Sys2Proof.Machine.execCpy r s
  | .cpyq r => Sys2Proof.Machine.execCpyq r s
  | .twall r => Sys2Proof.Machine.execTwall r s
  | .twany r => Sys2Proof.Machine.execTwany r s
  | .tffr r => Sys2Proof.Machine.execTffr r s
  | .tclr r => Sys2Proof.Machine.execTclr r s
  | .bari r => Sys2Proof.Machine.execBari r s
  | .barv r => Sys2Proof.Machine.execBarv r s
  | .barw r => Sys2Proof.Machine.execBarw r s
  | .barq r => Sys2Proof.Machine.execBarq r s
  | .collGather r => Sys2Proof.Machine.execCollGather r s
  | .collRsum r => Sys2Proof.Machine.execCollRsum r s
  | .collAsum r => Sys2Proof.Machine.execCollAsum r s
  | .collBcast r => Sys2Proof.Machine.execCollBcast r s
  | .cxpt r => Sys2Proof.Machine.execCxpt r s
  | .xsect r => Sys2Proof.Machine.execXsect r s
  | .fibrd r => Sys2Proof.Machine.execFibrd r s
  | .fibwr r => Sys2Proof.Machine.execFibwr r s
  | .stopn r => Sys2Proof.Machine.execStopn r s
  | .spacc r => Sys2Proof.Machine.execSpacc r s
  | .spfl r => Sys2Proof.Machine.execSpfl r s
  | .pxlt r => Sys2Proof.Machine.execPxlt r s
  | .kvapp r => Sys2Proof.Machine.execKvapp r s
  | .kvlen r => Sys2Proof.Machine.execKvlen r s
  | .smxm r => Sys2Proof.Machine.execSmxm r s
  | .smxf r => Sys2Proof.Machine.execSmxf r s
  | .phase r => Sys2Proof.Machine.execPhase r s
  | .phend r => Sys2Proof.Machine.execPhend r s
  | .ball r => Sys2Proof.Machine.execBall r s
  | .crd r => Sys2Proof.Machine.execCrd r s
  | .cwr r => Sys2Proof.Machine.execCwr r s
  | .tlbi r => Sys2Proof.Machine.execTlbi r s
  | .tlbs r => Sys2Proof.Machine.execTlbs r s
  | .iret r => Sys2Proof.Machine.execIret r s
  | .prio r => Sys2Proof.Machine.execPrio r s
  | .ctxlLoad r => Sys2Proof.Machine.execCtxlLoad r s
  | .ctxlResume r => Sys2Proof.Machine.execCtxlResume r s
  | .ctxe r => Sys2Proof.Machine.execCtxe r s
  | .retryPort r => Sys2Proof.Machine.execRetryPort r s
  | .retryFrame r => Sys2Proof.Machine.execRetryFrame r s
  | .wfe r => Sys2Proof.Machine.execWfe r s
  | .evsig r => Sys2Proof.Machine.execEvsig r s
  | .migr r => Sys2Proof.Machine.execMigr r s
  | .thrt r => Sys2Proof.Machine.execThrt r s
  | .schedulerChoice => Sys2Proof.Machine.execSchedulerChoice s
  | .blockFetch => Sys2Proof.Machine.execBlockFetch s
  | .predictorFetch => Sys2Proof.Machine.execPredictorFetch s
  | .activationEnd => Sys2Proof.Machine.execActivationEnd s
  | .commitMoment => Sys2Proof.Machine.execCommitMoment s
  | .tokenMatch => Sys2Proof.Machine.execTokenMatch s
  | .backpressuredTokenRetry => Sys2Proof.Machine.execBackpressuredTokenRetry s
  | .combiningTokenArrival => Sys2Proof.Machine.execCombiningTokenArrival s
  | .sinkTokenArrival => Sys2Proof.Machine.execSinkTokenArrival s
  | .sinkDemandRelease => Sys2Proof.Machine.execSinkDemandRelease s
  | .hostDemandPost => Sys2Proof.Machine.execHostDemandPost s
  | .hdRefRead => Sys2Proof.Machine.execHdRefRead s
  | .demandReduce => Sys2Proof.Machine.execDemandReduce s
  | .rtfBlockFire => Sys2Proof.Machine.execRtfBlockFire s
  | .issueCounterFire => Sys2Proof.Machine.execIssueCounterFire s
  | .unboundedIntervalStart => Sys2Proof.Machine.execUnboundedIntervalStart s
  | .storeLimitDouble => Sys2Proof.Machine.execStoreLimitDouble s
  | .cloneWindowCheck => Sys2Proof.Machine.execCloneWindowCheck s
  | .storePerform => Sys2Proof.Machine.execStorePerform s
  | .loadReturn => Sys2Proof.Machine.execLoadReturn s
  | .atomicPerform => Sys2Proof.Machine.execAtomicPerform s
  | .releaseIncrement => Sys2Proof.Machine.execReleaseIncrement s
  | .pageWalkComplete => Sys2Proof.Machine.execPageWalkComplete s
  | .portWindowUpdate => Sys2Proof.Machine.execPortWindowUpdate s
  | .migrationSwitch => Sys2Proof.Machine.execMigrationSwitch s
  | .movedReissue => Sys2Proof.Machine.execMovedReissue s
  | .hbmBandChange => Sys2Proof.Machine.execHbmBandChange s
  | .hostMemRead => Sys2Proof.Machine.execHostMemRead s
  | .hostMemWrite => Sys2Proof.Machine.execHostMemWrite s
  | .peerRequest => Sys2Proof.Machine.execPeerRequest s
  | .engineOpStart => Sys2Proof.Machine.execEngineOpStart s
  | .engineOpComplete => Sys2Proof.Machine.execEngineOpComplete s
  | .barrierContribution => Sys2Proof.Machine.execBarrierContribution s
  | .collChunkArrival => Sys2Proof.Machine.execCollChunkArrival s
  | .flitReceive => Sys2Proof.Machine.execFlitReceive s
  | .linkRetrain => Sys2Proof.Machine.execLinkRetrain s
  | .lkErrRead => Sys2Proof.Machine.execLkErrRead s
  | .nodeRelease => Sys2Proof.Machine.execNodeRelease s
  | .taskIssue => Sys2Proof.Machine.execTaskIssue s
  | .declaredStartSlot => Sys2Proof.Machine.execDeclaredStartSlot s
  | .rowTagApply => Sys2Proof.Machine.execRowTagApply s
  | .powerWindowOpen => Sys2Proof.Machine.execPowerWindowOpen s
  | .powerWindowClose => Sys2Proof.Machine.execPowerWindowClose s
  | .macroFailure => Sys2Proof.Machine.execMacroFailure s
  | .hwDatapathError => Sys2Proof.Machine.execHwDatapathError s
  | .poolUncorrectable => Sys2Proof.Machine.execPoolUncorrectable s
  | .elementFailure => Sys2Proof.Machine.execElementFailure s
  | .contextReplay => Sys2Proof.Machine.execContextReplay s
  | .linePoison => Sys2Proof.Machine.execLinePoison s
  | .undervoltUe => Sys2Proof.Machine.execUndervoltUe s
  | .linkLost => Sys2Proof.Machine.execLinkLost s
  | .evictionSave => Sys2Proof.Machine.execEvictionSave s
  | .evictionComplete => Sys2Proof.Machine.execEvictionComplete s
  | .residencyRequest => Sys2Proof.Machine.execResidencyRequest s
  | .ctxlLoadDone => Sys2Proof.Machine.execCtxlLoadDone s
  | .tlbiInvalidate => Sys2Proof.Machine.execTlbiInvalidate s
  | .tlbiDrainComplete => Sys2Proof.Machine.execTlbiDrainComplete s
  | .thermalSample => Sys2Proof.Machine.execThermalSample s
  | .undervoltCheck => Sys2Proof.Machine.execUndervoltCheck s
  | .safePointTimer => Sys2Proof.Machine.execSafePointTimer s
  | .floorLockExpire => Sys2Proof.Machine.execFloorLockExpire s
  | .powerControlTick => Sys2Proof.Machine.execPowerControlTick s
  | .slopeBoundExpire => Sys2Proof.Machine.execSlopeBoundExpire s
  | .kpStep => Sys2Proof.Machine.execKpStep s
  | .powerLimitDouble => Sys2Proof.Machine.execPowerLimitDouble s
  | .staggerSlot => Sys2Proof.Machine.execStaggerSlot s
  | .ballastBurstEnd => Sys2Proof.Machine.execBallastBurstEnd s
  | .newelEventTake => Sys2Proof.Machine.execNewelEventTake s
  | .eventQueue => Sys2Proof.Machine.execEventQueue s
  | .ageingLimitPass => Sys2Proof.Machine.execAgeingLimitPass s
  | .hmGo => Sys2Proof.Machine.execHmGo s
  | .mailboxRequestEnd => Sys2Proof.Machine.execMailboxRequestEnd s
  | .haGo => Sys2Proof.Machine.execHaGo s
  | .attestReportComplete => Sys2Proof.Machine.execAttestReportComplete s
  | .reset => Sys2Proof.Machine.execReset s
  | .registerWrite => Sys2Proof.Machine.execRegisterWrite s
  | .stallCounterStep => Sys2Proof.Machine.execStallCounterStep s
  | .epochCountAdvance => Sys2Proof.Machine.execEpochCountAdvance s
  | .ucieLinkTraining => Sys2Proof.Machine.execUcieLinkTraining s
  | .sliceFailure => Sys2Proof.Machine.execSliceFailure s

end Sys2Proof.Machine
end

