-- ==== Sys2Proof/Machine/Tie.lean ====
section
/-! DEFINITION. What one move does, and which of two records that fault in one step is reported (08 R143). -/
namespace Sys2Proof.Machine

/-- What a move does in the state in which it begins. An event acts by its meaning, where the device is not off (22 R374); a firing
fetches the record's word from the block that its unit executes, decodes it and acts by the instruction's meaning. A record that
does not decode faults its activation (06 R120). -/
def runMove (s : State) (k : MoveKind) : Host.Outcome State Fault Refusal :=
  match k with
  | .event i _ => if i.record?.isSome then .fault .noSuchEvent else if s.off i then .next s else exec i s
  | .fire u j =>
    match fetchRecord s u j with
    | none => .next s
    | some (.error t) => .next t
    | some (.ok i) => exec i s

/-- The unit of a state has ended an activation that it executed. -/
def endedOn (s t : State) (u : UnitId) : Bool := (s.act u).isSome && (t.act u).isNone

/-- Among the coming moves of the step a record below j of the activation on a unit faults it (08 R143). A record from j on that would
fault is passed over. -/
def lowerFaults (u : UnitId) (j : Nat) (s : State) (l : List Move) : Bool :=
  match l with
  | [] => false
  | m :: rest =>
    let s1 := s.begin m rest
    if m.steps ≠ 0 then false
    else match runMove s1 m.kind, m.kind with
      | .next t, .fire v k =>
        if v = u && endedOn s1 t u then decide (k < j) || lowerFaults u j s1 rest else lowerFaults u j t rest
      | .next t, .event _ _ => endedOn s1 t u = false && lowerFaults u j t rest
      | .fault _, _ => false
      | .refused _, _ => false

/-- A MERGE of the activation on a unit would fire on its port b, whose token came in this step (08 R146). -/
def State.mergesB (s : State) (u : UnitId) (j : Nat) : Bool :=
  match s.act u with
  | none => false
  | some a => ((a.info j).any fun x => x.1 = .mergeOp) && (a.slot j).a.isNone && (a.slot j).first = some (false, s.clock.steps)

/-- Among the coming moves of the step one brings the token of port a of a record of the activation on a unit. -/
def bringsA (u : UnitId) (j : Nat) (s : State) (l : List Move) : Bool :=
  match l with
  | [] => false
  | m :: rest =>
    let s1 := s.begin m rest
    if m.steps ≠ 0 then false
    else if m.kind = .fire u j then bringsA u j s1 rest
    else match runMove s1 m.kind with
      | .next t => !(endedOn s1 t u) && (((t.act u).any fun a => (a.slot j).a.isSome) || bringsA u j t rest)
      | .fault _ | .refused _ => false

/-- The record that a move fires does not fire yet: it faults its activation, and a lower record faults it in the same step, which is
the one reported (08 R143); or it is a MERGE with a token on port b whose port a gets one in the same step, which wins (08 R146). A Newel
fires one record at a time (02 R39). -/
def tied (s : State) (k : MoveKind) : Bool :=
  match k with
  | .event _ _ => false
  | .fire u j =>
    !(isNewel u) && ((s.mergesB u j && bringsA u j s s.sched.agenda) || match runMove s k with
      | .next t => endedOn s t u && lowerFaults u j s s.sched.agenda
      | .fault _ => false
      | .refused _ => false)

end Sys2Proof.Machine
end

