-- ==== Sys2Proof/Machine/Step.lean ====
section
/-! DEFINITION. One step of the device: the next move is a device event or the firing of one record (02 R33, R42; log 1). -/
namespace Sys2Proof.Machine

/-- One step: the next move begins and does what it does; a firing that a lower record's fault of the same step comes before does
nothing (08 R143). -/
def step (s : State) : Host.Outcome State Fault Refusal :=
  let m := s.nextMove
  let s1 := s.begin m.1 m.2
  if tied s1 m.1.kind then .next s1 else runMove s1 m.1.kind

/-- The state with an instruction placed where step fires its next record (log 3): a record stands in an activation of the
Newel of die 0, alone, with its operand tokens zero; the bits of a record above nbits are zero. -/
def State.withFetchWord (s : State) (nbits w : Nat) : State := s.placeWord (BitVec.ofNat 96 (w % 2 ^ nbits))

end Sys2Proof.Machine
end

