-- ==== Sys2Proof/WellFormed.lean ====
section
/-! DEFINITION. Which instructions are well formed: those that some block could hold (06 R112, R120). -/
namespace Sys2Proof

/-- The fields pass every check of R120 that the widest block makes; a device event is always well formed, its subject
being judged where it acts. -/
def Instr.wellFormed (i : Instr) : Bool :=
  match i.record? with
  | none => true
  | some (o, r) => fieldFault .widest o r = 99

end Sys2Proof
end

