-- ==== Sys2Proof/Safety.lean ====
section
/-! DEFINITION. What counts as a safe run: no step stops, and memory keeps its canonical form. -/
namespace Sys2Proof.Safety
open Sys2Proof.Machine

/-- A step answers a next state. -/
def goesOn (s : State) : Prop := ∃ t, step s = .next t

/-- The memory of a state has its canonical form. -/
def memoryCanonical (s : State) : Prop := Memory.wf s.mem = true

end Sys2Proof.Safety
end

