-- ==== Sys2Proof/Certificates/Slice0/Obligations.lean ====
section
/-! DEFINITION. The statements for the provers, and the words they are said in. -/
namespace Sys2Proof.Claims
open Sys2Proof.Machine

/-! ### The firing of one record -/

/-- What fires: record j of the activation a on unit u, with fields r, operands A and B, in the state s. -/
structure Firing where
  s : State
  u : UnitId
  j : Nat
  a : Act
  r : Rec
  A : Val
  B : Val

/-- The record of form o is the one the scheduler fires, and its gate lets it fire with these operands (02 R33). -/
def Firing.opens (f : Firing) (o : Op) : Prop :=
  f.s.firing = some (f.u, f.j, f.a) ∧ gate f.s f.u f.a f.j o f.r = .go ⟨f.u, f.j, f.a.ctx, f.r, f.A, f.B⟩

/-- The activation as the record finds it: on a Newel the records below it whose turn passed are skipped (02 R39). -/
def Firing.found (f : Firing) : Act := if isNewel f.u then f.a.skipBelow f.j else f.a

/-- The context of the activation. -/
def Firing.x (f : Firing) : Ctx := f.s.ctx f.a.ctx

/-- The third operand: the temporary that AX[2:0] names. -/
def Firing.K (f : Firing) : Val := f.found.temp f.j (slice f.r.ax 0 3).toNat

/-- Bits [lo + n - 1 : lo] of LIT as a number. -/
def Firing.lit (f : Firing) (lo n : Nat) : Nat := (slice f.r.lit lo n).toNat

/-- The state in which the record has completed: b is the activation with what the record noted in it, the flags are ORed in, D0
and D1 receive their values, and the record has fired. Nothing else of the device changes (02 R21, R25, R33). -/
def Firing.after (f : Firing) (b : Act) (fl : BitVec 6) (d0 d1 : Option Val) : State :=
  f.s.putAct f.u (b.complete f.s.clock.steps f.j f.r fl d0 d1)

/-- Wherever P holds and no flag that the record raises is trapped, the record completes: exec answers the state after it. -/
def Completes (i : Rec → Instr) (o : Op) (P : Firing → Prop) (b : Firing → Act) (fl : Firing → BitVec 6)
    (d0 d1 : Firing → Option Val) : Prop :=
  ∀ f : Firing, f.opens o → P f → fl f &&& f.found.trap = 0 →
    exec (i f.r) f.s = .next (f.after (b f) (fl f) (d0 f) (d1 f))

/-- Wherever P holds, the record completes with one value for both destinations, and changes nothing else. -/
def Delivers (i : Rec → Instr) (o : Op) (P : Firing → Prop) (v : Firing → Val) (fl : Firing → BitVec 6 := fun _ => 0) : Prop :=
  Completes i o P Firing.found fl (fun f => some (v f)) (fun f => some (v f))

/-- Wherever P holds, the record completes, delivers nothing and leaves one effect for the commit (02 R21). -/
def Leaves (i : Rec → Instr) (o : Op) (P : Firing → Prop) (e : Firing → Effect) : Prop :=
  Completes i o P (fun f => f.found.effect f.j (e f)) (fun _ => 0) (fun _ => none) (fun _ => none)

/-- Wherever P holds, the record completes, delivers nothing and has this alone noted in its activation. -/
def Notes (i : Rec → Instr) (o : Op) (P : Firing → Prop) (b : Firing → Act) : Prop :=
  Completes i o P b (fun _ => 0) (fun _ => none) (fun _ => none)

/-- Wherever P holds, the activation faults with this class, code, port and address (20 R345). -/
def Faults (i : Rec → Instr) (o : Op) (P : Firing → Prop) (what : Firing → Nat × Nat × Nat × Nat) : Prop :=
  ∀ f : Firing, f.opens o → P f →
    exec (i f.r) f.s = .next (f.s.takeFault f.u f.found f.j (what f).1 (what f).2.1 (what f).2.2.1 (what f).2.2.2)

/-- Wherever P holds, the record issues one request to its memory port and executes until it returns (10 R204; 11 R240). -/
def Issues (i : Rec → Instr) (o : Op) (P : Firing → Prop) (q : Firing → Nat × Nat × ReqKind) : Prop :=
  ∀ f : Firing, f.opens o → P f →
    exec (i f.r) f.s = .next ((f.s.addReq (f.found.request f.x f.u f.j (q f).1 (q f).2.1 (q f).2.2)).putAct f.u
      (f.found.setSt f.j (.issued f.s.net.nextReq)))

/-- Wherever P holds, the record stays pending and holds its unit. -/
def Pends (i : Rec → Instr) (o : Op) (P : Firing → Prop) : Prop :=
  ∀ f : Firing, f.opens o → P f → exec (i f.r) f.s = .next (f.s.putAct f.u (f.found.setSt f.j .waiting))

/-- No condition. -/
def always (_ : Firing) : Prop := True

/-- A scalar of a number. -/
def scalarOf (n : Nat) : Val := Val.ofNat n

/-! ### Integers (08 R152) -/

/-- The w bits of a type. -/
def low (t : Ty) (x : Word) : BitVec t.width := x.setWidth t.width

/-- An operand read by an integer type: signed for the I types, unsigned for the N types (08 R152). -/
def number (t : Ty) (x : Word) : Int := if t.signed then (low t x).toInt else ((low t x).toNat : Int)

/-- w bits extended to 64: sign-extended for the I types, zero-extended for the N types (08 R152). -/
def extended (t : Ty) (x : BitVec t.width) : Word := if t.signed then x.signExtend 64 else x.setWidth 64

/-- The scalar of w bits. -/
def scalarOfBits (t : Ty) (x : BitVec t.width) : Val := Val.ofWord (extended t x)

/-- The least and the greatest number of an integer type. -/
def least (t : Ty) : Int := if t.signed then (BitVec.intMin t.width).toInt else 0
/-- The greatest number of an integer type. -/
def greatest (t : Ty) : Int := if t.signed then (BitVec.intMax t.width).toInt else ((BitVec.allOnes t.width).toNat : Int)

/-- An exact result kept to the type: wrapped modulo 2^w for FN 0, brought into range for FN 1 (08 R152). -/
def keep (r : Rec) (v : Int) : Val :=
  scalarOfBits r.ty (BitVec.ofInt r.ty.width (if r.fn = 1 then max (least r.ty) (min (greatest r.ty) v) else v))

/-- The flag of an exact result: sat where FN 1 brought it into range (08 R152). -/
def keepFlag (r : Rec) (v : Int) : BitVec 6 := if r.fn = 1 ∧ (v < least r.ty ∨ greatest r.ty < v) then flagSat else noFlags

/-- An integer type. -/
def intTyped (f : Firing) : Prop := f.r.ty.isInt = true

/-- Operand A as a number. -/
def Firing.na (f : Firing) : Int := number f.r.ty f.A.word
/-- Operand B as a number. -/
def Firing.nb (f : Firing) : Int := number f.r.ty f.B.word
/-- The third operand as a number. -/
def Firing.nk (f : Firing) : Int := number f.r.ty f.K.word

/-- A form that computes an exact integer and keeps it to its type. -/
def Computes (i : Rec → Instr) (o : Op) (v : Firing → Int) : Prop :=
  Delivers i o intTyped (fun f => keep f.r (v f)) (fun f => keepFlag f.r (v f))

/-- A form of the w raw bits of its operands. -/
def Bitwise (i : Rec → Instr) (o : Op) (v : (t : Ty) → BitVec t.width → BitVec t.width → BitVec t.width) : Prop :=
  Delivers i o intTyped (fun f => scalarOfBits f.r.ty (v f.r.ty (low f.r.ty f.A.word) (low f.r.ty f.B.word)))

/-- From a state with moves to come, those of the same step are done one by one until a later state with the rest still to come; a
firing of record j or a higher one of the unit's activation may be passed over, and no firing of it that is done ends it. -/
inductive Passes (u : UnitId) (j : Nat) : State → List Move → State → List Move → Prop
  | here (s : State) (l : List Move) : Passes u j s l s l
  | runs {s t s' : State} {m : Move} {l l' : List Move} : m.steps = 0 → runMove (s.begin m l) m.kind = .next t →
      (∀ k, m.kind = .fire u k → endedOn (s.begin m l) t u = false) → Passes u j t l s' l' → Passes u j s (m :: l) s' l'
  | passed {s s' : State} {m : Move} {k : Nat} {l l' : List Move} : m.steps = 0 → m.kind = .fire u k → j ≤ k →
      Passes u j (s.begin m l) l s' l' → Passes u j s (m :: l) s' l'

/-- Later in the same step a record below j of the unit's activation fires and ends it. -/
def LowerEnds (s : State) (u : UnitId) (j : Nat) (rest : List Move) : Prop :=
  ∃ s' m l k t, Passes u j s rest s' (m :: l) ∧ m.steps = 0 ∧ m.kind = .fire u k ∧ k < j ∧
    runMove (s'.begin m l) m.kind = .next t ∧ (s'.act u).isSome = true ∧ t.act u = none

/-- Record j of the unit's activation is a MERGE whose token on port b came in this step and whose port a gets one later in it. -/
def MergeWins (s : State) (u : UnitId) (j : Nat) (a : Act) (rest : List Move) : Prop :=
  (∃ r, a.info j = some (.mergeOp, r)) ∧ (a.slot j).a = none ∧ (a.slot j).first = some (false, s.clock.steps) ∧
  ∃ s' m l t b, Passes u j s rest s' (m :: l) ∧ m.steps = 0 ∧ runMove (s'.begin m l) m.kind = .next t ∧
    t.act u = some b ∧ (b.slot j).a.isSome = true

end Sys2Proof.Claims

open Sys2Proof Sys2Proof.Machine Sys2Proof.Claims

/-! ### The machine as a whole -/

/-- A step that fires record j of the activation on unit u fetches its word from the block that the activation executes: where
the word decodes, the step is exec of the instruction in the state as the move begins, in which that record is the one that
fires; where it does not, the activation faults with class 1 and the code of R120. In two cases the move does nothing but begin: where
firing the record would end the activation, and later in the same step a lower record fires and ends it (R143); and where the
record is a MERGE whose token on port b came in this step and whose port a gets one later in the same step (R146). No other
firing is put off, and none on a Newel.

A step whose move is a device event that is not switched off is exec of that event in the state as the move begins, in which
the move's subject is the event's. For both, the count of steps and the time advance by what the move says, and the rest of the
agenda stays. Where the spec is silent
or can be read two ways it follows the model's choices of log 1, 2 and 3. -/
def Obligations.StepRunsTheInstruction : Prop :=
  (∀ (s : State) (m : Move) (rest : List Move) (u : UnitId) (j : Nat) (a : Act) (w : Record),
     s.sched.agenda = m :: rest → m.kind = .fire u j → s.act u = some a → a.blk.nodes[j]? = some w →
     (s.begin m rest).firing = some (u, j, a) ∧ (s.begin m rest).sched.agenda = rest ∧
     (s.begin m rest).clock.ns = s.clock.ns + m.ns ∧ (s.begin m rest).clock.steps = s.clock.steps + m.steps ∧
     (tied (s.begin m rest) m.kind = false →
       (∀ i, decodeRecord (actEnv s u a) w = .ok i → step s = exec i (s.begin m rest)) ∧
       (∀ k, decodeRecord (actEnv s u a) w = .error k →
         step s = .next ((s.begin m rest).takeFault u a j 1 k 0 0))) ∧
     (tied (s.begin m rest) m.kind = true → step s = .next (s.begin m rest) ∧ isNewel u = false ∧
       ((∃ t, runMove (s.begin m rest) m.kind = .next t ∧ t.act u = none ∧ LowerEnds (s.begin m rest) u j rest) ∨
        MergeWins (s.begin m rest) u j a rest)) ∧
     (∀ m2 rest2 k t t2, isNewel u = false → runMove (s.begin m rest) m.kind = .next t → t.act u = none →
       rest = m2 :: rest2 → m2.steps = 0 → m2.kind = .fire u k → k < j →
       runMove ((s.begin m rest).begin m2 rest2) m2.kind = .next t2 → t2.act u = none →
       step s = .next (s.begin m rest))) ∧
  (∀ (s : State) (m : Move) (rest : List Move) (i : Instr) (y : Subject),
     s.sched.agenda = m :: rest → m.kind = .event i y → i.record? = none →
     (s.begin m rest).sched.subject = y ∧ (s.begin m rest).sched.agenda = rest ∧
     (s.begin m rest).clock.ns = s.clock.ns + m.ns ∧ (s.begin m rest).clock.steps = s.clock.steps + m.steps ∧
     ((s.begin m rest).off i = false → step s = exec i (s.begin m rest)))

/-- Words of R111's layout, written out field by field, decode to the instructions they stand for: at least one of every
group of R117's table; and a word with an opcode that the table leaves unassigned decodes to none. -/
def Obligations.SpecWordsDecode : Prop :=
  -- OP 0x10 ADD, FN 1 (saturating), TY I32, SH scalar, SA port, SB literal, D0 o3
  decodeTableWord 96 (0x10#8 ++ 1#4 ++ 2#4 ++ 0#2 ++ 0#4 ++ 9#4 ++ 0#3 ++ 0b11000001100#11 ++ 0#11 ++ 0#13 ++ 0xFFFFFFFB#32).toNat =
    some (.add ⟨1, .i32, .scalar, .port, .lit, .none, .out 3, .none, 0, 0xFFFFFFFB⟩) ∧
  -- OP 0x01 EXIT, TY I64, SA port, SB literal, PQ on true, LIT 2
  decodeTableWord 96 (0x01#8 ++ 0#4 ++ 0#4 ++ 0#2 ++ 0#4 ++ 9#4 ++ 1#3 ++ 0#11 ++ 0#11 ++ 0#13 ++ 2#32).toNat =
    some (.exitOp ⟨0, .i64, .scalar, .port, .lit, .onTrue, .none, .none, 0, 2⟩) ∧
  -- OP 0x05 GATE, FN 1 (inverted), of a course, D0 n12.b
  decodeTableWord 96 (0x05#8 ++ 1#4 ++ 0#4 ++ 1#2 ++ 0#4 ++ 0#4 ++ 0#3 ++ 0b01000110001#11 ++ 0#11 ++ 0#13 ++ 0#32).toNat =
    some (.gate ⟨1, .i64, .course, .port, .port, .none, .node 12 .b, .none, 0, 0⟩) ∧
  -- SELP of port a and a literal, with t1 of AX[2:0], to n6.a (16, ftok n4)
  decodeTableWord 96 (0x2B#8 ++ 0#4 ++ 1#4 ++ 0#2 ++ 0#4 ++ 9#4 ++ 0#3 ++ 0b01000011000#11 ++ 0#11 ++ 1#13 ++ 0xFFFFFFF0#32).toNat =
    some (.selp ⟨0, .n64, .scalar, .port, .lit, .none, .node 6 .a, .none, 1, 0xFFFFFFF0⟩) ∧
  -- CGETF.base of port a, a pair of type CAP, to n1.a
  decodeTableWord 96 (0x30#8 ++ 1#4 ++ 0xD#4 ++ 2#2 ++ 0#4 ++ 0xA#4 ++ 0#3 ++ 0b01000000100#11 ++ 0#11 ++ 0#13 ++ 0#32).toNat =
    some (.cgetf ⟨1, .cap, .pair, .port, .zero, .none, .node 1 .a, .none, 0, 0⟩) ∧
  -- ICVT.f32 of the stamp to t0 (06, the worked block)
  decodeTableWord 96 (0x4C#8 ++ 0#4 ++ 8#4 ++ 0#2 ++ 0xC#4 ++ 0xA#4 ++ 0#3 ++ 0b10000000000#11 ++ 0#11 ++ 0#13 ++ 0#32).toNat =
    some (.icvt ⟨0, .f32, .scalar, .stamp, .zero, .none, .temp 0, .none, 0, 0⟩) ∧
  -- VADD.f32 of port a and a ring, on false, to o0 (the ring number in AX[7:4])
  decodeTableWord 96 (0x50#8 ++ 0#4 ++ 8#4 ++ 1#2 ++ 0#4 ++ 0xB#4 ++ 2#3 ++ 0b11000000000#11 ++ 0#11 ++ 0x100#13 ++ 0#32).toNat =
    some (.vadd ⟨0, .f32, .course, .port, .ring, .onFalse, .out 0, .none, 0x100, 0⟩) ∧
  -- VBCST.f32 of t0 to o0 and n2.a (06, the worked block)
  decodeTableWord 96 (0x64#8 ++ 0#4 ++ 8#4 ++ 1#2 ++ 1#4 ++ 0xA#4 ++ 0#3 ++ 0b11000000000#11 ++ 0b01000001000#11 ++ 0#13 ++ 0#32).toNat =
    some (.vbcst ⟨0, .f32, .course, .temp 0, .zero, .none, .out 0, .node 2 .a, 0, 0⟩) ∧
  -- HFWD of a ring to n1.a (14, fwd n0)
  decodeTableWord 96 (0x70#8 ++ 0#4 ++ 8#4 ++ 1#2 ++ 0xB#4 ++ 0xA#4 ++ 0#3 ++ 0b01000000100#11 ++ 0#11 ++ 0#13 ++ 0xB601#32).toNat =
    some (.hfwd ⟨0, .f32, .course, .ring, .zero, .none, .node 1 .a, .none, 0, 0xB601⟩) ∧
  -- RADV of ring 1 by 1 (11)
  decodeTableWord 96 (0x82#8 ++ 0#4 ++ 1#4 ++ 0#2 ++ 0xA#4 ++ 0xA#4 ++ 0#3 ++ 0#11 ++ 0#11 ++ 0#13 ++ 0x11#32).toNat =
    some (.radv ⟨0, .n64, .scalar, .zero, .zero, .none, .none, .none, 0, 0x11⟩) ∧
  -- STSET zero, B (12, tap n4)
  decodeTableWord 96 (0x94#8 ++ 0#4 ++ 0#4 ++ 0#2 ++ 0xA#4 ++ 0#4 ++ 0#3 ++ 0#11 ++ 0#11 ++ 0#13 ++ 0#32).toNat =
    some (.stset ⟨0, .i64, .scalar, .zero, .port, .none, .none, .none, 0, 0⟩) ∧
  -- LD.f32 of A at byte 1500 to o0 and n4.a (19, wait n3)
  decodeTableWord 96 (0xA0#8 ++ 0#4 ++ 8#4 ++ 0#2 ++ 0#4 ++ 9#4 ++ 0#3 ++ 0b11000000000#11 ++ 0b01000010000#11 ++ 0#13 ++ 0x5DC#32).toNat =
    some (.ld ⟨0, .f32, .scalar, .port, .lit, .none, .out 0, .node 4 .a, 0, 0x5DC⟩) ∧
  -- CMB.fadd.f32 (17)
  decodeTableWord 96 (0xB3#8 ++ 8#4 ++ 8#4 ++ 0#2 ++ 0#4 ++ 0xA#4 ++ 0#3 ++ 0#11 ++ 0#11 ++ 0#13 ++ 0x30#32).toNat =
    some (.cmb ⟨8, .f32, .scalar, .port, .zero, .none, .none, .none, 0, 0x30⟩) ∧
  -- MTASK of t1, t2 (13)
  decodeTableWord 96 (0xC1#8 ++ 0#4 ++ 2#4 ++ 1#2 ++ 2#4 ++ 0xA#4 ++ 0#3 ++ 0#11 ++ 0#11 ++ 2#13 ++ 0#32).toNat =
    some (.mtask ⟨0, .i32, .course, .temp 1, .zero, .none, .none, .none, 2, 0⟩) ∧
  -- CPY (17)
  decodeTableWord 96 (0xD0#8 ++ 0#4 ++ 1#4 ++ 2#2 ++ 0#4 ++ 0#4 ++ 0#3 ++ 0#11 ++ 0#11 ++ 3#13 ++ 0x2085#32).toNat =
    some (.cpy ⟨0, .n64, .pair, .port, .port, .none, .none, .none, 3, 0x2085⟩) ∧
  -- XSECT (15)
  decodeTableWord 96 (0xE0#8 ++ 0#4 ++ 1#4 ++ 2#2 ++ 0xA#4 ++ 0xA#4 ++ 0#3 ++ 0b01000000100#11 ++ 0#11 ++ 0#13 ++ 0x10#32).toNat =
    some (.xsect ⟨0, .n64, .pair, .zero, .zero, .none, .node 1 .a, .none, 0, 0x10⟩) ∧
  -- PHASE (22)
  decodeTableWord 96 (0xF0#8 ++ 0#4 ++ 1#4 ++ 0#2 ++ 0xA#4 ++ 0xA#4 ++ 0#3 ++ 0#11 ++ 0#11 ++ 0#13 ++ 0x7D1C14#32).toNat =
    some (.phase ⟨0, .n64, .scalar, .zero, .zero, .none, .none, .none, 0, 0x7D1C14⟩) ∧
  -- CRD to n1.a (20)
  decodeTableWord 96 (0xF3#8 ++ 0#4 ++ 1#4 ++ 0#2 ++ 0xA#4 ++ 0xA#4 ++ 0#3 ++ 0b01000000100#11 ++ 0#11 ++ 0#13 ++ 0x105#32).toNat =
    some (.crd ⟨0, .n64, .scalar, .zero, .zero, .none, .node 1 .a, .none, 0, 0x105⟩) ∧
  -- an opcode that R117 leaves unassigned
  decodeTableWord 96 (0xCF#8 ++ 0#88).toNat = none

/-- Every record form decodes back from its encoding, with every operand at every value that its fetch admits: no bit of a
record is dropped. -/
def Obligations.EncodedRecordDecodesBack : Prop :=
  ∀ (env : FetchEnv) (o : Op) (r : Rec), fieldFault env o r = 99 → decodeRecord env (o.encode r) = .ok (o.instr r)

/-- A word that decodes is the encoding of what it decodes to: two words never decode to one instruction. -/
def Obligations.DecodedRecordEncodesBack : Prop :=
  ∀ (env : FetchEnv) (w : Record) (i : Instr), decodeRecord env w = .ok i → i.encode = some w

/-- Memory keeps its canonical form over every step, whatever the state. Where the spec is silent
or can be read two ways it follows the model's choice of log 4. -/
def Obligations.MemoryStaysCanonical : Prop :=
  ∀ s t : State, Memory.wf s.mem = true → step s = .next t → Memory.wf t.mem = true

/-- After reset memory is canonical, no context is resident and no unit executes, no request, tag, capability tag or structure state
is there, and the registers of R59, R127, R132, R274, R369, R373, R375, R377 and R382 hold the values those rules give. That no
course is marked poisoned, and that a hall has no error and no hold recorded, is the model's choice of log 5. -/
def Obligations.ResetState : Prop :=
  Memory.wf State.reset.mem = true ∧
  (∀ c, State.reset.resident c = false ∧ (State.reset.ctx c).waiting = [] ∧ (State.reset.ctx c).rings = [] ∧
    (State.reset.ctx c).nodes = [] ∧ (State.reset.ctx c).bars = [] ∧ (State.reset.ctx c).tags = [] ∧
    (State.reset.ctx c).live = []) ∧
  (∀ u, State.reset.act u = none) ∧
  State.reset.net.reqs = [] ∧ State.reset.net.structs = [] ∧ State.reset.net.cache = [] ∧
  (∀ c u, ((State.reset.ctx c).elem u).flags = 0) ∧
  (∀ c, (State.reset.ctx c).prio = 0 ∧ (State.reset.ctx c).tagSet = 0xFFFF ∧ (State.reset.ctx c).mpln = 8) ∧
  (∀ h < 64, (State.reset.hall h).uv = true ∧ (State.reset.hall h).lock = false ∧ (State.reset.hall h).cetgt = 4 ∧
    (State.reset.hall h).floor = 650 ∧ (State.reset.hall h).safe = 800 ∧ (State.reset.hall h).mv = 800 ∧
    (State.reset.hall h).ksw = 0 ∧ (State.reset.hall h).erred = false ∧ (State.reset.hall h).heldAt = 0) ∧
  State.reset.net.captags = [] ∧ State.reset.net.poison = [] ∧
  State.reset.power.cap = 3000 ∧ State.reset.power.margin = 100 ∧ State.reset.power.wus = 10 ∧ State.reset.power.balset = 0 ∧
  State.reset.power.w = 0 ∧ State.reset.power.capi = 0 ∧
  State.reset.power.twarn = 16 * 100 ∧ State.reset.power.tthr = 16 * 110 ∧ State.reset.power.thard = 16 * 120 ∧
  (∀ d < 4, ∀ n < 32, ((State.reset.newels.getD d Newel.reset).evt.getD n 1) = 0)

/-- A record that fires leaves memory, power, the host's registers, the links, the clock and the agenda as they were; the Newels, but
for the lost bit of an event whose handler faulted; and the fabric, but for the fault record it sends. Of the memory side it changes
the pending requests, the readers that wait on deferred structure words, which a fault withdraws (a word that no reader is left for
is empty), and the demands held for saved contexts, which a fault of a block that was loading one gives back; nothing else. -/
def Obligations.FiringLeavesTheDevice : Prop :=
  ∀ (i : Instr) (s t : State), i.record?.isSome = true → exec i s = .next t →
    t.mem = s.mem ∧ (∀ a, Memory.get t.mem a = Memory.get s.mem a) ∧
    (t.newels.map fun x => { x with evt := x.evt.map (· ||| 32#64) }) = (s.newels.map fun x => { x with evt := x.evt.map (· ||| 32#64) }) ∧
    t.power = s.power ∧ t.host = s.host ∧ t.links = s.links ∧ t.clock = s.clock ∧ t.sched = s.sched ∧
    t.fab = { s.fab with evFly := t.fab.evFly } ∧
    t.net = { s.net with reqs := t.net.reqs, nextReq := t.net.nextReq, structs := t.net.structs, saves := t.net.saves } ∧
    List.Forall₂ (fun x y => y.1 = x.1 ∧ (y.2 = x.2 ∨ ∃ rs, x.2 = .deferred rs ∧ (y.2 = .empty ∨ ∃ rs', y.2 = .deferred rs' ∧ rs' ⊆ rs)))
      s.net.structs t.net.structs ∧
    (t.net.saves.map fun x => { x with ctx := { x.ctx with held := [] } }) = (s.net.saves.map fun x => { x with ctx := { x.ctx with held := [] } })

/-- A byte reads as it was last written: a store of a list of bytes changes the bytes of its range and no other. Where the spec is silent
or can be read two ways it follows the model's choice of log 4. -/
def Obligations.MemoryReadsWhatWasStored : Prop :=
  ∀ (m : Memory) (a : Nat) (l : List Byte) (b : Nat), Memory.wf m = true →
    Memory.wf (Memory.store m a l) = true ∧
    Memory.get (Memory.store m a l) b = if a ≤ b ∧ b < a + l.length then l.getD (b - a) 0 else Memory.get m b

/-- A record whose lower records have all settled, whose predicate matches and whose port operands have come fires, with the operands its selectors
name: its own tokens, the temporaries of lower records, its literal, zero, the activation's stamp and tag; MERGE takes the one token
that came, of two on an element the one that came first and port a's where both came in one step, and on a Newel port a's. While a load
of the activation is held no record of it fires. It waits for a predicate or an operand to come, and is nullified by a predicate that mismatches. A temporary reads as the write of
the highest lower-indexed record, and as zero where there is none. Where the spec is silent
or can be read two ways it follows the model's choice of log 22. -/
def Obligations.RecordsFireWithTheirOperands : Prop :=
  (∀ (x : Ctx) (a : Act) (j : Nat) (r : Rec) (p : Option Val) (q : Nat),
    (∀ v, readSrc x a j r .port (some v) q = .val v) ∧
    (∀ k, (∀ w ∈ a.temps, ¬(w.j < j ∧ w.k = k.val)) → readSrc x a j r (.temp k) p q = .val (Val.zero .pair)) ∧
    (∀ k w, w ∈ a.temps → w.j < j → w.k = k.val → (∀ y ∈ a.temps, y.j < j → y.k = k.val → y ≠ w → y.j < w.j) →
      readSrc x a j r (.temp k) p q = .val w.v) ∧
    readSrc x a j r .lit p q = .val (Val.ofWord (if r.ty = .i64 ∨ r.ty = .i32 ∨ r.ty = .cap then r.lit.signExtend 64
      else r.lit.setWidth 64)) ∧
    readSrc x a j r .zero p q = .val (Val.zero .pair) ∧
    readSrc x a j r .stamp p q = .val (Val.ofWord (a.w.stamp.signExtend 64)) ∧
    readSrc x a j r .tag p q = .val (Val.ofWord (a.w.tag.setWidth 64))) ∧
  (∀ (s : State) (u : UnitId) (a : Act) (j : Nat) (o : Op) (r : Rec),
    a.stage = .running → a.info j = some (o, r) → (a.slot j).st = .idle → (∀ k < j, (a.slot k).st.settled = true) →
    s.firing = some (u, j, a) → s.loadHeld u = false →
    let matched := r.pq = .none ∨ ∃ v, (a.slot j).p = some v ∧ bit v.bits 0 = decide (r.pq = .onTrue)
    let A := readSrc (s.ctx a.ctx) a j r r.a (a.slot j).a (slice r.ax 0 4).toNat
    let B := readSrc (s.ctx a.ctx) a j r r.b (a.slot j).b (slice r.ax 4 4).toNat
    (r.pq ≠ .none → (a.slot j).p = none → exec (o.instr r) s = .next s) ∧
    (∀ v, r.pq ≠ .none → (a.slot j).p = some v → bit v.bits 0 ≠ decide (r.pq = .onTrue) →
      exec (o.instr r) s = .next (s.putAct u (a.setSt j .nullified))) ∧
    (matched → o ≠ .mergeOp → ((r.a = .port ∧ (a.slot j).a = none) ∨ (r.b = .port ∧ (a.slot j).b = none)) →
      exec (o.instr r) s = .next s) ∧
    (matched → o ≠ .mergeOp → (r.a = .port → (a.slot j).a ≠ none) → (r.b = .port → (a.slot j).b ≠ none) → r.a ≠ .ring → r.b ≠ .ring →
      ∃ v w, A = .val v ∧ B = .val w ∧ gate s u a j o r = .go ⟨u, j, a.ctx, r, v, w⟩) ∧
    (∀ v w, matched → o ≠ .mergeOp → (r.a = .port → (a.slot j).a ≠ none) → (r.b = .port → (a.slot j).b ≠ none) → A = .val v → B = .val w →
      gate s u a j o r = .go ⟨u, j, a.ctx, r, v, w⟩) ∧
    (∀ v, matched → o = .mergeOp → r.a = .port → r.b = .port → ((a.slot j).a = some v ∧ (a.slot j).b = none ∨
        (a.slot j).a = none ∧ (a.slot j).b = some v) →
      ∃ w, gate s u a j o r = .go ⟨u, j, a.ctx, r, v, w⟩) ∧
    (∀ v w, matched → o = .mergeOp → r.a = .port → r.b = .port → (a.slot j).a = some v → (a.slot j).b = some w →
      gate s u a j o r = .go ⟨u, j, a.ctx, r, if isNewel u || (a.slot j).first.all (·.1) then v else w, w⟩)) ∧
  (∀ (s : State) (u : UnitId) (a : Act) (j : Nat) (o : Op) (r : Rec), s.firing = some (u, j, a) → s.loadHeld u = true →
    exec (o.instr r) s = .next s) ∧
  (∀ (x : RecSlot) (now : Nat) (past : List Nat) (q : NodePort) (v : Val),
    (x.give now past .a v).a = some v ∧ (x.give now past .b v).b = some v ∧ (x.give now past .p v).p = some v ∧
    (x.give now past q v).st = x.st ∧
    (x.first = none → (x.give now past .a v).first = some (true, now) ∧ (x.give now past .b v).first = some (false, now)) ∧
    (∀ t, x.first = some (false, t) → (x.give now past .a v).first = some (decide (t = now), t)) ∧
    (∀ t, x.first = some (true, t) → (x.give now past .a v).first = x.first ∧ (x.give now past .b v).first = x.first))

/-- What a completed record delivers to each of its two destinations: a node destination of another record holds the value on that
port, and no other port has changed but by the other destination; an output port and a temporary receive it once, D0's before D1's;
flags are collected, and only this record has fired. -/
def Obligations.CompletionDelivers : Prop :=
  ∀ (a : Act) (now j : Nat) (r : Rec) (fl : BitVec 6) (v0 v1 : Option Val),
    let b := a.complete now j r fl v0 v1
    let both := [(r.d0, v0), (r.d1, v1)]
    let at_ (y : RecSlot) (q : NodePort) : Option Val := match q with | .a => y.a | .b => y.b | .p => y.p
    b.flags = a.flags ||| fl ∧ b.exits = a.exits ∧ b.stores = a.stores ∧ b.effects = a.effects ∧ b.moves = a.moves ∧
    b.rwrites = a.rwrites ∧ b.w = a.w ∧ b.ctx = a.ctx ∧ b.blk = a.blk ∧
    (j < a.recs.length → (b.slot j).st = .fired) ∧
    (∀ n, n ≠ j → (b.slot n).st = (a.slot n).st) ∧
    (∀ n q v, r.d1 = .node n q → n.val < a.recs.length → v1 = some v → at_ (b.slot n.val) q = some v) ∧
    (∀ n q v, r.d0 = .node n q → n.val < a.recs.length → v0 = some v → r.d1 ≠ .node n q ∨ v1 = none →
      at_ (b.slot n.val) q = some v) ∧
    (∀ k q, (∀ d ∈ both, ¬(∃ n, d.1 = .node n q ∧ n.val = k ∧ d.2.isSome)) → at_ (b.slot k) q = at_ (a.slot k) q) ∧
    (b.temps.map fun w => (w.j, w.k, w.v)) = (a.temps.map fun w => (w.j, w.k, w.v)) ++
      both.filterMap (fun d => match d with | (.temp k, some v) => some (j, k.val, v) | _ => none) ∧
    b.outs = a.outs ++ both.filterMap (fun d => match d with | (.out k, some v) => some ⟨j, k.val, some v, none, none⟩ | _ => none)

/-- A record that completes with a flag whose trap bit is 1 faults its activation instead, with class 5 and the number of its lowest
such flag (log 20), and delivers nothing; shown of every completion, and of saturating ADD as an instruction.

Taking a fault: the unit is free, no request of the activation stays, its frame is parked and complete as it was, and a record
with the class, code, record index, unit, context and seq of R342 stands in the FT registers and has been sent, to the
Newel of the unit's die where the image has no trap graph; seq counts on; memory is as it was. Where the spec is silent
or can be read two ways it follows the model's choices of log 20 and 21. -/
def Obligations.FaultsAreTaken : Prop :=
  ((∀ (s : State) (u : UnitId) (a b : Act) (j k : Nat) (r : Rec) (fl : BitVec 6) (d0 d1 : Option Val),
     k < 6 → bit (fl &&& a.trap) k = true → (∀ i < k, bit (fl &&& a.trap) i = false) →
     settle s u a j r (.done b fl d0 d1) = s.takeFault u b j 5 k 0 0) ∧
   Faults .add .add (fun f => intTyped f ∧ f.r.fn = 1 ∧ greatest f.r.ty < f.na + f.nb ∧ bit f.found.trap 5 = true)
     (fun _ => (5, 5, 0, 0))) ∧
  (∀ (s : State) (u : UnitId) (a : Act) (j cls code port addr : Nat),
     s.act u = some a → a.ctx < s.ctxs.length → a.effects = [] → a.w.kind = .frame → (s.ctx a.ctx).image.trapOp? = none →
     let t := s.takeFault u a j cls code port addr
     let x := s.ctx a.ctx
     let y := t.ctx a.ctx
     t.act u = none ∧ t.mem = s.mem ∧ (∀ q ∈ t.net.reqs, ¬(q.unit = u ∧ q.kind.isLoad = true)) ∧
     y.waiting = x.waiting ++ [{ a.w with parked := true }] ∧ y.seq = x.seq + 1 ∧
     slice y.ft 0 8 = BitVec.ofNat 8 cls ∧ slice y.ft 8 8 = BitVec.ofNat 8 j ∧ slice y.ft 16 16 = BitVec.ofNat 16 code ∧
     slice y.ft 32 16 = BitVec.ofNat 16 (unitCode u) ∧ slice y.ft 48 2 = BitVec.ofNat 2 a.ctx ∧ bit y.ft 50 = false ∧
     bit y.ft 51 = decide (cls ≠ 8 ∨ code = 3) ∧
     slice y.ft 64 66 = a.w.ptr ∧ slice y.ft 144 16 = x.seq ∧ slice y.ft 192 36 = a.w.tag ∧
     slice y.ft 256 64 = a.w.stamp.signExtend 64 ∧ slice y.ft 320 72 = BitVec.ofNat 72 addr ∧
     slice y.ft 400 16 = BitVec.ofNat 16 port ∧
     t.fab.evFly = s.fab.evFly ++ [⟨unitDie u, if cls = 8 ∧ code ≠ 3 then 2 else 1, s.epoch (unitDie u), y.ft, none⟩] ∧
     y.rings = x.rings ∧ y.edges = x.edges ∧ y.nodes = x.nodes ∧ y.sinks = x.sinks ∧ y.live = x.live ∧ y.elems = x.elems)

namespace Sys2Proof.Claims
open Sys2Proof.Machine

/-- A value read at a shape: a scalar is 64 bits and a pair 128, cut or zero-extended; a pair keeps its tag to a pair alone (06
R113; 08 R144). -/
def shaped (sh : Shape) (v : Val) : Val :=
  match sh with
  | .scalar => ⟨.scalar, (v.bits.setWidth 64).setWidth 512, false⟩
  | .pair => ⟨.pair, (v.bits.setWidth 128).setWidth 512, v.cap && decide (v.sh = .pair)⟩
  | .course => ⟨.course, v.bits, false⟩

/-- Bit 0 of operand B. -/
def Firing.b0 (f : Firing) : Bool := bit f.B.bits 0

/-- The activation with one more exit fired. -/
def exited (a : Act) (n : Nat) : Act := { a with exits := a.exits ++ [n] }

/-- The activation with one more redirect of its chain. -/
def redirected (a : Act) (x : Option BlockPtr) : Act := { a with redirs := a.redirs ++ [x] }

/-- Operand A as a capability. -/
def Firing.pa (f : Firing) : Pair := f.A.bits.setWidth 128
/-- Operand B as a capability. -/
def Firing.pb (f : Firing) : Pair := f.B.bits.setWidth 128
/-- The tag of operand A. -/
def Firing.ta (f : Firing) : Bool := f.A.cap && decide (f.A.sh = .pair)
/-- The tag of operand B. -/
def Firing.tb (f : Firing) : Bool := f.B.cap && decide (f.B.sh = .pair)

/-- A pair with its tag. -/
def pairOf (p : Pair) (tag : Bool) : Val := ⟨.pair, p.setWidth 512, tag⟩

/-- A number as an untagged pair. -/
def pairOfNat (n : Nat) : Val := pairOf (BitVec.ofNat 128 n) false

/-- A condition of CMP by its FN. -/
def holdsCond (fn : BitVec 4) (x y : Int) : Bool :=
  (fn = 0 && x = y) || (fn = 1 && x ≠ y) || (fn = 2 && decide (x < y)) || (fn = 3 && decide (x ≤ y)) ||
  (fn = 4 && decide (y < x)) || (fn = 5 && decide (y ≤ x))

/-- The bits [pos + len - 1 : pos] of w bits. -/
def fieldMask (w pos len : Nat) : BitVec w := BitVec.ofNat w (2 ^ len - 1) <<< pos

/-- The cursor to which CINC moves. -/
def Firing.moved (f : Firing) : Nat := (((capCursor f.pa : Int) + (f.pb.setWidth 64).toInt) % 2 ^ 72).toNat

/-- A move of A's cursor to x (08 R165): kept bounds and tag, or the tag lost, or a sealed capability's fault. -/
def MovesCursor (i : Rec → Instr) (o : Op) (x : Firing → Nat) : Prop :=
  Delivers i o (fun f => f.ta = true ∧ capOtype f.pa = 0 ∧ capHolds f.pa (x f) = true)
    (fun f => pairOf (capMove f.pa (capPlace f.pa (x f)).toNat (x f)) true) ∧
  Delivers i o (fun f => f.ta = true ∧ capOtype f.pa = 0 ∧ capHolds f.pa (x f) = false)
    (fun f => pairOf (capMove f.pa (capOff f.pa) (x f)) false) ∧
  Delivers i o (fun f => f.ta = false) (fun f => pairOf (capMove f.pa (capOff f.pa) (x f)) false) ∧
  Faults i o (fun f => f.ta = true ∧ capOtype f.pa ≠ 0) (fun f => (2, 2, 0, capCursor f.pa))

/-- Operand B serves as an authority with a permission: tagged, unsealed, its cursor in its bounds (08 R167). -/
def Firing.authorised (f : Firing) (perm : Nat) : Prop :=
  f.tb = true ∧ capOtype f.pb = 0 ∧ capHasPerm f.pb perm = true ∧ capBase f.pb ≤ capCursor f.pb ∧ capCursor f.pb < capTop f.pb

/-- The result of a sealing form: A with its permissions and object type replaced, tagged. -/
def resealed (p : Pair) (perm : BitVec 12) (o : BitVec 8) : Val := pairOf (perm ++ slice p 112 4 ++ o ++ slice p 0 104) true

end Sys2Proof.Claims

/-! ### Groups 0x0 to 0x3 -/

/-- NOP does nothing; PASS and MERGE deliver A, GATE delivers it where B[0] is as its variant asks and nothing otherwise, and STEER
to one of its two destinations; LIT and TGET deliver their literal and their field. MERGE takes the token there is; where there are both, that of port a
on a Newel, and on an element the one that came first, port a's where both came in one step.

EXIT fires exit LIT[2:0], EXITP the one of its two that B[0] names, EXITX exit A[63:0]; TSET delivers A and leaves for the
commit the tag word of this context with B's frame index and iteration tag; RETB pops the link stack. -/
def Obligations.FlowForms : Prop :=
  (Notes .nop .nop always Firing.found ∧
   Delivers .pass .pass always (fun f => shaped f.r.sh f.A) ∧
   Delivers .gate .gate (fun f => f.b0 = decide (f.r.fn = 0)) (fun f => shaped f.r.sh f.A) ∧
   Notes .gate .gate (fun f => f.b0 ≠ decide (f.r.fn = 0)) Firing.found ∧
   Completes .steer .steer (fun f => f.b0 = true) Firing.found (fun _ => 0) (fun f => some (shaped f.r.sh f.A)) (fun _ => none) ∧
   Completes .steer .steer (fun f => f.b0 = false) Firing.found (fun _ => 0) (fun _ => none) (fun f => some (shaped f.r.sh f.A)) ∧
   Delivers .mergeOp .mergeOp always (fun f => shaped f.r.sh f.A) ∧
   (∀ f : Firing, f.opens .mergeOp → ∀ v, (f.a.slot f.j).a = some v → (f.a.slot f.j).b = none ∨ isNewel f.u = true → f.A = v) ∧
   (∀ f : Firing, f.opens .mergeOp → ∀ v, (f.a.slot f.j).b = some v → (f.a.slot f.j).a = none → f.A = v) ∧
   (∀ f : Firing, f.opens .mergeOp → ∀ v w, (f.a.slot f.j).a = some v → (f.a.slot f.j).b = some w → isNewel f.u = false →
     f.A = if (f.a.slot f.j).first.all (·.1) then v else w) ∧
   Delivers .litOp .litOp (fun f => f.r.ty.signed = true ∧ 32 ≤ f.r.ty.width)
     (fun f => Val.ofWord (f.r.lit.signExtend 64)) ∧
   Delivers .litOp .litOp (fun f => f.r.ty.signed = true ∧ f.r.ty.width < 32)
     (fun f => Val.ofWord ((f.r.lit.setWidth f.r.ty.width).signExtend 64)) ∧
   Delivers .litOp .litOp (fun f => f.r.ty.signed = false)
     (fun f => Val.ofWord ((f.r.lit.setWidth (min 32 f.r.ty.width)).setWidth 64)) ∧
   Delivers .tget .tget (fun f => f.lit 0 2 = 0) (fun f => scalarOf (slice f.found.w.tag 0 16).toNat) ∧
   Delivers .tget .tget (fun f => f.lit 0 2 = 1) (fun f => scalarOf (slice f.found.w.tag 16 18).toNat) ∧
   Delivers .tget .tget (fun f => f.lit 0 2 = 2) (fun f => scalarOf (slice f.found.w.tag 34 2).toNat) ∧
   Delivers .tget .tget (fun f => f.lit 0 2 = 3) (fun f => scalarOf f.found.w.birth.toNat)) ∧
  (Notes .exitOp .exitOp always (fun f => exited f.found (f.lit 0 3)) ∧
   Notes .exitp .exitp (fun f => f.b0 = true) (fun f => exited f.found (f.lit 0 3)) ∧
   Notes .exitp .exitp (fun f => f.b0 = false) (fun f => exited f.found (f.lit 3 3)) ∧
   Notes .exitx .exitx always (fun f => exited f.found (f.A.bits.setWidth 64).toNat) ∧
   Notes .retb .retb always (fun f => redirected f.found none) ∧
   Completes .tset .tset always
     (fun f => f.found.effect f.j (.tset (slice f.found.w.tag 34 2 ++ slice (f.B.bits.setWidth 64) 0 34))) (fun _ => 0)
     (fun f => some (Val.ofWord (f.A.bits.setWidth 64))) (fun f => some (Val.ofWord (f.A.bits.setWidth 64))))

/-- CALLB redirects the chain to the block at A's cursor where A is tagged, unsealed, in space 0, holds fetch-block, and its cursor
is aligned to 64 bytes with 12 bytes in its bounds; otherwise the activation faults with class 2 and the code of the first
condition that fails, in the order 1, 2, 9, 5, 10, 8 (log 17, the model's reading). -/
def Obligations.CallbChecksItsTarget : Prop :=
  let untagged (f : Firing) := f.ta = false
  let sealed (f : Firing) := f.ta = true ∧ capOtype f.pa ≠ 0
  let plain (f : Firing) := f.ta = true ∧ capOtype f.pa = 0
  let here (f : Firing) := plain f ∧ capSpace f.pa = 0
  let may (f : Firing) := here f ∧ capHasPerm f.pa 0x010 = true
  let whole (f : Firing) := may f ∧ capCursor f.pa % 64 = 0
  let fits (f : Firing) := capBase f.pa ≤ capCursor f.pa ∧ capCursor f.pa + 12 ≤ capTop f.pa
  Notes .callb .callb (fun f => whole f ∧ fits f) (fun f => redirected f.found (some (slice f.pa 6 66))) ∧
  Faults .callb .callb untagged (fun f => (2, 1, 0, capCursor f.pa)) ∧
  Faults .callb .callb sealed (fun f => (2, 2, 0, capCursor f.pa)) ∧
  Faults .callb .callb (fun f => plain f ∧ capSpace f.pa ≠ 0) (fun f => (2, 9, 0, capCursor f.pa)) ∧
  Faults .callb .callb (fun f => here f ∧ capHasPerm f.pa 0x010 = false) (fun f => (2, 5, 0, capCursor f.pa)) ∧
  Faults .callb .callb (fun f => may f ∧ capCursor f.pa % 64 ≠ 0) (fun f => (2, 10, 0, capCursor f.pa)) ∧
  Faults .callb .callb (fun f => whole f ∧ ¬fits f) (fun f => (2, 8, 0, capCursor f.pa))

/-- TRAP takes a fault of class 9 and BRK one of class 10, with code LIT[15:0] and the record's index; a BRK record goes to the
Newel of the unit's die, and a TRAP record goes there where the context has no trap graph. -/
def Obligations.TrapAndBrkTakeTheirFault : Prop :=
  Faults .trap .trap always (fun f => (9, f.lit 0 16, 0, 0)) ∧
  Faults .brk .brk always (fun f => (10, f.lit 0 16, 0, 0)) ∧
  (∀ (s : State) (f : FaultInfo) (unit die c : Nat), f.cls = 10 ∨ (f.cls = 9 ∧ (s.ctx c).image.trapOp? = none) →
    (s.deliverFault f unit die c).fab.evFly = s.fab.evFly ++ [⟨die, 1, s.epoch die, faultRecord f unit c (s.ctx c).seq.toNat, none⟩] ∧
    ((s.deliverFault f unit die c).ctx c).waiting = (s.ctx c).waiting)

/-- ADD, SUB, MUL, MULH, MAD, NEG, ABS, MIN, MAX and SHL deliver their exact value kept to their type: wrapped modulo 2^w, or, with
FN 1, brought into range with sat set where it lay outside. -/
def Obligations.IntegerArithmetic : Prop :=
  Computes .add .add (fun f => f.na + f.nb) ∧
  Computes .sub .sub (fun f => f.na - f.nb) ∧
  Computes .mul .mul (fun f => f.na * f.nb) ∧
  Computes .mulh .mulh (fun f => f.na * f.nb / 2 ^ f.r.ty.width) ∧
  Computes .mad .mad (fun f => f.na * f.nb + f.nk) ∧
  Computes .neg .neg (fun f => -f.na) ∧
  Computes .abs .abs (fun f => |f.na|) ∧
  Computes .min .min (fun f => min f.na f.nb) ∧
  Computes .max .max (fun f => max f.na f.nb) ∧
  Computes .shl .shl (fun f => f.na * 2 ^ min f.B.word.toNat f.r.ty.width)

/-- DIV truncates towards zero and REM is what that leaves; b = 0 gives the greatest value, or the least for a negative a, with
remainder a and dz; the least value by -1 gives the least value and 0 with of; a trapped dz or of faults the activation. -/
def Obligations.DivisionAndItsCorners : Prop :=
  let corner (f : Firing) : Prop := f.r.ty.signed = true ∧ f.na = least f.r.ty ∧ f.nb = -1
  Delivers .div .div (fun f => intTyped f ∧ f.nb ≠ 0 ∧ ¬corner f)
    (fun f => scalarOfBits f.r.ty (BitVec.ofInt f.r.ty.width (f.na.tdiv f.nb))) ∧
  Delivers .rem .rem (fun f => intTyped f ∧ f.nb ≠ 0 ∧ ¬corner f)
    (fun f => scalarOfBits f.r.ty (BitVec.ofInt f.r.ty.width (f.na.tmod f.nb))) ∧
  Delivers .div .div (fun f => intTyped f ∧ f.nb = 0 ∧ 0 ≤ f.na)
    (fun f => scalarOfBits f.r.ty (BitVec.ofInt f.r.ty.width (greatest f.r.ty))) (fun _ => flagDz) ∧
  Delivers .div .div (fun f => intTyped f ∧ f.nb = 0 ∧ f.na < 0)
    (fun f => scalarOfBits f.r.ty (BitVec.ofInt f.r.ty.width (least f.r.ty))) (fun _ => flagDz) ∧
  Delivers .rem .rem (fun f => intTyped f ∧ f.nb = 0) (fun f => scalarOfBits f.r.ty (low f.r.ty f.A.word)) (fun _ => flagDz) ∧
  Delivers .div .div (fun f => intTyped f ∧ corner f)
    (fun f => scalarOfBits f.r.ty (BitVec.ofInt f.r.ty.width (least f.r.ty))) (fun _ => flagOf) ∧
  Delivers .rem .rem (fun f => intTyped f ∧ corner f) (fun _ => scalarOf 0) (fun _ => flagOf) ∧
  Faults .div .div (fun f => intTyped f ∧ f.nb = 0 ∧ bit f.found.trap 1 = true) (fun _ => (5, 1, 0, 0)) ∧
  Faults .rem .rem (fun f => intTyped f ∧ f.nb = 0 ∧ bit f.found.trap 1 = true) (fun _ => (5, 1, 0, 0)) ∧
  Faults .div .div (fun f => intTyped f ∧ corner f ∧ bit f.found.trap 2 = true) (fun _ => (5, 2, 0, 0)) ∧
  Faults .rem .rem (fun f => intTyped f ∧ corner f ∧ bit f.found.trap 2 = true) (fun _ => (5, 2, 0, 0))

/-- SHR shifts the raw w bits right by B[63:0], filled with zeros for FN 0 and with bit w - 1 for FN 1; a count of w or more leaves 0,
or every bit equal to bit w - 1; the w bits are then extended by the type. -/
def Obligations.ShiftRight : Prop :=
  Delivers .shr .shr (fun f => intTyped f ∧ f.r.fn = 0)
    (fun f => scalarOfBits f.r.ty (low f.r.ty f.A.word >>> f.B.word.toNat)) ∧
  Delivers .shr .shr (fun f => intTyped f ∧ f.r.fn = 1)
    (fun f => scalarOfBits f.r.ty ((low f.r.ty f.A.word).sshiftRight f.B.word.toNat))

/-- AND, OR, XOR, NOT, BREV, BEXT, BINS and ROT act on the w bits of their type, and POPC and CLZ count them; none sets a flag.

CMP delivers 1 or 0 as its condition holds of the two numbers; SELP a copy of the w bits of A or B as bit 0 of tK says, for
the float types too; CLAMP min(max(a, b), c). -/
def Obligations.LogicAndSelectForms : Prop :=
  (Bitwise .andOp .andOp (fun _ x y => x &&& y) ∧
   Bitwise .orOp .orOp (fun _ x y => x ||| y) ∧
   Bitwise .xorOp .xorOp (fun _ x y => x ^^^ y) ∧
   Bitwise .notOp .notOp (fun _ x _ => ~~~x) ∧
   Bitwise .brev .brev (fun _ x _ => x.reverse) ∧
   Delivers .popc .popc intTyped (fun f => scalarOf (low f.r.ty f.A.word).cpop.toNat) ∧
   Delivers .clz .clz intTyped (fun f => scalarOf (low f.r.ty f.A.word).clz.toNat) ∧
   Delivers .rot .rot (fun f => intTyped f ∧ f.r.fn = 0)
     (fun f => scalarOfBits f.r.ty ((low f.r.ty f.A.word).rotateLeft (f.B.word.toNat % f.r.ty.width))) ∧
   Delivers .rot .rot (fun f => intTyped f ∧ f.r.fn ≠ 0)
     (fun f => scalarOfBits f.r.ty ((low f.r.ty f.A.word).rotateRight (f.B.word.toNat % f.r.ty.width))) ∧
   Delivers .bext .bext (fun f => intTyped f ∧ f.r.ty.signed = true ∧ f.lit 0 6 + (f.lit 8 6 + 1) ≤ f.r.ty.width)
     (fun f => Val.ofWord (((low f.r.ty f.A.word).extractLsb' (f.lit 0 6) (f.lit 8 6 + 1)).signExtend 64)) ∧
   Delivers .bext .bext (fun f => intTyped f ∧ f.r.ty.signed = false ∧ f.lit 0 6 + (f.lit 8 6 + 1) ≤ f.r.ty.width)
     (fun f => Val.ofWord (((low f.r.ty f.A.word).extractLsb' (f.lit 0 6) (f.lit 8 6 + 1)).setWidth 64)) ∧
   Delivers .bins .bins (fun f => intTyped f ∧ f.lit 0 6 + (f.lit 8 6 + 1) ≤ f.r.ty.width)
     (fun f =>
       let m := fieldMask f.r.ty.width (f.lit 0 6) (f.lit 8 6 + 1)
       scalarOfBits f.r.ty ((low f.r.ty f.A.word &&& ~~~m) ||| ((low f.r.ty f.B.word <<< f.lit 0 6) &&& m)))) ∧
  (Delivers .cmp .cmp (fun f => intTyped f ∧ f.r.fn.toNat ≤ 5) (fun f => scalarOf (if holdsCond f.r.fn f.na f.nb then 1 else 0)) ∧
   Delivers .selp .selp (fun f => f.r.ty.code.toNat ≤ 10 ∧ bit f.K.bits 0 = true)
     (fun f => scalarOfBits f.r.ty (low f.r.ty f.A.word)) ∧
   Delivers .selp .selp (fun f => f.r.ty.code.toNat ≤ 10 ∧ bit f.K.bits 0 = false)
     (fun f => scalarOfBits f.r.ty (low f.r.ty f.B.word)) ∧
   Delivers .clamp .clamp intTyped
     (fun f => scalarOfBits f.r.ty (BitVec.ofInt f.r.ty.width (min (max f.na f.nb) f.nk))))

/-- CGETF delivers the field that FN names, CTAG tests or clears the tag, CDIFF is the exact signed difference of the cursors; each
result is a pair with the tag clear.

CINC and CSETC move the cursor: a tagged A keeps its tag and, off rewritten, its bounds where the cursor is representable, and
loses the tag and nothing else where it is not; an untagged A moves untagged; a tagged sealed one faults. CPERM masks the
permissions of a tagged unsealed A and faults on another. -/
def Obligations.CapabilityForms : Prop :=
  (Delivers .cgetf .cgetf (fun f => f.r.fn = 0) (fun f => pairOfNat (slice f.pa 0 72).toNat) ∧
   Delivers .cgetf .cgetf (fun f => f.r.fn = 1) (fun f => pairOfNat (capBase f.pa)) ∧
   Delivers .cgetf .cgetf (fun f => f.r.fn = 2) (fun f => pairOfNat (capTop f.pa)) ∧
   Delivers .cgetf .cgetf (fun f => f.r.fn = 3) (fun f => pairOfNat (capTop f.pa - capBase f.pa)) ∧
   Delivers .cgetf .cgetf (fun f => f.r.fn = 4) (fun f => pairOfNat (slice f.pa 116 12).toNat) ∧
   Delivers .cgetf .cgetf (fun f => f.r.fn = 5) (fun f => pairOfNat (slice f.pa 104 8).toNat) ∧
   Delivers .cgetf .cgetf (fun f => f.r.fn = 6) (fun f => pairOfNat (slice f.pa 112 4).toNat) ∧
   Delivers .cgetf .cgetf (fun f => f.r.fn = 7) (fun f => pairOfNat (if f.ta then 1 else 0)) ∧
   Delivers .ctag .ctag (fun f => f.r.fn = 0) (fun f => pairOfNat (if f.ta then 1 else 0)) ∧
   Delivers .ctag .ctag (fun f => f.r.fn = 1) (fun f => pairOf f.pa false) ∧
   Delivers .cdiff .cdiff always (fun f => pairOf ((f.pa.setWidth 72).setWidth 128 - (f.pb.setWidth 72).setWidth 128) false)) ∧
  (MovesCursor .cinc .cinc Firing.moved ∧
   MovesCursor .csetc .csetc (fun f => (f.pb.setWidth 72).toNat) ∧
   (∀ (p : Pair) (x : Nat), x < 2 ^ 72 → capHolds p x = true →
     capCursor (capMove p (capPlace p x).toNat x) = x ∧ capBase (capMove p (capPlace p x).toNat x) = capBase p ∧
     capTop (capMove p (capPlace p x).toNat x) = capTop p ∧ slice (capMove p (capPlace p x).toNat x) 84 44 = slice p 84 44) ∧
   Delivers .cperm .cperm (fun f => f.ta = true ∧ capOtype f.pa = 0)
     (fun f => pairOf ((slice f.pa 116 12 &&& slice f.pb 0 12) ++ slice f.pa 0 116) true) ∧
   Faults .cperm .cperm (fun f => f.ta = false) (fun f => (2, 1, 0, capCursor f.pa)) ∧
   Faults .cperm .cperm (fun f => f.ta = true ∧ capOtype f.pa ≠ 0) (fun f => (2, 2, 0, capCursor f.pa)))

/-- CSETB gives A the bounds from its cursor nb to nt = nb + B[72:0], encoded by R161: it completes where A is tagged, unsealed, the
bounds lie within A's (their encoding then does too), and FN 0 asks for no rounding; else it faults with the code of R166. The encoding is
the least exponent that holds the bounds, it contains them, and decoding gives it back. Where the spec is silent
or can be read two ways it follows the model's choice of log 127. -/
def Obligations.CsetbNarrowsBounds : Prop :=
  let nt (f : Firing) : Nat := capCursor f.pa + (slice f.pb 0 73).toNat
  let e (f : Firing) := capEncode (capCursor f.pa) (nt f)
  let plain (f : Firing) : Prop := f.ta = true ∧ capOtype f.pa = 0
  let inside (f : Firing) : Prop := plain f ∧ nt f ≤ 2 ^ 72 ∧ capBase f.pa ≤ capCursor f.pa ∧ nt f ≤ capTop f.pa
  let exact (f : Firing) : Prop := (e f).2.1 = capCursor f.pa ∧ (e f).2.2 = nt f
  Delivers .csetb .csetb (fun f => inside f ∧ (f.r.fn = 0 → exact f))
    (fun f => pairOf (capOf (slice f.pa 116 12) (capSpace f.pa) 0 (e f).1 (((e f).2.2 - (e f).2.1) / 2 ^ (e f).1) 0
      (capCursor f.pa)) true) ∧
  Faults .csetb .csetb (fun f => f.ta = false) (fun f => (2, 1, 0, capCursor f.pa)) ∧
  Faults .csetb .csetb (fun f => f.ta = true ∧ capOtype f.pa ≠ 0) (fun f => (2, 2, 0, capCursor f.pa)) ∧
  Faults .csetb .csetb (fun f => plain f ∧ ¬inside f) (fun f => (2, 3, 0, capCursor f.pa)) ∧
  Faults .csetb .csetb (fun f => inside f ∧ f.r.fn = 0 ∧ ¬exact f) (fun f => (2, 4, 0, capCursor f.pa)) ∧
  (∀ b t : Nat, b ≤ t → t ≤ 2 ^ 72 → b < 2 ^ 72 →
    let y := capEncode b t
    y.1 ≤ 61 ∧ y.2.1 ≤ b ∧ t ≤ y.2.2 ∧ (y.2.2 - y.2.1) / 2 ^ y.1 ≤ 4095 ∧
    (∀ k < y.1, 4095 < ceilDiv t (2 ^ k) - b / 2 ^ k) ∧
    ∀ perm space otype, capBase (capOf perm space otype y.1 ((y.2.2 - y.2.1) / 2 ^ y.1) 0 b) = y.2.1 ∧
      capTop (capOf perm space otype y.1 ((y.2.2 - y.2.1) / 2 ^ y.1) 0 b) = y.2.2)

/-- CSEAL puts B's cursor into A's object type and CUNSEAL clears it, with B as authority: tagged, unsealed, with seal or unseal, its
cursor in its bounds, from 1 to 255 to seal and equal to the object type to unseal; each check that fails faults with its code.
CUNSEAL keeps global only where B holds it. CDERIV sets the tag on valid bits. -/
def Obligations.SealingAndDeriving : Prop :=
  let plain (f : Firing) : Prop := f.ta = true ∧ capOtype f.pa = 0
  let shut (f : Firing) : Prop := f.ta = true ∧ capOtype f.pa ≠ 0
  let type (f : Firing) : Prop := 1 ≤ capCursor f.pb ∧ capCursor f.pb ≤ 255
  Delivers .cseal .cseal (fun f => plain f ∧ f.authorised 0x080 ∧ type f)
    (fun f => resealed f.pa (slice f.pa 116 12) (BitVec.ofNat 8 (capCursor f.pb))) ∧
  Faults .cseal .cseal (fun f => f.ta = false) (fun f => (2, 1, 0, capCursor f.pa)) ∧
  Faults .cseal .cseal shut (fun f => (2, 2, 0, capCursor f.pa)) ∧
  Faults .cseal .cseal (fun f => plain f ∧ f.tb = false) (fun f => (2, 1, 0, capCursor f.pb)) ∧
  Faults .cseal .cseal (fun f => plain f ∧ f.tb = true ∧ capOtype f.pb ≠ 0) (fun f => (2, 2, 0, capCursor f.pb)) ∧
  Faults .cseal .cseal (fun f => plain f ∧ f.tb = true ∧ capOtype f.pb = 0 ∧ capHasPerm f.pb 0x080 = false)
    (fun f => (2, 5, 0, capCursor f.pb)) ∧
  Faults .cseal .cseal (fun f => plain f ∧ f.tb = true ∧ capOtype f.pb = 0 ∧ capHasPerm f.pb 0x080 = true ∧
    ¬(capBase f.pb ≤ capCursor f.pb ∧ capCursor f.pb < capTop f.pb)) (fun f => (2, 8, 0, capCursor f.pb)) ∧
  Faults .cseal .cseal (fun f => plain f ∧ f.authorised 0x080 ∧ ¬type f) (fun f => (2, 6, 0, capCursor f.pb)) ∧
  Delivers .cunseal .cunseal
    (fun f => shut f ∧ f.authorised 0x100 ∧ capCursor f.pb = capOtype f.pa ∧ capHasPerm f.pb 0x200 = true)
    (fun f => resealed f.pa (slice f.pa 116 12) 0) ∧
  Delivers .cunseal .cunseal
    (fun f => shut f ∧ f.authorised 0x100 ∧ capCursor f.pb = capOtype f.pa ∧ capHasPerm f.pb 0x200 = false)
    (fun f => resealed f.pa (slice f.pa 116 12 &&& 0xDFF) 0) ∧
  Faults .cunseal .cunseal (fun f => f.ta = false) (fun f => (2, 1, 0, capCursor f.pa)) ∧
  Faults .cunseal .cunseal plain (fun f => (2, 2, 0, capCursor f.pa)) ∧
  Faults .cunseal .cunseal (fun f => shut f ∧ f.tb = false) (fun f => (2, 1, 0, capCursor f.pb)) ∧
  Faults .cunseal .cunseal (fun f => shut f ∧ f.tb = true ∧ capOtype f.pb ≠ 0) (fun f => (2, 2, 0, capCursor f.pb)) ∧
  Faults .cunseal .cunseal (fun f => shut f ∧ f.tb = true ∧ capOtype f.pb = 0 ∧ capHasPerm f.pb 0x100 = false)
    (fun f => (2, 5, 0, capCursor f.pb)) ∧
  Faults .cunseal .cunseal (fun f => shut f ∧ f.tb = true ∧ capOtype f.pb = 0 ∧ capHasPerm f.pb 0x100 = true ∧
    ¬(capBase f.pb ≤ capCursor f.pb ∧ capCursor f.pb < capTop f.pb)) (fun f => (2, 8, 0, capCursor f.pb)) ∧
  Faults .cunseal .cunseal (fun f => shut f ∧ f.authorised 0x100 ∧ capCursor f.pb ≠ capOtype f.pa)
    (fun f => (2, 6, 0, capCursor f.pb)) ∧
  Delivers .cderiv .cderiv (fun f => slice f.pa 102 2 = 0 ∧ capExp f.pa ≤ 61 ∧ capSpace f.pa ≤ 5) (fun f => pairOf f.pa true) ∧
  Faults .cderiv .cderiv (fun f => slice f.pa 102 2 ≠ 0 ∨ 61 < capExp f.pa) (fun f => (2, 7, 0, capCursor f.pa)) ∧
  Faults .cderiv .cderiv (fun f => slice f.pa 102 2 = 0 ∧ capExp f.pa ≤ 61 ∧ 5 < capSpace f.pa)
    (fun f => (2, 9, 0, capCursor f.pa))

namespace Sys2Proof.Claims
open Sys2Proof.Machine

/-- The rational that a finite number is. -/
def valueOf (x : FNum) : ℚ :=
  match x with
  | .fin neg m e => (if neg then -1 else 1) * (m : ℚ) * (2 : ℚ) ^ e
  | _ => 0

/-- The number is finite. -/
def finite (x : FNum) : Prop := ∃ n m e, x = .fin n m e

/-- A pattern of a format stands for a finite number. -/
def finiteBits (f : Fmt) (p : Nat) : Prop := p < 2 ^ (f.eb + f.fb + 1) ∧ finite (readFmt f p)

/-- The rational of a pattern. -/
def valueBits (f : Fmt) (p : Nat) : ℚ := valueOf (readFmt f p)

/-- The greatest finite number of a format. -/
def greatestOf (f : Fmt) : ℚ := valueBits f (f.infBits - 1)

/-- A pattern of a format is the rounding of a real number in a direction: to the nearest with the even one of two as near, towards
zero, up, down (03 R57). -/
def RoundsTo (fm : Fmt) (rm : Nat) (v : ℝ) (p : Nat) : Prop :=
  finiteBits fm p ∧ ∀ q, finiteBits fm q →
    let y : ℝ := valueBits fm p
    let z : ℝ := valueBits fm q
    (rm = 0 → |y - v| ≤ |z - v| ∧ (|y - v| = |z - v| → z ≠ y → p % 2 = 0)) ∧
    (rm = 1 → 0 ≤ y * v ∧ |y| ≤ |v| ∧ (|z| ≤ |v| → |z| ≤ |y|)) ∧
    (rm = 2 → v ≤ y ∧ (v ≤ z → y ≤ z)) ∧
    (rm = 3 → y ≤ v ∧ (z ≤ v → z ≤ y))

/-- What a float form rounds, r, stands for the real number v: it sets no flag, and its rounding to every format in every direction is
that of v, with nx exactly where v is not a pattern's value. -/
def StandsFor (r : FNum × BitVec 6) (v : ℝ) : Prop :=
  r.2 = 0 ∧ ∀ fm : Fmt, fm = f32 ∨ fm = f16 ∨ fm = b16 → |v| ≤ (greatestOf fm : ℝ) → ∀ rm < 4,
    let y := roundFmt fm rm r.1
    RoundsTo fm rm v y.1 ∧ (bit y.2 4 = true ↔ (valueBits fm y.1 : ℝ) ≠ v)

/-- A number is a real number but for a relative error of 2^-k. -/
def Near (k : Nat) (x : FNum) (v : ℝ) : Prop := finite x ∧ |(valueOf x : ℝ) - v| ≤ |v| / 2 ^ k

/-- A type of the scalar float forms. -/
def floatTyped (f : Firing) : Prop := f.r.ty = .f32 ∨ f.r.ty = .f16 ∨ f.r.ty = .b16

/-- The format of the record's type. -/
def Firing.fmt (f : Firing) : Fmt := fmtOf f.r.ty

/-- The rounding direction, FN[1:0]. -/
def Firing.rm (f : Firing) : Nat := (slice f.r.fn 0 2).toNat

/-- The pattern of operand A. -/
def Firing.bitsA (f : Firing) : Nat := f.A.word.toNat % 2 ^ f.r.ty.width

/-- Operand A as a number, as abs leaves it. -/
def Firing.fa (f : Firing) : FNum :=
  let x := readFmt f.fmt f.bitsA
  if slice f.r.fn 2 2 = 2 then x.absolute else x
/-- Operand B as a number, as abs leaves it. -/
def Firing.fb (f : Firing) : FNum :=
  let x := readFmt f.fmt (f.B.word.toNat % 2 ^ f.r.ty.width)
  if slice f.r.fn 2 2 = 2 then x.absolute else x
/-- The third operand as a number, as abs leaves it. -/
def Firing.fk (f : Firing) : FNum :=
  let x := readFmt f.fmt (f.K.word.toNat % 2 ^ f.r.ty.width)
  if slice f.r.fn 2 2 = 2 then x.absolute else x

/-- A pattern as neg leaves it: its sign turned, the canonical NaN kept (09 R171). -/
def negated (f : Firing) (p : Nat) : Nat :=
  if slice f.r.fn 2 2 = 1 ∧ p ≠ f.fmt.nanBits then (p + 2 ^ (f.fmt.eb + f.fmt.fb)) % 2 ^ (f.fmt.eb + f.fmt.fb + 1) else p

/-- A scalar float form of an exact result with its flags: rounded once by FN[1:0], then negated for neg (09 R170, R171). -/
def Rounds (i : Rec → Instr) (o : Op) (x : Firing → FNum × BitVec 6) : Prop :=
  Delivers i o floatTyped (fun f => scalarOf (negated f (roundFmt f.fmt f.rm (x f).1).1))
    (fun f => (x f).2 ||| (roundFmt f.fmt f.rm (x f).1).2)

/-- A scalar float form gives the canonical NaN where P holds. -/
def GivesNaN (i : Rec → Instr) (o : Op) (P : Firing → Prop) (fl : Firing → BitVec 6) : Prop :=
  Delivers i o (fun f => floatTyped f ∧ P f) (fun f => scalarOf f.fmt.nanBits) fl

/-- A scalar float form gives this pattern, negated for neg, where P holds. -/
def GivesBits (i : Rec → Instr) (o : Op) (P : Firing → Prop) (p : Firing → Nat) (fl : BitVec 6) : Prop :=
  Delivers i o (fun f => floatTyped f ∧ P f) (fun f => scalarOf (negated f (p f))) (fun _ => fl)

/-- No operand among these is a NaN. -/
def noNaN (l : List FNum) : Prop := ∀ x ∈ l, x.isNan = false

/-- Sign, exponent field and fraction of operand A's pattern. -/
def Firing.parts (f : Firing) : Bool × Nat × Nat :=
  (decide (f.bitsA / 2 ^ (f.fmt.eb + f.fmt.fb) % 2 = 1), f.bitsA / 2 ^ f.fmt.fb % 2 ^ f.fmt.eb, f.bitsA % 2 ^ f.fmt.fb)

/-- FCLS delivers one bit where operand A is of a class. -/
def Classifies (n : Nat) (P : Firing → Bool → Nat → Nat → Prop) : Prop :=
  Delivers .fcls .fcls (fun f => floatTyped f ∧ P f f.parts.1 f.parts.2.1 f.parts.2.2) (fun _ => scalarOf (2 ^ n))

end Sys2Proof.Claims

/-! ### Group 0x4 -/

/-- Rounding to a format gives, for a number within its finite range, the nearest finite pattern, the even one of two as near; the
nearest towards zero, above or below in the other directions; and raises nx exactly where the pattern is not the number. -/
def Obligations.RoundingIsNearest : Prop := ∀ (neg : Bool) (m : Nat) (e : Int), StandsFor (.fin neg m e, 0) (valueOf (.fin neg m e) : ℚ)

/-- The sum, the product and a * b + c that the float forms round are exact, and set no flag, on finite operands; comparison is that
of the values, with the infinities beyond all of them. The quotient, the square root and the reciprocal square root of finite operands
round, in every format and direction, as the exact quotient and roots do; the lesser and the greater of two numbers are those of the
values; and an infinite operand gives what its limit gives. -/
def Obligations.FloatArithmeticIsExact : Prop :=
  (∀ (rm : Nat) (x y z : FNum), finite x → finite y → finite z →
    (finite (addNum rm x y).1 ∧ valueOf (addNum rm x y).1 = valueOf x + valueOf y ∧ (addNum rm x y).2 = 0) ∧
    (finite (addNum rm x y.negate).1 ∧ valueOf (addNum rm x y.negate).1 = valueOf x - valueOf y) ∧
    (finite (mulNum x y).1 ∧ valueOf (mulNum x y).1 = valueOf x * valueOf y ∧ (mulNum x y).2 = 0) ∧
    (finite (fmaNum rm x y z).1 ∧ valueOf (fmaNum rm x y z).1 = valueOf x * valueOf y + valueOf z ∧ (fmaNum rm x y z).2 = 0) ∧
    (ltNum x y = true ↔ valueOf x < valueOf y) ∧ (eqNum x y = true ↔ valueOf x = valueOf y) ∧
    ltNum (.inf true) x = true ∧ ltNum x (.inf false) = true ∧ ltNum (.inf false) x = false ∧ ltNum x (.inf true) = false) ∧
  (∀ x y : FNum, finite x → finite y →
    (valueOf y ≠ 0 → StandsFor (divNum x y) ((valueOf x : ℝ) / (valueOf y : ℝ))) ∧
    (0 ≤ valueOf x → StandsFor (sqrtNum x) (Real.sqrt (valueOf x))) ∧
    (0 < valueOf x → StandsFor (rsqNum x) (1 / Real.sqrt (valueOf x))) ∧
    (finite (minNum x y).1 ∧ valueOf (minNum x y).1 = min (valueOf x) (valueOf y) ∧ (minNum x y).2 = 0) ∧
    (finite (maxNum x y).1 ∧ valueOf (maxNum x y).1 = max (valueOf x) (valueOf y) ∧ (maxNum x y).2 = 0)) ∧
  (∀ (x : FNum) (n : Bool), finite x →
    minNum (.inf true) x = (.inf true, 0) ∧ minNum x (.inf true) = (.inf true, 0) ∧ minNum (.inf false) x = (x, 0) ∧
    minNum x (.inf false) = (x, 0) ∧ maxNum (.inf false) x = (.inf false, 0) ∧ maxNum x (.inf false) = (.inf false, 0) ∧
    maxNum (.inf true) x = (x, 0) ∧ maxNum x (.inf true) = (x, 0) ∧
    divNum (.inf n) x = (.inf (n ^^ x.neg?), 0) ∧ (divNum x (.inf n)).1.isZero = true ∧ (divNum x (.inf n)).1.neg? = (x.neg? ^^ n) ∧
    (divNum x (.inf n)).2 = 0) ∧
  sqrtNum (.inf false) = (.inf false, 0)

/-- FADD, FSUB, FMUL, FFMA, FDIV, FSQRT and FRSQ round once, and FMIN and FMAX deliver, the result of their operands' numbers, under the modifiers
neg and abs, with the operation's flags and those of the rounding. Where the spec is silent
or can be read two ways it follows the model's choice of log 20. -/
def Obligations.FloatFormsComplete : Prop :=
  Rounds .fadd .fadd (fun f => addNum f.rm f.fa f.fb) ∧
  Rounds .fsub .fsub (fun f => addNum f.rm f.fa f.fb.negate) ∧
  Rounds .fmul .fmul (fun f => mulNum f.fa f.fb) ∧
  Rounds .ffma .ffma (fun f => fmaNum f.rm f.fa f.fb f.fk) ∧
  Rounds .fdiv .fdiv (fun f => divNum f.fa f.fb) ∧
  Rounds .fsqrt .fsqrt (fun f => sqrtNum f.fa) ∧
  Rounds .frsq .frsq (fun f => rsqNum f.fa) ∧
  Rounds .fmin .fmin (fun f => minNum f.fa f.fb) ∧
  Rounds .fmax .fmax (fun f => maxNum f.fa f.fb)

/-- The cases of R172: a NaN operand, infinity less infinity, zero times infinity, 0/0 and infinity/infinity give the canonical NaN; a
finite non-zero number over a zero gives an infinity with dz; the roots of -0, of negatives, 1/sqrt of zeros and of infinity; and
-0 below +0 for FMIN and FMAX. -/
def Obligations.FloatSpecialCases : Prop :=
  (∀ x ∈ [(Instr.fadd, Op.fadd), (.fsub, .fsub), (.fmul, .fmul), (.fdiv, .fdiv), (.fmin, .fmin), (.fmax, .fmax)],
    GivesNaN x.1 x.2 (fun f => f.fa.isNan = true ∨ f.fb.isNan = true) (fun f => if f.fa.isSig || f.fb.isSig then flagNv else 0)) ∧
  GivesNaN .ffma .ffma (fun f => (f.fa.isNan = true ∨ f.fb.isNan = true) ∨
      (f.fk.isNan = true ∧ ¬(f.fa.isZero = true ∧ f.fb.isInf = true) ∧ ¬(f.fa.isInf = true ∧ f.fb.isZero = true)))
    (fun f => if f.fa.isSig || f.fb.isSig || f.fk.isSig then flagNv else 0) ∧
  (∀ x ∈ [(Instr.fsqrt, Op.fsqrt), (.frsq, .frsq)],
    GivesNaN x.1 x.2 (fun f => f.fa.isNan = true) (fun f => if f.fa.isSig then flagNv else 0)) ∧
  GivesNaN .frnd .frnd (fun f => (readFmt f.fmt f.bitsA).isNan = true)
    (fun f => if (readFmt f.fmt f.bitsA).isSig then flagNv else 0) ∧
  (∀ t ∈ [(8, Ty.f32), (9, .f16), (10, .b16)],
    GivesNaN .fcvt .fcvt (fun f => f.lit 0 4 = t.1 ∧ (readFmt (fmtOf t.2) (f.A.word.toNat % 2 ^ t.2.width)).isNan = true)
      (fun f => if (readFmt (fmtOf t.2) (f.A.word.toNat % 2 ^ t.2.width)).isSig then flagNv else 0)) ∧
  GivesNaN .fadd .fadd (fun f => ∃ n, f.fa = .inf n ∧ f.fb = .inf !n) (fun _ => flagNv) ∧
  GivesNaN .fsub .fsub (fun f => ∃ n, f.fa = .inf n ∧ f.fb = .inf n) (fun _ => flagNv) ∧
  GivesNaN .ffma .ffma (fun f => ∃ n, (mulNum f.fa f.fb).1 = .inf n ∧ f.fk = .inf !n) (fun _ => flagNv) ∧
  (∀ x ∈ [(Instr.fmul, Op.fmul), (.ffma, .ffma)], GivesNaN x.1 x.2 (fun f => f.fa.isZero = true ∧ f.fb.isInf = true ∨
    f.fa.isInf = true ∧ f.fb.isZero = true) (fun _ => flagNv)) ∧
  GivesNaN .fdiv .fdiv (fun f => f.fa.isZero = true ∧ f.fb.isZero = true ∨ f.fa.isInf = true ∧ f.fb.isInf = true) (fun _ => flagNv) ∧
  GivesBits .fdiv .fdiv (fun f => finite f.fa ∧ f.fa.isZero = false ∧ f.fb.isZero = true)
    (fun f => f.fmt.sign (f.fa.neg? ^^ f.fb.neg?) + f.fmt.infBits) flagDz ∧
  GivesBits .fsqrt .fsqrt (fun f => f.fa.isZero = true) (fun f => f.fmt.sign f.fa.neg?) 0 ∧
  (∀ x ∈ [(Instr.fsqrt, Op.fsqrt), (.frsq, .frsq)],
    GivesNaN x.1 x.2 (fun f => f.fa.isNan = false ∧ f.fa.isZero = false ∧ f.fa.neg? = true) (fun _ => flagNv)) ∧
  GivesBits .frsq .frsq (fun f => f.fa.isZero = true) (fun f => f.fmt.sign f.fa.neg? + f.fmt.infBits) flagDz ∧
  GivesBits .frsq .frsq (fun f => f.fa = .inf false) (fun _ => 0) 0 ∧
  GivesBits .fmin .fmin (fun f => f.fa.isZero = true ∧ f.fb.isZero = true) (fun f => f.fmt.sign (f.fa.neg? || f.fb.neg?)) 0 ∧
  GivesBits .fmax .fmax (fun f => f.fa.isZero = true ∧ f.fb.isZero = true) (fun f => f.fmt.sign (f.fa.neg? && f.fb.neg?)) 0

/-- FCMP delivers 1 where its condition holds of its operands: with a NaN, only ne and un hold, and nv is set by lt, le, gt and ge, and by
the others for a signalling NaN alone; -0 and +0 compare equal; a fetched FCMP has one of the seven conditions. FCLS delivers the one
bit of its operand's class. -/
def Obligations.FloatCompareAndClassify : Prop :=
  let a (f : Firing) := readFmt f.fmt f.bitsA
  let b (f : Firing) := readFmt f.fmt (f.B.word.toNat % 2 ^ f.r.ty.width)
  Delivers .fcmp .fcmp (fun f => floatTyped f ∧ f.r.fn.toNat ≤ 6 ∧ noNaN [a f, b f])
    (fun f => scalarOf (if (f.r.fn = 0 ∧ eqNum (a f) (b f) = true) ∨ (f.r.fn = 1 ∧ eqNum (a f) (b f) = false) ∨
      (f.r.fn = 2 ∧ ltNum (a f) (b f) = true) ∨ (f.r.fn = 3 ∧ (ltNum (a f) (b f) = true ∨ eqNum (a f) (b f) = true)) ∨
      (f.r.fn = 4 ∧ ltNum (b f) (a f) = true) ∨ (f.r.fn = 5 ∧ (ltNum (b f) (a f) = true ∨ eqNum (a f) (b f) = true))
      then 1 else 0)) ∧
  Delivers .fcmp .fcmp (fun f => floatTyped f ∧ f.r.fn.toNat ≤ 6 ∧ ¬noNaN [a f, b f])
    (fun f => scalarOf (if f.r.fn = 1 ∨ f.r.fn = 6 then 1 else 0))
    (fun f => if (2 ≤ f.r.fn.toNat ∧ f.r.fn.toNat ≤ 5) ∨ (a f).isSig ∨ (b f).isSig then flagNv else 0) ∧
  (∀ x y : FNum, (finite x → finite y → (ltNum x y = true ↔ valueOf x < valueOf y) ∧ (eqNum x y = true ↔ valueOf x = valueOf y)) ∧
    (finite x → ltNum (.inf true) x = true ∧ ltNum x (.inf false) = true ∧ ltNum (.inf false) x = false ∧ ltNum x (.inf true) = false ∧
      ∀ n, eqNum (.inf n) x = false ∧ eqNum x (.inf n) = false) ∧
    (x.isZero = true → y.isZero = true → eqNum x y = true ∧ ltNum x y = false)) ∧
  (∀ n k : Bool, ltNum (.inf n) (.inf k) = (n && !k) ∧ eqNum (.inf n) (.inf k) = decide (n = k)) ∧
  (∀ env r, fieldFault env .fcmp r = 99 → r.fn.toNat ≤ 6) ∧
  Classifies 0 (fun f _ e x => e = 2 ^ f.fmt.eb - 1 ∧ x ≠ 0 ∧ x < 2 ^ (f.fmt.fb - 1)) ∧
  Classifies 1 (fun f _ e x => e = 2 ^ f.fmt.eb - 1 ∧ 2 ^ (f.fmt.fb - 1) ≤ x) ∧
  Classifies 2 (fun f n e x => n = true ∧ e = 2 ^ f.fmt.eb - 1 ∧ x = 0) ∧
  Classifies 3 (fun f n e _ => n = true ∧ 0 < e ∧ e < 2 ^ f.fmt.eb - 1) ∧
  Classifies 4 (fun _ n e x => n = true ∧ e = 0 ∧ x ≠ 0) ∧
  Classifies 5 (fun _ n e x => n = true ∧ e = 0 ∧ x = 0) ∧
  Classifies 6 (fun _ n e x => n = false ∧ e = 0 ∧ x = 0) ∧
  Classifies 7 (fun _ n e x => n = false ∧ e = 0 ∧ x ≠ 0) ∧
  Classifies 8 (fun f n e _ => n = false ∧ 0 < e ∧ e < 2 ^ f.fmt.eb - 1) ∧
  Classifies 9 (fun f n e x => n = false ∧ e = 2 ^ f.fmt.eb - 1 ∧ x = 0)

/-- FCVT rounds the number of its source format to its target, an E8 byte x reading as 2^(x - 127) and 0xFF as NaN; to E8 it gives
floor(log2 v) + 127 clamped to 0 to 254, and 0xFF with nv for zero, negatives and NaN. ICVT rounds an integer to a float, or a
float to an integer within its type's bounds. FRND rounds to an integral value. -/
def Obligations.FloatConversions : Prop :=
  let from_ (f : Firing) (t : Ty) : FNum := readFmt (fmtOf t) (f.A.word.toNat % 2 ^ t.width)
  let out (f : Firing) (x : FNum) := roundFmt f.fmt f.rm x
  let sig (x : FNum) : BitVec 6 := if x.isSig then flagNv else 0
  (∀ t ∈ [(8, Ty.f32), (9, .f16), (10, .b16)],
    Delivers .fcvt .fcvt (fun f => floatTyped f ∧ f.lit 0 4 = t.1) (fun f => scalarOf (out f (from_ f t.2)).1)
      (fun f => (out f (from_ f t.2)).2 ||| sig (from_ f t.2)) ∧
    Delivers .fcvt .fcvt (fun f => f.r.ty = .e8 ∧ f.lit 0 4 = t.1 ∧ 0 < valueOf (from_ f t.2))
      (fun f => scalarOf (min 254 (Int.log 2 (valueOf (from_ f t.2)) + 127).toNat)) ∧
    Delivers .fcvt .fcvt (fun f => f.r.ty = .e8 ∧ f.lit 0 4 = t.1 ∧
        ((from_ f t.2).isNan = true ∨ (from_ f t.2).isZero = true ∨ (from_ f t.2).neg? = true))
      (fun _ => scalarOf 255) (fun _ => flagNv) ∧
    Delivers .fcvt .fcvt (fun f => f.r.ty = .e8 ∧ f.lit 0 4 = t.1 ∧ from_ f t.2 = .inf false) (fun _ => scalarOf 254)
      (fun _ => flagOf ||| flagNx) ∧
    Delivers .icvt .icvt (fun f => intTyped f ∧ f.lit 0 4 = t.1 ∧ (from_ f t.2).isNan = true) (fun _ => scalarOf 0) (fun _ => flagNv) ∧
    Delivers .icvt .icvt (fun f => intTyped f ∧ f.lit 0 4 = t.1 ∧ (from_ f t.2).isInf = true)
      (fun f => scalarOfBits f.r.ty (BitVec.ofInt f.r.ty.width (if (from_ f t.2).neg? then least f.r.ty else greatest f.r.ty)))
      (fun _ => flagNv) ∧
    (∀ n m e, let v := (roundToInt · n m e)
      Delivers .icvt .icvt (fun f => intTyped f ∧ f.lit 0 4 = t.1 ∧ from_ f t.2 = .fin n m e)
        (fun f => scalarOfBits f.r.ty (BitVec.ofInt f.r.ty.width (max (least f.r.ty) (min (greatest f.r.ty) (v f.rm).1))))
        (fun f => if (v f.rm).1 < least f.r.ty ∨ greatest f.r.ty < (v f.rm).1 then flagNv else flagIf (v f.rm).2 flagNx))) ∧
  Delivers .fcvt .fcvt (fun f => floatTyped f ∧ f.lit 0 4 = 14)
    (fun f => scalarOf (out f (if f.A.word.toNat % 256 = 255 then .nan false else .fin false 1 ((f.A.word.toNat % 256 : Nat) - 127))).1)
    (fun f => (out f (if f.A.word.toNat % 256 = 255 then .nan false else .fin false 1 ((f.A.word.toNat % 256 : Nat) - 127))).2) ∧
  Delivers .fcvt .fcvt (fun f => f.r.ty = .e8 ∧ f.lit 0 4 = 14) (fun f => scalarOf (f.A.word.toNat % 256))
    (fun f => if f.A.word.toNat % 256 = 255 then flagNv else 0) ∧
  (∀ t, t.isInt = true → Delivers .icvt .icvt (fun f => floatTyped f ∧ f.lit 0 4 = t.code.toNat)
    (fun f => scalarOf (out f (.fin (number t f.A.word < 0) (number t f.A.word).natAbs 0)).1)
    (fun f => (out f (.fin (number t f.A.word < 0) (number t f.A.word).natAbs 0)).2)) ∧
  Delivers .frnd .frnd floatTyped (fun f => scalarOf (roundFmt f.fmt 0 (integral f.rm (readFmt f.fmt f.bitsA)).1).1)
    (fun f => (integral f.rm (readFmt f.fmt f.bitsA)).2) ∧
  (∀ rm < 4, ∀ neg m e, ∃ z : Int, valueOf (integral rm (.fin neg m e)).1 = z ∧ |valueOf (.fin neg m e) - z| < 1)

namespace Sys2Proof.Claims
open Sys2Proof.Machine

/-! ### Courses -/

/-- All flags of a list. -/
def orAll (l : List (BitVec 6)) : BitVec 6 := l.foldr (· ||| ·) 0

/-- The w bits of an exact integer kept to a type. -/
def keepBits (r : Rec) (v : Int) : BitVec r.ty.width :=
  BitVec.ofInt r.ty.width (if r.fn = 1 then max (least r.ty) (min (greatest r.ty) v) else v)

/-- Operand A is a course that its checks let pass, read as a. -/
def Firing.opA (f : Firing) (a : COp) : Prop := readCourse f.r.ty f.A.bits = .ok a
/-- Operand B is a course that its checks let pass, or a broadcast, read as b. -/
def Firing.opB (f : Firing) (b : COp) : Prop := readCOp f.r f.r.b f.B = .ok b
/-- The temporary tK is a course that its checks let pass, read as c. -/
def Firing.opK (f : Firing) (c : COp) : Prop := readCourse f.r.ty f.K.bits = .ok c
/-- Operand a of source A reads as b at level 0 (09 R181). -/
def Firing.recA (f : Firing) (a b : COp) : Prop :=
  reconstruct f.x f.found f.j f.r f.r.a (slice f.r.ax 0 4).toNat a = .ok b
/-- Operand a of source B reads as b at level 0 (09 R181). -/
def Firing.recB (f : Firing) (a b : COp) : Prop :=
  reconstruct f.x f.found f.j f.r f.r.b (slice f.r.ax 4 4).toNat a = .ok b

/-- A lane result: float lanes rounded into a course of the type, integer lanes kept to it, with all flags (09 R179). -/
def laneCourse (r : Rec) (tail : BitVec 16) (dec : BitVec 6) (nums : List (FNum × BitVec 6)) (ints : List Int) :
    Course × BitVec 6 :=
  if r.ty.isInt then
    (rawCourse r.ty 127 tail (ints.map fun v => (keepBits r v).toNat), orAll (ints.map (keepFlag r)))
  else ((floatCourse r.ty tail (nums.map (·.1))).1,
    dec ||| orAll (nums.map (·.2)) ||| (floatCourse r.ty tail (nums.map (·.1))).2)

/-- Wherever P holds, a course form completes with a course and its flags, and counts n operands reconstructed for it. -/
def GivesCourse (i : Rec → Instr) (o : Op) (P : Firing → Prop) (n : Nat) (y : Firing → Course × BitVec 6) : Prop :=
  Completes i o P (fun f => { f.found with recon := f.found.recon + n }) (fun f => (y f).2)
    (fun f => some (Val.ofCourse (y f).1)) (fun f => some (Val.ofCourse (y f).1))

/-- The tails of two operands agree as a coef form asks: neither has L > 0, or both have the same L and k; a broadcast has no tail. -/
def agree (a b : COp) : Prop := a.bcast = true ∨ b.bcast = true ∨ (a.l = 0 ∧ b.l = 0) ∨ (a.l = b.l ∧ a.k = b.k)

/-- The lanes of a two-operand form: by f of the numbers, by g of the integers. -/
def bothLanes (r : Rec) (tail : BitVec 16) (a b : COp) (f : FNum → FNum → FNum × BitVec 6) (g : Int → Int → Int) :
    Course × BitVec 6 :=
  laneCourse r tail (a.flags ||| b.flags) (List.zipWith f a.nums b.nums) (List.zipWith g a.ints b.ints)

/-- A broadcast other than zero. -/
def Firing.constB (f : Firing) (b : COp) : Prop := nonZeroBcast f.r f.r.b b = true

/-- A coef form that adds: lane by lane where the tails agree, and with A reconstructed where B is a broadcast other than zero. -/
def AddsLanes (i : Rec → Instr) (o : Op) (h : FNum → FNum → FNum × BitVec 6) (g : Int → Int → Int) : Prop :=
  ∀ a b, GivesCourse i o (fun f => f.opA a ∧ f.opB b ∧ ¬f.constB b ∧ agree a b) 0
      (fun f => bothLanes f.r (tailOf a.l a.k (a.q || b.q)) a b h g) ∧
    (∀ c, GivesCourse i o (fun f => f.opA a ∧ f.opB b ∧ f.constB b ∧ f.recA a c) c.recon
      (fun f => bothLanes f.r (tailOf c.l c.k (a.q || b.q)) c b h g)) ∧
    Faults i o (fun f => f.opA a ∧ f.opB b ∧ ¬f.constB b ∧ ¬agree a b) (fun _ => (4, 5, 0, 0))

/-- A rec form of two operands: the tail has L = 0 and the k of A, or of B where only B was reconstructed. -/
def RecLanes (i : Rec → Instr) (o : Op) (h : Firing → FNum → FNum → FNum × BitVec 6) (g : Firing → Int → Int → Int)
    (fn : Firing → Rec) (P : Firing → COp → Prop) : Prop :=
  ∀ a b c d : COp, GivesCourse i o (fun f => f.opA a ∧ f.opB b ∧ P f b ∧ f.recA a c ∧ f.recB b d) (c.recon + d.recon)
    (fun f => bothLanes (fn f) (tailOf 0 (if c.recon = 0 ∧ 0 < d.recon then d.k else c.k) (c.q || d.q)) c d (h f) (g f))

/-- The raw lanes of operand a of a type. -/
def rawOf (t : Ty) (a : COp) : List Nat := (List.range t.count).map fun i => laneRaw t.width a.raw i

/-- The raw lanes of B, a broadcast once converted to the element format (09 R178). -/
def Firing.rawB (f : Firing) (b : COp) : List Nat × BitVec 6 := rawLanes f.r f.r.b b

/-- The number that the numbers of a list sum to, where all are finite. -/
def sumOf (l : List FNum) : ℚ := (l.map valueOf).sum

/-- A scalar result of a course form with n operands reconstructed. -/
def GivesScalar (i : Rec → Instr) (o : Op) (P : Firing → Prop) (n : Nat) (w : Firing → Word) (fl : Firing → BitVec 6) : Prop :=
  Completes i o P (fun f => { f.found with recon := f.found.recon + n }) fl (fun f => some (Val.ofWord (w f)))
    (fun f => some (Val.ofWord (w f)))

/-- The scale byte that a form keeps: A's for tapered types, else 127. -/
def scaleKept (t : Ty) (a : COp) : Nat := if t = .t8 ∨ t = .t6 then crsScale a.raw else 127

/-- A form that moves the raw lanes of A: lane i of the result is lane p i of A, or 0. -/
def MovesLanes (i : Rec → Instr) (o : Op) (P : Firing → Prop) (p : Firing → Nat → Option Nat) : Prop :=
  ∀ a, GivesCourse i o (fun f => f.opA a ∧ P f) 0
    (fun f => (rawCourse f.r.ty (scaleKept f.r.ty a) (tailOf a.l a.k a.q)
      ((List.range f.r.ty.count).map fun k => match p f k with
        | some n => (rawOf f.r.ty a).getD n 0
        | none => 0), 0))

/-- A non-linear form: each lane of the operand at level 0 rounded to binary32 and flushed, then narrowed (09 R192). -/
def Nonlinear (i : Rec → Instr) (o : Op) (P : Firing → Prop) (h : FNum → FNum × BitVec 6) : Prop :=
  ∀ a c : COp, GivesCourse i o (fun f => f.opA a ∧ P f ∧ f.recA a c) c.recon
    (fun f =>
      let rs := c.nums.map fun x => laneFmt f32 (h x).1
      ((narrowCourse f.r.ty (tailOf 0 c.k c.q) (rs.map (·.1))).1,
        c.flags ||| orAll (c.nums.map fun x => (h x).2) ||| orAll (rs.map (·.2)) |||
          (narrowCourse f.r.ty (tailOf 0 c.k c.q) (rs.map (·.1))).2))

end Sys2Proof.Claims

/-! ### Groups 0x5 and 0x6 -/

/-- A course reads back as it was made: its format, scale, level, index and Q, its elements one after another from bit 16, and Z
exactly where all of them are zero; a course whose Z is set reads as zero elements.

A course operand is admitted by R48 in the order interchange format, reserved format, format of the type, tail; its lanes are
then the integers of its elements, or their numbers decoded and flushed; of an elementwise form a literal or zero B is
broadcast, of an integer type as the low bits of the literal sign-extended (for N64 the model's reading, log 133). -/
def Obligations.CoursesAndTheirLanes : Prop :=
  ((∀ (code scale l k w : Nat) (q : Bool) (lanes : List Nat), code < 256 → scale < 256 → l < 8 → k < 128 → 0 < w →
     w * lanes.length ≤ 480 →
     let c := mkCourse code scale (tailOf l k q) w lanes
     crsFmt c = code ∧ crsScale c = scale ∧ crsL c = l ∧ crsK c = k ∧ crsQ c = q ∧ slice c 496 4 = 0#4 ∧
     (crsZ c = true ↔ ∀ x ∈ lanes, x % 2 ^ w = 0) ∧
     ∀ i, i < lanes.length → laneRaw w c i = lanes.getD i 0 % 2 ^ w) ∧
   (∀ (w i : Nat) (c : Course), crsZ c = true → laneRaw w c i = 0)) ∧
  (∀ (r : Rec) (c : Course),
     ((crsFmt c = 0x18 ∨ crsFmt c = 0x19) → readCourse r.ty c = .error 2) ∧
     (fmtShape (crsFmt c) = none → crsFmt c ≠ 0x18 → crsFmt c ≠ 0x19 → readCourse r.ty c = .error 1) ∧
     (fmtShape (crsFmt c) ≠ none → crsFmt c ≠ fmtCode r.ty → readCourse r.ty c = .error 3) ∧
     (fmtShape (crsFmt c) ≠ none → crsFmt c = fmtCode r.ty → slice c 496 4 ≠ 0 → readCourse r.ty c = .error 4) ∧
     (fmtShape (crsFmt c) ≠ none → crsFmt c = fmtCode r.ty → slice c 496 4 = 0 →
       ∃ a, readCourse r.ty c = .ok a ∧ a.l = crsL c ∧ a.k = crsK c ∧ a.q = crsQ c ∧ a.recon = 0 ∧
         (r.ty.isInt = true → a.ints = (List.range r.ty.count).map fun i => number r.ty (BitVec.ofNat 64 (laneRaw r.ty.width c i))) ∧
         ((r.ty = .f32 ∨ r.ty = .f16 ∨ r.ty = .b16) → a.flags = 0 ∧ a.nums.length = r.ty.count ∧
           ∀ i < r.ty.count, a.nums.getD i FNum.zero =
             readFmt (fmtOf r.ty) (flushIn (fmtOf r.ty) (laneRaw r.ty.width c i)))) ∧
     (∀ v, r.b = .lit ∨ r.b = .zero → ∃ b, readCOp r r.b v = .ok b ∧ b.bcast = true ∧ b.flags = 0 ∧
       (r.b = .lit → b.nums = List.replicate r.ty.count (readFmt f32 r.lit.toNat) ∧
         b.ints = List.replicate r.ty.count (number r.ty (r.lit.signExtend 64)))) ∧
     (∀ v : Val, r.b ≠ .lit → r.b ≠ .zero → readCOp r r.b v = readCourse r.ty v.bits))

/-- A float result course holds, lane by lane, one rounding to nearest even of each number, flushed, under scale 127. A tapered code
is the greatest magnitude with sat beyond its range, NaN's code for NaN, and otherwise as near to the value as any code; the codes
of one sign rise with their magnitudes. -/
def Obligations.CourseLanesAreRounded : Prop :=
  (∀ (t : Ty) (l k : Nat) (q : Bool) (xs : List FNum), t = .f32 ∨ t = .f16 ∨ t = .b16 → l < 8 → k < 128 → xs.length = t.count →
    let y := floatCourse t (tailOf l k q) xs
    crsFmt y.1 = fmtCode t ∧ crsScale y.1 = 127 ∧ crsL y.1 = l ∧ crsK y.1 = k ∧ crsQ y.1 = q ∧
    ∀ i < t.count,
      let x := roundFmt (fmtOf t) 0 (xs.getD i FNum.zero)
      laneRaw t.width y.1 i =
        if x.1 / 2 ^ (fmtOf t).fb % 2 ^ (fmtOf t).eb = 0 then x.1 / 2 ^ ((fmtOf t).eb + (fmtOf t).fb) * 2 ^ ((fmtOf t).eb + (fmtOf t).fb)
        else x.1) ∧
  (∀ n, n = 8 ∨ n = 6 →
    (∀ m, m + 1 < 2 ^ (n - 1) → taperUnits n m < taperUnits n (m + 1)) ∧
    (∀ sig, (taperEncode n (.dir 0) (.nan sig)).1 = 2 ^ (n - 1)) ∧
    (∀ neg m e, valueOf (taperNum n (2 ^ (n - 1) - 1)) < |valueOf (.fin neg m e)| →
      taperEncode n (.dir 0) (.fin neg m e) = ((if neg then 2 ^ (n - 1) else 0) + (2 ^ (n - 1) - 1), flagSat)) ∧
    (∀ neg m e c, |valueOf (.fin neg m e)| ≤ valueOf (taperNum n (2 ^ (n - 1) - 1)) → c < 2 ^ n → c ≠ 2 ^ (n - 1) →
      |valueOf (taperNum n (taperEncode n (.dir 0) (.fin neg m e)).1) - valueOf (.fin neg m e)| ≤
        |valueOf (taperNum n c) - valueOf (.fin neg m e)|))

/-- The functions that the non-linear forms and SMXM round, of a binary32 number v: e^v, 2^v, ln v, the logistic function, v over
1 + e^-v and tanh v have a relative error of at most 2^-200 before their one rounding, v times the normal distribution function (1/2
plus the density times the series of odd powers of v over odd factorials) one of at most 2^-180; relu is exact; and beyond the range of
the fixed point the results lie where every format rounds them alike. NaNs, infinities and zeros give what R192 gives. The precision is
the model's choice of log 25. -/
def Obligations.ElementaryFunctionsAreNear : Prop :=
  (∀ p < 2 ^ 32, finite (readFmt f32 p) →
    let x := readFmt f32 p
    let v : ℝ := valueOf x
    let phi : ℝ := 1 / 2 + Real.exp (-(v ^ 2) / 2) / Real.sqrt (2 * Real.pi) *
      ∑' n : ℕ, v ^ (2 * n + 1) / ((Finset.range (n + 1)).prod fun k => ((2 * k + 1 : ℕ) : ℝ))
    (|v| < 256 → Near 200 (expNum x).1 (Real.exp v) ∧ Near 200 (exp2Num x).1 ((2 : ℝ) ^ v) ∧
      Near 200 (sigmoidNum x).1 (1 / (1 + Real.exp (-v)))) ∧
    (256 ≤ v → (2 : ℚ) ^ 200 ≤ valueOf (expNum x).1 ∧ (2 : ℚ) ^ 200 ≤ valueOf (exp2Num x).1 ∧
      Near 200 (sigmoidNum x).1 1 ∧ valueOf (sigmoidNum x).1 < 1) ∧
    (v ≤ -256 → ∀ y ∈ [(expNum x).1, (exp2Num x).1, (sigmoidNum x).1], 0 < valueOf y ∧ valueOf y < 1 / (2 : ℚ) ^ 200) ∧
    (0 < v → Near 200 (lnNum x).1 (Real.log v)) ∧
    (-256 < v → Near 200 (siluNum x).1 (v / (1 + Real.exp (-v)))) ∧
    (v ≤ -256 → valueOf (siluNum x).1 < 0 ∧ -(1 / (2 : ℚ) ^ 200) < valueOf (siluNum x).1) ∧
    Near 200 (tanhNum x).1 (Real.tanh v) ∧
    (-16 < v → Near 180 (geluNum x).1 (v * phi)) ∧
    (v ≤ -16 → valueOf (geluNum x).1 < 0 ∧ -(1 / (2 : ℚ) ^ 180) < valueOf (geluNum x).1) ∧
    (finite (reluNum x).1 ∧ (valueOf (reluNum x).1 : ℝ) = max v 0 ∧ (reluNum x).1.neg? = false) ∧
    (∀ y ∈ [expNum x, exp2Num x, sigmoidNum x, siluNum x, tanhNum x, geluNum x, reluNum x], y.2 = 0) ∧ (0 < v → (lnNum x).2 = 0)) ∧
  (∀ (s : Bool), ∀ h ∈ [expNum, exp2Num, lnNum, sigmoidNum, siluNum, tanhNum, geluNum, reluNum],
    h (.nan s) = (.nan false, if s then flagNv else 0)) ∧
  (∀ m e n, m ≠ 0 → lnNum (.fin n 0 e) = (.inf true, flagDz) ∧ lnNum (.fin true m e) = (.nan false, flagNv)) ∧
  expNum (.inf true) = (FNum.zero, 0) ∧ expNum (.inf false) = (.inf false, 0) ∧
  lnNum (.inf false) = (.inf false, 0) ∧ lnNum (.inf true) = (.nan false, flagNv) ∧
  reluNum (.inf true) = (FNum.zero, 0) ∧ reluNum (.inf false) = (.inf false, 0) ∧
  (∀ h ∈ [geluNum, siluNum], h (.inf true) = (.fin true 0 0, 0) ∧ h (.inf false) = (.inf false, 0)) ∧
  (∀ n, tanhNum (.inf n) = (.fin n 1 0, 0)) ∧ sigmoidNum (.inf true) = (FNum.zero, 0) ∧ sigmoidNum (.inf false) = (FNum.ofInt 1, 0)

/-- An operand with L > 0 of a rec form is reconstructed from the tile at its ring's head: one lane after another by the inverse
Haar steps of R181, to L = 0 and k = tau, counting one reconstruction; an integer type faults with domain, and a source that is
no ring, or a tile that is not whole, with tile. The first entry of a tile that breaks a condition gives the code: tile for another
format or level or a k that is not its place, tail for a tail that R48 refuses. The flags of decoding every entry are
collected with those of the steps. Where the spec is silent
or can be read two ways it follows the model's choices of log 24 and 132. -/
def Obligations.OperandsReconstruct : Prop :=
  ∀ (x : Ctx) (a : Act) (j : Nat) (r : Rec) (src : Src) (q : Nat) (o : COp),
    (o.l = 0 → reconstruct x a j r src q o = .ok o) ∧
    (o.bcast = false → 0 < o.l → r.ty.isInt = true → reconstruct x a j r src q o = .error 5) ∧
    (o.bcast = false → 0 < o.l → r.ty.isInt = false → src ≠ .ring → reconstruct x a j r src q o = .error 6) ∧
    (∀ tile, o.bcast = false → 0 < o.l → r.ty.isInt = false → src = .ring → ringTile x a j q 0 (tileLen x q) = some tile →
      let whole := ∃ n < 8, tileLen x q = 2 ^ n ∧ o.l ≤ n
      (¬whole → reconstruct x a j r src q o = .error 6) ∧
      (whole → tileCode r.ty o.l true tile ≠ 99 → reconstruct x a j r src q o = .error (tileCode r.ty o.l true tile)) ∧
      (whole → tileCode r.ty o.l true tile = 99 → ∃ b, reconstruct x a j r src q o = .ok b ∧ b.l = 0 ∧
        b.k = (slice r.ax 8 5).toNat ∧ b.recon = 1 ∧ b.q = o.q ∧ b.nums.length = r.ty.count ∧
        b.flags = o.flags ||| tileFlags r.ty tile ||| orAll ((recTile r.ty tile o.l (slice r.ax 8 5).toNat).map (·.2)))) ∧
    (o.bcast = false → 0 < o.l → r.ty.isInt = false → src = .ring → ringTile x a j q 0 (tileLen x q) = none →
      reconstruct x a j r src q o = .error 6) ∧
    -- a tile's entries: each of the form's format, of its level and at its place, and with the reserved bits of its tail zero
    (∀ (ty : Ty) (l : Nat) (byPlace : Bool) (tile : List Course),
      (tileCode ty l byPlace tile = 99 ↔ ∀ k c, tile[k]? = some c →
        crsFmt c = fmtCode ty ∧ slice c 496 4 = 0#4 ∧ crsL c = l ∧ (byPlace = true → crsK c = k)) ∧
      (∀ i c, tile[i]? = some c → (∀ k d, k < i → tile[k]? = some d →
          crsFmt d = fmtCode ty ∧ slice d 496 4 = 0#4 ∧ crsL d = l ∧ (byPlace = true → crsK d = k)) →
        (crsFmt c ≠ fmtCode ty → tileCode ty l byPlace tile = 6) ∧
        (crsFmt c = fmtCode ty → slice c 496 4 ≠ 0 → tileCode ty l byPlace tile = 4) ∧
        (crsFmt c = fmtCode ty → slice c 496 4 = 0 → (crsL c ≠ l ∨ (byPlace = true ∧ crsK c ≠ i)) →
          tileCode ty l byPlace tile = 6))) ∧
    -- one level: a time step is the rounded sum or difference of its approximation and its detail
    (∀ (lane : Nat → Nat × BitVec 6) (tau t : Nat), ∃ fl, recLane lane tau t 1 1 (lane (tau / 2)) =
      ((laneFmt f32 (addNum 0 (readFmt f32 (lane (tau / 2)).1)
        (if tau % 2 = 1 then (readFmt f32 (lane (t / 2 + tau / 2)).1).negate else readFmt f32 (lane (t / 2 + tau / 2)).1)).1).1, fl))

/-- VADD, VSUB, VMUL, VFMA, VMIN, VMAX and VSCL compute lane by lane, under the domain rule of each: coefficients whose tails agree, or
one operand constant along time, or operands reconstructed; tails that do not agree fault with domain.

VCMP gives each lane its truth value, VSEL takes lanes by the raw lanes of its mask, VBIT combines raw integer lanes, VSHF and VPERM
move raw lanes with the scale kept for tapered types, VBCST fills, VEXT reads and VINS replaces one lane. Where the spec is silent
or can be read two ways it follows the model's choices of log 24 and 125. -/
def Obligations.LaneForms : Prop :=
  (AddsLanes .vadd .vadd (addNum 0) (· + ·) ∧
   AddsLanes .vsub .vsub (fun x y => addNum 0 x y.negate) (· - ·) ∧
   (∀ a b, GivesCourse .vmul .vmul (fun f => f.opA a ∧ f.opB b ∧ (a.l = 0 ∨ b.l = 0)) 0
     (fun f => bothLanes f.r (if a.l = 0 ∧ 0 < b.l then tailOf b.l b.k (a.q || b.q) else tailOf a.l a.k (a.q || b.q)) a b mulNum (· * ·))) ∧
   (∀ a b c d : COp, GivesCourse .vmul .vmul
     (fun f => f.opA a ∧ f.opB b ∧ 0 < a.l ∧ 0 < b.l ∧ f.recA a c ∧ f.recB b d) (c.recon + d.recon)
     (fun f => bothLanes f.r (tailOf 0 (if c.recon = 0 ∧ 0 < d.recon then d.k else c.k) (a.q || b.q)) c d mulNum (· * ·))) ∧
   (∀ a b c : COp, GivesCourse .vfma .vfma (fun f => f.opA a ∧ f.opB b ∧ f.opK c ∧ a.l = 0 ∧ b.l = 0 ∧ c.l = 0) 0
     (fun f => laneCourse f.r (tailOf 0 a.k (a.q || b.q || c.q)) (a.flags ||| b.flags ||| c.flags)
       (List.zipWith (fun y z => fmaNum 0 y.1 y.2 z) (a.nums.zip b.nums) c.nums)
       (List.zipWith (fun y z => y.1 * y.2 + z) (a.ints.zip b.ints) c.ints))) ∧
   (∀ a b c : COp, GivesCourse .vfma .vfma (fun f => f.opA a ∧ f.opB b ∧ f.opK c ∧ 0 < a.l ∧ b.l = 0 ∧ c.l = a.l ∧ c.k = a.k) 0
     (fun f => laneCourse f.r (tailOf a.l a.k (a.q || b.q || c.q)) (a.flags ||| b.flags ||| c.flags)
       (List.zipWith (fun y z => fmaNum 0 y.1 y.2 z) (a.nums.zip b.nums) c.nums)
       (List.zipWith (fun y z => y.1 * y.2 + z) (a.ints.zip b.ints) c.ints))) ∧
   (∀ a b c : COp, GivesCourse .vfma .vfma (fun f => f.opA a ∧ f.opB b ∧ f.opK c ∧ a.l = 0 ∧ 0 < b.l ∧ c.l = b.l ∧ c.k = b.k) 0
     (fun f => laneCourse f.r (tailOf b.l b.k (a.q || b.q || c.q)) (a.flags ||| b.flags ||| c.flags)
       (List.zipWith (fun y z => fmaNum 0 y.1 y.2 z) (a.nums.zip b.nums) c.nums)
       (List.zipWith (fun y z => y.1 * y.2 + z) (a.ints.zip b.ints) c.ints))) ∧
   (∀ a b c : COp, Faults .vfma .vfma
     (fun f => f.opA a ∧ f.opB b ∧ f.opK c ∧ (0 < a.l ∧ 0 < b.l ∨ 0 < a.l ∧ b.l = 0 ∧ (c.l ≠ a.l ∨ c.k ≠ a.k) ∨
       a.l = 0 ∧ 0 < b.l ∧ (c.l ≠ b.l ∨ c.k ≠ b.k) ∨ a.l = 0 ∧ b.l = 0 ∧ 0 < c.l)) (fun _ => (4, 5, 0, 0))) ∧
   RecLanes .vmin .vmin (fun _ => minNum) (fun _ => min) (fun f => { f.r with fn := 0 }) (fun f _ => f.r.fn = 0) ∧
   RecLanes .vmax .vmax (fun _ => maxNum) (fun _ => max) (fun f => { f.r with fn := 0 }) (fun f _ => f.r.fn = 0) ∧
   (∀ a, GivesCourse .vscl .vscl (fun f => f.opA a ∧ f.r.fn = 0) 0
     (fun f => laneCourse f.r (tailOf a.l a.k a.q) a.flags
       (a.nums.map fun x => mulNum x (readFmt f32 (f.B.word.toNat % 2 ^ 32)))
       (a.ints.map fun x => x * f.nb)))) ∧
  (RecLanes .vcmp .vcmp (fun f x y => (FNum.ofInt (if (cmpNum f.r.fn.toNat x y).1 then 1 else 0), (cmpNum f.r.fn.toNat x y).2))
     (fun f x y => if holdsCond f.r.fn x y then -1 else 0) (fun f => { f.r with fn := 0 })
     (fun f b => f.r.fn.toNat ≤ 5 ∧ ¬(b.bcast = true ∧ ¬f.constB b)) ∧
   (∀ a b, GivesCourse .vcmp .vcmp (fun f => f.opA a ∧ f.opB b ∧ f.r.fn.toNat ≤ 5 ∧ b.bcast = true ∧ ¬f.constB b) 0
     (fun f => bothLanes { f.r with fn := 0 } (tailOf a.l a.k a.q) a b
       (fun x y => (FNum.ofInt (if (cmpNum f.r.fn.toNat x y).1 then 1 else 0), (cmpNum f.r.fn.toNat x y).2))
       (fun x y => if holdsCond f.r.fn x y then -1 else 0))) ∧
   (∀ a b c : COp, GivesCourse .vsel .vsel
     (fun f => f.opA a ∧ f.opB b ∧ f.opK c ∧ agree a b ∧ agree a c ∧ isTaper f.r.ty = false) 0
     (fun f => (rawCourse f.r.ty 127 (tailOf a.l a.k (a.q || b.q || c.q))
       ((List.range f.r.ty.count).map fun i => if laneRaw f.r.ty.width c.raw i ≠ 0 then (rawOf f.r.ty a).getD i 0
         else (f.rawB b).1.getD i 0), (f.rawB b).2))) ∧
   (∀ a b c : COp, GivesCourse .vsel .vsel
     (fun f => f.opA a ∧ f.opB b ∧ f.opK c ∧ agree a b ∧ agree a c ∧ isTaper f.r.ty = true) 0
     (fun f =>
       let xs := (List.range f.r.ty.count).map fun i => if laneRaw f.r.ty.width c.raw i ≠ 0 then a.nums.getD i FNum.zero
         else b.nums.getD i FNum.zero
       ((floatCourse f.r.ty (tailOf a.l a.k (a.q || b.q || c.q)) xs).1,
         a.flags ||| b.flags ||| (floatCourse f.r.ty (tailOf a.l a.k (a.q || b.q || c.q)) xs).2))) ∧
   (∀ a b, GivesCourse .vbit .vbit (fun f => intTyped f ∧ f.opA a ∧ f.opB b ∧ agree a b ∧ f.r.fn.toNat ≤ 2) 0
     (fun f => (rawCourse f.r.ty 127 (tailOf a.l a.k (a.q || b.q))
       (List.zipWith (fun x y => if f.r.fn = 0 then x &&& y else if f.r.fn = 1 then x ||| y else x ^^^ y) (rawOf f.r.ty a)
         (f.rawB b).1), 0))) ∧
   MovesLanes .vshf .vshf (fun f => f.r.fn = 0) (fun f k => some (k + f.lit 0 7)) ∧
   MovesLanes .vshf .vshf (fun f => f.r.fn = 1) (fun f k => if k < f.lit 0 7 then none else some (k - f.lit 0 7)) ∧
   MovesLanes .vperm .vperm (fun f => crsFmt f.B.bits = 0x01) (fun f k => some (slice f.B.bits (16 + 8 * k) 8).toNat) ∧
   Faults .vperm .vperm (fun f => (∃ a, f.opA a) ∧ crsFmt f.B.bits ≠ 0x01) (fun _ => (4, 3, 0, 0)) ∧
   GivesCourse .vbcst .vbcst intTyped 0
     (fun f => (rawCourse f.r.ty 127 0 (List.replicate f.r.ty.count (low f.r.ty f.A.word).toNat), 0)) ∧
   GivesCourse .vbcst .vbcst floatTyped 0
     (fun f => (rawCourse f.r.ty 127 0 (List.replicate f.r.ty.count (flushOut f.fmt ((low f.r.ty f.A.word).toNat, 0)).1),
       (flushOut f.fmt ((low f.r.ty f.A.word).toNat, 0)).2)) ∧
   GivesCourse .vbcst .vbcst (fun f => isTaper f.r.ty = true)
     (n := 0) (fun f => floatCourse f.r.ty 0 (List.replicate f.r.ty.count (insertedNum f.A.word))) ∧
   (∀ a, GivesScalar .vext .vext (fun f => f.opA a ∧ intTyped f) 0
     (fun f => extended f.r.ty (BitVec.ofNat f.r.ty.width (laneRaw f.r.ty.width a.raw (f.lit 0 7)))) (fun _ => 0)) ∧
   (∀ a, GivesScalar .vext .vext (fun f => f.opA a ∧ floatTyped f) 0
     (fun f => BitVec.ofNat 64 (laneRaw f.r.ty.width a.raw (f.lit 0 7))) (fun _ => 0)) ∧
   (∀ a, GivesScalar .vext .vext (fun f => f.opA a ∧ isTaper f.r.ty = true) 0
     (fun f => BitVec.ofNat 64 (roundFmt f32 0 (laneNum f.r.ty a.raw (f.lit 0 7)).1).1) (fun _ => a.flags)) ∧
   (∀ a, GivesCourse .vins .vins (fun f => f.opA a ∧ isTaper f.r.ty = false) 0
     (fun f => (rawCourse f.r.ty 127 (tailOf a.l a.k a.q) ((rawOf f.r.ty a).set (f.lit 0 7) (low f.r.ty f.B.word).toNat), 0))) ∧
   (∀ a, GivesCourse .vins .vins (fun f => f.opA a ∧ isTaper f.r.ty = true) 0
     (fun f =>
       let y := floatCourse f.r.ty (tailOf a.l a.k true) (a.nums.set (f.lit 0 7) (insertedNum f.B.word))
       (y.1, a.flags ||| y.2))))

/-- VSUM and VDOT deliver the exact sum of lanes, of products, rounded once to binary32, or for integers the sum modulo 2^64; VRMAX the
greatest lane. A sum of zero is -0 where every term is -0 and +0 otherwise. A NaN among the terms gives the canonical NaN, and so do
infinities of both signs, which set nv whatever stands beside them; infinities of one sign give that infinity. VRMAX gives the canonical
NaN for a NaN lane, an infinity where it is the greatest, and +0 above -0. VDOT's B is a course, and both operands are reconstructed where
both have L > 0. -/
def Obligations.LaneReductions : Prop :=
  -- what a sum of numbers is, and which binary32 word it gives with which flags
  let both (l : List FNum) : Prop := FNum.inf false ∈ l ∧ FNum.inf true ∈ l
  let SumsTo (l : List FNum) (w : Word) (fl : BitVec 6) : Prop :=
    (∃ x, (∀ y ∈ l, finite y) ∧ finite x ∧ valueOf x = sumOf l ∧ valueOf x ≠ 0 ∧ w = BitVec.ofNat 64 (roundFmt f32 0 x).1 ∧
      fl = (roundFmt f32 0 x).2) ∨
    ((∀ y ∈ l, finite y) ∧ sumOf l = 0 ∧ fl = 0 ∧ w = if ∀ y ∈ l, y.isZero = true ∧ y.neg? = true then 0x80000000 else 0) ∨
    ((∃ y ∈ l, y.isNan = true) ∧ w = 0x7FC00000 ∧ fl = if l.any (·.isSig) ∨ both l then flagNv else 0) ∨
    ((∀ y ∈ l, y.isNan = false) ∧ both l ∧ w = 0x7FC00000 ∧ fl = flagNv) ∨
    (∃ n, (∀ y ∈ l, y.isNan = false) ∧ FNum.inf n ∈ l ∧ FNum.inf (!n) ∉ l ∧ fl = 0 ∧ w = if n then 0xFF800000 else 0x7F800000)
  let products (a b : COp) : List (FNum × BitVec 6) := List.zipWith mulNum a.nums b.nums
  (∀ a, GivesScalar .vsum .vsum (fun f => f.opA a ∧ intTyped f) 0 (fun _ => BitVec.ofInt 64 a.ints.sum) (fun _ => 0)) ∧
  (∀ (a : COp) w fl, a.nums ≠ [] → SumsTo a.nums w fl →
    GivesScalar .vsum .vsum (fun f => f.opA a ∧ f.r.ty.isInt = false) 0 (fun _ => w) (fun _ => a.flags ||| fl)) ∧
  (∀ a b, GivesScalar .vdot .vdot (fun f => f.opA a ∧ readCourse f.r.ty f.B.bits = .ok b ∧ intTyped f ∧ (a.l = 0 ∨ b.l = 0)) 0
    (fun _ => BitVec.ofInt 64 (List.zipWith (· * ·) a.ints b.ints).sum) (fun _ => 0)) ∧
  (∀ (a b : COp) w fl, products a b ≠ [] → SumsTo ((products a b).map (·.1)) w fl →
    GivesScalar .vdot .vdot (fun f => f.opA a ∧ readCourse f.r.ty f.B.bits = .ok b ∧ f.r.ty.isInt = false ∧ (a.l = 0 ∨ b.l = 0)) 0
      (fun _ => w) (fun _ => a.flags ||| b.flags ||| orAll ((products a b).map (·.2)) ||| fl)) ∧
  (∀ (a b c d : COp) w fl, products c d ≠ [] → SumsTo ((products c d).map (·.1)) w fl → GivesScalar .vdot .vdot
    (fun f => f.opA a ∧ readCourse f.r.ty f.B.bits = .ok b ∧ f.r.ty.isInt = false ∧ 0 < a.l ∧ 0 < b.l ∧ f.recA a c ∧ f.recB b d)
    (c.recon + d.recon) (fun _ => w) (fun _ => c.flags ||| d.flags ||| orAll ((products c d).map (·.2)) ||| fl)) ∧
  (∀ a : COp, ∀ m : Int, m ∈ a.ints → (∀ y ∈ a.ints, y ≤ m) →
    GivesScalar .vrmax .vrmax (fun f => f.opA a ∧ intTyped f ∧ a.l = 0) 0
      (fun f => extended f.r.ty (BitVec.ofInt f.r.ty.width m)) (fun _ => 0)) ∧
  (∀ a c : COp, ∀ m : FNum, m ∈ c.nums → finite m → (∀ y ∈ c.nums, y = .inf true ∨ (finite y ∧ valueOf y ≤ valueOf m)) →
    (valueOf m ≠ 0 → GivesScalar .vrmax .vrmax (fun f => f.opA a ∧ f.r.ty.isInt = false ∧ f.recA a c) c.recon
      (fun _ => BitVec.ofNat 64 (roundFmt f32 0 m).1) (fun _ => c.flags ||| (roundFmt f32 0 m).2)) ∧
    (valueOf m = 0 → GivesScalar .vrmax .vrmax (fun f => f.opA a ∧ f.r.ty.isInt = false ∧ f.recA a c) c.recon
      (fun _ => if ∃ y ∈ c.nums, y.isZero = true ∧ y.neg? = false then 0 else 0x80000000) (fun _ => c.flags))) ∧
  (∀ a c : COp, (∃ y ∈ c.nums, y.isNan = true) → GivesScalar .vrmax .vrmax (fun f => f.opA a ∧ f.r.ty.isInt = false ∧ f.recA a c)
    c.recon (fun _ => 0x7FC00000) (fun _ => c.flags ||| if c.nums.any (·.isSig) then flagNv else 0)) ∧
  (∀ a c : COp, (∀ y ∈ c.nums, y.isNan = false) → c.nums ≠ [] → FNum.inf false ∈ c.nums ∨ (∀ y ∈ c.nums, y = .inf true) →
    GivesScalar .vrmax .vrmax (fun f => f.opA a ∧ f.r.ty.isInt = false ∧ f.recA a c) c.recon
      (fun _ => if FNum.inf false ∈ c.nums then 0x7F800000 else 0xFF800000) (fun _ => c.flags))

/-- VQNT scales and rounds each lane by its direction, or by one draw of the generator a lane, which advances in the activation; VEXP,
VLN, VRCP, VRSQ and VACT round their function of each lane to binary32 and narrow it; VCVT converts the courses at a ring's head
and leaves them to be written at another ring's write position, delivering their number: one course for one, with its tail kept, where
the types have as many lanes; otherwise the least number of courses whose lanes fill courses of the other type, all at level 0, and
domain where one is not. Where the spec is silent
or can be read two ways it follows the model's choices of log 25 and 26. -/
def Obligations.ConversionsAndFunctions : Prop :=
  (∀ a, Completes .vqnt .vqnt (fun f => f.opA a ∧ f.r.fn ≠ 4) Firing.found
    (fun f =>
      let ps := a.nums.map fun y => mulNum y (readFmt f32 (f.B.word.toNat % 2 ^ 32))
      let y := quantCourse f.r.ty (tailOf a.l a.k true) (List.replicate f.r.ty.count (.dir f.r.fn.toNat)) (ps.map (·.1))
      a.flags ||| orAll (ps.map (·.2)) ||| y.2)
    (fun f =>
      let ps := a.nums.map fun y => mulNum y (readFmt f32 (f.B.word.toNat % 2 ^ 32))
      some (Val.ofCourse (quantCourse f.r.ty (tailOf a.l a.k true) (List.replicate f.r.ty.count (.dir f.r.fn.toNat)) (ps.map (·.1))).1))
    (fun f =>
      let ps := a.nums.map fun y => mulNum y (readFmt f32 (f.B.word.toNat % 2 ^ 32))
      some (Val.ofCourse (quantCourse f.r.ty (tailOf a.l a.k true) (List.replicate f.r.ty.count (.dir f.r.fn.toNat)) (ps.map (·.1))).1))) ∧
  (∀ a, Completes .vqnt .vqnt (fun f => f.opA a ∧ f.r.fn = 4)
    (fun f => { f.found with rng := (xsDraws f.r.ty.count f.found.rng).1 })
    (fun f =>
      let ps := a.nums.map fun y => mulNum y (readFmt f32 (f.B.word.toNat % 2 ^ 32))
      let y := quantCourse f.r.ty (tailOf a.l a.k true) ((xsDraws f.r.ty.count f.found.rng).2.map .draw) (ps.map (·.1))
      a.flags ||| orAll (ps.map (·.2)) ||| y.2)
    (fun f =>
      let ps := a.nums.map fun y => mulNum y (readFmt f32 (f.B.word.toNat % 2 ^ 32))
      some (Val.ofCourse (quantCourse f.r.ty (tailOf a.l a.k true) ((xsDraws f.r.ty.count f.found.rng).2.map .draw) (ps.map (·.1))).1))
    (fun f =>
      let ps := a.nums.map fun y => mulNum y (readFmt f32 (f.B.word.toNat % 2 ^ 32))
      some (Val.ofCourse (quantCourse f.r.ty (tailOf a.l a.k true) ((xsDraws f.r.ty.count f.found.rng).2.map .draw) (ps.map (·.1))).1))) ∧
  Nonlinear .vexp .vexp always expNum ∧ Nonlinear .vln .vln always lnNum ∧
  Nonlinear .vrcp .vrcp always (divNum (FNum.ofInt 1)) ∧ Nonlinear .vrsq .vrsq always rsqNum ∧
  Nonlinear .vact .vact (fun f => f.r.fn = 0) reluNum ∧ Nonlinear .vact .vact (fun f => f.r.fn = 1) geluNum ∧
  Nonlinear .vact .vact (fun f => f.r.fn = 2) siluNum ∧ Nonlinear .vact .vact (fun f => f.r.fn = 3) tanhNum ∧
  Nonlinear .vact .vact (fun f => f.r.fn = 4) sigmoidNum ∧
  (∀ (t : Ty) (c : Course) (a : COp) (n : Nat), 0 < n → t.count = n →
    Completes .vcvt .vcvt
      (fun f => f.lit 9 4 = t.code.toNat ∧ f.r.ty.count = n ∧ readCourse t c = .ok a ∧
        ringEntries f.x f.found f.j (slice f.r.ax 0 4).toNat (slice f.r.ax 8 5).toNat 1 = .ok [c] ∧
        ∃ p, ringSpot f.x f.found f.j (f.lit 0 4) (f.lit 4 5) 1 = .at_ p)
      (fun f => match ringSpot f.x f.found f.j (f.lit 0 4) (f.lit 4 5) 1 with
        | .at_ p => { f.found with rwrites := f.found.rwrites ++ [⟨f.j, f.lit 0 4, p,
            Val.ofCourse (convertCourse f.r.ty t.isInt f.rm (tailOf a.l a.k false) a.nums a.ints).1⟩] }
        | _ => f.found)
      (fun f => a.flags ||| (convertCourse f.r.ty t.isInt f.rm (tailOf a.l a.k false) a.nums a.ints).2)
      (fun _ => some (scalarOf 1)) (fun _ => none)) ∧
  (∀ (t : Ty) (cs : List Course) (os : List COp) (p : Nat), 0 < t.count →
    let lanes (f : Firing) := Nat.lcm t.count f.r.ty.count
    let read (f : Firing) : Prop := f.lit 9 4 = t.code.toNat ∧ t.count ≠ f.r.ty.count ∧ 0 < f.r.ty.count ∧
      ringEntries f.x f.found f.j (slice f.r.ax 0 4).toNat (slice f.r.ax 8 5).toNat (lanes f / t.count) = .ok cs ∧
      os.length = cs.length ∧ ∀ (i : Nat) c o, cs[i]? = some c → os[i]? = some o → readCourse t c = .ok o
    let out (f : Firing) (n : Nat) := convertCourse f.r.ty t.isInt f.rm 0 ((os.flatMap (·.nums)).extract (n * f.r.ty.count) ((n + 1) * f.r.ty.count))
      ((os.flatMap (·.ints)).extract (n * f.r.ty.count) ((n + 1) * f.r.ty.count))
    let outs (f : Firing) := (List.range (lanes f / f.r.ty.count)).map (out f)
    Completes .vcvt .vcvt
      (fun f => read f ∧ (∀ o ∈ os, o.l = 0) ∧
        ringSpot f.x f.found f.j (f.lit 0 4) (f.lit 4 5) (lanes f / f.r.ty.count) = .at_ p)
      (fun f => { f.found with rwrites := f.found.rwrites ++ (outs f).zipIdx.map fun x => ⟨f.j, f.lit 0 4, p + x.2, Val.ofCourse x.1.1⟩ })
      (fun f => orAll (os.map (·.flags)) ||| orAll ((outs f).map (·.2)))
      (fun f => some (scalarOf (lanes f / f.r.ty.count))) (fun _ => none) ∧
    Faults .vcvt .vcvt (fun f => read f ∧ ∃ o ∈ os, 0 < o.l) (fun _ => (4, 5, 0, 0)))

namespace Sys2Proof.Claims
open Sys2Proof.Machine

/-- The source ring and offset, the target ring and offset of VCVT, HFWD and HINV (09 R182). -/
def Firing.from_ (f : Firing) (n : Nat) : Except RingAnswer (List Course) :=
  ringEntries f.x f.found f.j (slice f.r.ax 0 4).toNat (slice f.r.ax 8 5).toNat n

/-- The activation with courses written to ring q from entry p by this record (09 R182; 11 R227). -/
def wroteRing (f : Firing) (q p : Nat) (cs : List Course) : Act :=
  { f.found with rwrites := f.found.rwrites ++ cs.zipIdx.map fun x => ⟨f.j, q, p + x.2, Val.ofCourse x.1⟩ }

/-- A Haar move of a whole tile: it completes with the tile written in tree order at level L under the target ring, delivering T to
D0, where the tile is whole at a level l0 from which L can be reached; a tile that is not faults, and so does one from whose level it
cannot. keepsQ says that the tile written carries the OR of the Q bits of the one read. -/
def MovesTile (i : Rec → Instr) (o : Op) (fits moves : Nat → Nat → Prop) (keepsQ : Bool)
    (g : Act → Rec → Nat → Nat → List Lane → List Lane) : Prop :=
  ∀ (tile : List Course) (l0 p k : Nat),
    let out (f : Firing) := writeTile f.r.ty (f.lit 9 3) (2 ^ f.lit 12 3) (keepsQ && tile.any crsQ)
      ((List.range f.r.ty.count).map fun k => g f.found f.r l0 (f.lit 9 3) (tileLanes f.r.ty tile k))
    Completes i o
      (fun f => f.from_ (2 ^ f.lit 12 3) = .ok tile ∧ haarTile f.r.ty (f.lit 12 3) false tile = .ok l0 ∧
        moves l0 (f.lit 9 3) ∧ ringSpot f.x f.found f.j (f.lit 0 4) (f.lit 4 5) (2 ^ f.lit 12 3) = .at_ p)
      (fun f => wroteRing f (f.lit 0 4) p ((out f).map (·.1))) (fun f => orAll ((out f).map (·.2)))
      (fun f => some (scalarOf (2 ^ f.lit 12 3))) (fun _ => none) ∧
    Faults i o (fun f => f.from_ (2 ^ f.lit 12 3) = .ok tile ∧ haarTile f.r.ty (f.lit 12 3) false tile = .error k)
      (fun _ => (4, k, 0, 0)) ∧
    Faults i o (fun f => f.from_ (2 ^ f.lit 12 3) = .ok tile ∧ haarTile f.r.ty (f.lit 12 3) false tile = .ok l0 ∧ ¬fits l0 (f.lit 9 3))
      (fun _ => (4, 6, 0, 0))

end Sys2Proof.Claims

/-! ### Group 0x7 -/

/-- HFWD transforms the tile at a ring's head to a deeper level and HINV to a shallower one, and leave it to be written to another
ring, HINV as it is where the level is the same; a tile that is not whole faults with the code of its first entry that breaks a
condition (log 132), and a level out of reach with tile. One forward step halves the sum and the difference of each pair with one
rounding each; one inverse step gives the sum and the difference of each approximation and its detail, one rounding each.

HTHR keeps an approximation course and zeroes the lanes of a detail course that are below CX.THR in magnitude; HBIAS adds B to the
lanes of an approximation course only; HREC delivers one time step of a tile; HGET and HCNT read a header and count lanes; HTAG
retags; HSPAN delivers the first time, the number of times and the kind of a coefficient; a course that fits no tile of 2^n times
faults with tile. Where the spec is silent
or can be read two ways it follows the model's choices of log 56, 125 and 132. -/
def Obligations.HaarForms : Prop :=
  (MovesTile .hfwd .hfwd (fun l0 l => l0 ≤ l) (fun l0 l => l0 ≤ l) false fwdLanes ∧
   MovesTile .hinv .hinv (fun l0 l => l ≤ l0) (fun l0 l => l < l0) true invLanes ∧
   (∀ (tile : List Course) (p : Nat), Completes .hinv .hinv
     (fun f => f.from_ (2 ^ f.lit 12 3) = .ok tile ∧ haarTile f.r.ty (f.lit 12 3) false tile = .ok (f.lit 9 3) ∧
       ringSpot f.x f.found f.j (f.lit 0 4) (f.lit 4 5) (2 ^ f.lit 12 3) = .at_ p)
     (fun f => wroteRing f (f.lit 0 4) p tile) (fun _ => 0) (fun f => some (scalarOf (2 ^ f.lit 12 3))) (fun _ => none)) ∧
   (∀ (ty : Ty) (n l0 : Nat) (strict : Bool) (tile : List Course),
     (haarTile ty n strict tile = .ok l0 ↔ l0 = crsL (tile.headD 0) ∧ l0 ≤ n ∧
       tileCode ty l0 (strict || decide (0 < l0)) tile = 99) ∧
     ∀ k, (haarTile ty n strict tile = .error k ↔
       let code := tileCode ty (crsL (tile.headD 0)) (strict || decide (0 < crsL (tile.headD 0))) tile
       (code ≠ 99 ∧ k = code) ∨ (code = 99 ∧ n < crsL (tile.headD 0) ∧ k = 6))) ∧
   (∀ (x y : Lane) (z : FNum), finite (readFmt f32 x.1) → finite (readFmt f32 y.1) → finite z → valueOf z ≠ 0 →
     (valueOf z = valueOf (readFmt f32 x.1) + valueOf (readFmt f32 y.1) → (haarAdd false x y).1 = (laneFmt f32 z).1) ∧
     (valueOf z = valueOf (readFmt f32 x.1) - valueOf (readFmt f32 y.1) → (haarAdd true x y).1 = (laneFmt f32 z).1)) ∧
   (∀ (a d : List Lane) (i : Nat) (x y : Lane), a[i]? = some x → d[i]? = some y →
     (haarUp a d)[2 * i]? = some (haarAdd false x y) ∧ (haarUp a d)[2 * i + 1]? = some (haarAdd true x y)) ∧
   (∀ (l : List Lane) (i : Nat) (x y : Lane), l[2 * i]? = some x → l[2 * i + 1]? = some y →
     (haarDown l).1[i]? = some (haarHalf false x y) ∧ (haarDown l).2[i]? = some (haarHalf true x y)) ∧
   (∀ (n : Nat) (a d : List Lane), haarInv (n + 1) a d = haarInv n (haarUp a (d.take a.length)) (d.drop a.length) ∧
     haarFwd (n + 1) a d = haarFwd n (haarDown a).1 ((haarDown a).2 ++ d)) ∧
   (∀ x y : Lane, finite (readFmt f32 x.1) → finite (readFmt f32 y.1) → ∀ z, finite z →
     valueOf z = (valueOf (readFmt f32 x.1) + valueOf (readFmt f32 y.1)) / 2 → valueOf z ≠ 0 →
     (haarHalf false x y).1 = (laneFmt f32 z).1) ∧
   (∀ x y : Lane, finite (readFmt f32 x.1) → finite (readFmt f32 y.1) → ∀ z, finite z →
     valueOf z = (valueOf (readFmt f32 x.1) - valueOf (readFmt f32 y.1)) / 2 → valueOf z ≠ 0 →
     (haarHalf true x y).1 = (laneFmt f32 z).1) ∧
   (∀ l : List Lane, (haarDown l).1.length = l.length / 2 ∧ (haarDown l).2.length = l.length / 2) ∧
   (∀ (n m : Nat) (l : List Lane), l.length = m * 2 ^ n → (haarFwd n l []).length = l.length ∧
     (haarInv n (l.take m) (l.drop m)).length = l.length)) ∧
  (let approx (n : Nat) (c : Course) : Prop := crsL c = 0 ∨ crsK c < 2 ^ n / 2 ^ crsL c
   let outside (n : Nat) (c : Course) : Prop := n < crsL c ∨ 2 ^ n ≤ crsK c
   (∀ a, GivesCourse .hthr .hthr (fun f => f.opA a ∧ ¬outside (f.lit 0 3) f.A.bits ∧ approx (f.lit 0 3) f.A.bits) 0
     (fun f => (f.A.bits, 0))) ∧
   (∀ a, GivesCourse .hthr .hthr (fun f => f.opA a ∧ ¬outside (f.lit 0 3) f.A.bits ∧ ¬approx (f.lit 0 3) f.A.bits) 0
     (fun f => (mkCourse (crsFmt f.A.bits) (crsScale f.A.bits) (tailOf a.l a.k a.q) f.r.ty.width
       (List.zipWith (fun n x => if belowThr f.found.thr x then 0 else n) (rawOf f.r.ty a) a.nums), 0))) ∧
   (∀ a, Faults .hthr .hthr (fun f => f.opA a ∧ outside (f.lit 0 3) f.A.bits) (fun _ => (4, 6, 0, 0))) ∧
   (∀ (thr : BitVec 32) (v : FNum), finite v → finite (readFmt f32 thr.toNat) →
     (belowThr thr v = true ↔ |valueOf v| < valueOf (readFmt f32 thr.toNat))) ∧
   (∀ a, GivesCourse .hbias .hbias
     (fun f => f.opA a ∧ ¬outside (slice f.r.ax 0 3).toNat f.A.bits ∧ ¬approx (slice f.r.ax 0 3).toNat f.A.bits) 0
     (fun f => (f.A.bits, 0))) ∧
   (∀ a, GivesCourse .hbias .hbias
     (fun f => f.opA a ∧ f.r.ty.isInt = false ∧ f.r.fn = 0 ∧ ¬outside (slice f.r.ax 0 3).toNat f.A.bits ∧
       approx (slice f.r.ax 0 3).toNat f.A.bits) 0
     (fun f => laneCourse f.r (tailOf a.l a.k a.q) a.flags
       (a.nums.map fun x => addNum 0 x (readFmt f32 (f.B.word.toNat % 2 ^ 32))) [])) ∧
   (∀ a, Faults .hbias .hbias (fun f => f.opA a ∧ outside (slice f.r.ax 0 3).toNat f.A.bits) (fun _ => (4, 6, 0, 0))) ∧
   (∀ (tile : List Course) (l0 : Nat), 0 < l0 → GivesCourse .hrec .hrec
     (fun f => f.from_ (2 ^ f.lit 8 3) = .ok tile ∧ haarTile f.r.ty (f.lit 8 3) true tile = .ok l0) 1
     (fun f =>
       let ls := recTile f.r.ty tile l0 (f.lit 0 7)
       let y := narrowCourse f.r.ty (tailOf 0 (f.lit 0 7) (tile.any crsQ)) (ls.map (·.1))
       (y.1, tileFlags f.r.ty tile ||| orAll (ls.map (·.2)) ||| y.2))) ∧
   (∀ tile : List Course, GivesCourse .hrec .hrec
     (fun f => f.from_ (2 ^ f.lit 8 3) = .ok tile ∧ haarTile f.r.ty (f.lit 8 3) true tile = .ok 0) 0
     (fun f => (slice (tile.getD (f.lit 0 7) 0) 509 3 ++ BitVec.ofNat 7 (f.lit 0 7) ++ slice (tile.getD (f.lit 0 7) 0) 0 502, 0))) ∧
   (∀ (tile : List Course) (k : Nat), Faults .hrec .hrec
     (fun f => f.from_ (2 ^ f.lit 8 3) = .ok tile ∧ haarTile f.r.ty (f.lit 8 3) true tile = .error k) (fun _ => (4, k, 0, 0))) ∧
   Delivers .hget .hget always
     (fun f => scalarOf (crsFmt f.A.bits + 2 ^ 8 * crsScale f.A.bits + 2 ^ 16 * (crsTail f.A.bits).toNat)) ∧
   (∀ a, GivesCourse .htag .htag (fun f => f.opA a ∧ slice f.B.word 0 4 = 0#4) 0
     (fun f => (withZ (slice f.B.word 6 10 ++ 0#1 ++ slice f.B.word 4 1 ++ 0#4 ++ slice a.raw 0 496), 0))) ∧
   (∀ a, Faults .htag .htag (fun f => f.opA a ∧ slice f.B.word 0 4 ≠ 0#4) (fun _ => (4, 4, 0, 0))) ∧
   (∀ a, GivesScalar .hcnt .hcnt (fun f => f.opA a ∧ intTyped f) 0 (fun _ => BitVec.ofNat 64 (a.ints.countP (· ≠ 0))) (fun _ => 0)) ∧
   (∀ a, GivesScalar .hcnt .hcnt (fun f => f.opA a ∧ f.r.ty.isInt = false) 0
     (fun _ => BitVec.ofNat 64 (a.nums.countP (!·.isZero))) (fun _ => a.flags)) ∧
   Delivers .hspan .hspan (fun f => checkCourse f.A.bits = 99 ∧ ¬outside (f.lit 0 3) f.A.bits ∧ crsL f.A.bits = 0)
     (fun f => scalarOf (crsK f.A.bits + 2 ^ 16)) ∧
   Delivers .hspan .hspan (fun f => checkCourse f.A.bits = 99 ∧ ¬outside (f.lit 0 3) f.A.bits ∧ 0 < crsL f.A.bits ∧
       crsK f.A.bits < 2 ^ f.lit 0 3 / 2 ^ crsL f.A.bits)
     (fun f => scalarOf (crsK f.A.bits * 2 ^ crsL f.A.bits + 2 ^ 16 * 2 ^ crsL f.A.bits)) ∧
   -- a detail course D_m[i] stands at index T div 2^m + i
   (∀ m i : Nat, Delivers .hspan .hspan (fun f => checkCourse f.A.bits = 99 ∧ ¬outside (f.lit 0 3) f.A.bits ∧ 1 ≤ m ∧
       m ≤ crsL f.A.bits ∧ i < 2 ^ f.lit 0 3 / 2 ^ m ∧ crsK f.A.bits = 2 ^ f.lit 0 3 / 2 ^ m + i)
     (fun _ => scalarOf (i * 2 ^ m + 2 ^ 16 * 2 ^ m + 2 ^ 32))) ∧
   Faults .hspan .hspan (fun f => checkCourse f.A.bits = 99 ∧ outside (f.lit 0 3) f.A.bits) (fun _ => (4, 6, 0, 0)))

namespace Sys2Proof.Claims
open Sys2Proof.Machine

/-- The ring of LIT[3:0] with its entry in the context. -/
def Firing.ring (f : Firing) (q : Nat) (g : Ring) : Prop := f.x.ring? q = some g

/-- The read and write positions of ring q that record j sees beyond those at begin (02 R30; 11 R224). -/
def Firing.gone (f : Firing) (q : Nat) (read : Bool) : Nat := f.found.moved f.j q read

/-- The stream time of a word. -/
def timeOf (w : Word) : Int := w.toInt

/-- A number of stream time (11 R233). -/
def isTime (t : Int) : Prop := -(2 ^ 47) ≤ t ∧ t < 2 ^ 47

/-- The value of a status or a count. -/
def say (n : Nat) : Option Val := some (scalarOf n)

/-- The operator of the activation, as the image describes it. -/
def Firing.oper (f : Firing) : OpDesc := f.found.opDesc f.x

/-! ### Memory accesses -/

/-- The access of n bytes at x under a capability that a form may make (08 R164; 10 R202, R203; 13 R262): a tagged unsealed
capability of an admitted space with the permissions, its bounds, and what each space limits. -/
def Firing.access (f : Firing) (p : Pair) (tagged : Bool) (spaces : List Nat) (perm x n : Nat) (store : Bool) : Prop :=
  tagged = true ∧ capOtype p = 0 ∧ capSpace p ∈ spaces ∧ capHasPerm p perm = true ∧ capBase p ≤ x ∧ x + n ≤ capTop p ∧
  (capSpace p = 1 → isElement f.u = true ∧ x + n ≤ f.x.scratch ∧ (store = true → f.x.inQueue x n = false)) ∧
  (capSpace p = 4 → x < 2 ^ 56) ∧ (capSpace p = 5 → x < 2 ^ 32)

/-- The address of a memory form under a capability: its cursor plus LIT read signed, modulo 2^72 (11 R240). -/
def Firing.at_ (f : Firing) (p : Pair) : Nat := (((capCursor p : Int) + f.r.lit.toInt) % 2 ^ 72).toNat

/-- The bytes that a shape moves (11 R241). -/
def bytesOf (r : Rec) : Nat :=
  match r.sh with
  | .scalar => r.ty.width / 8
  | .course => 64
  | .pair => 16

/-- The spaces of LD and ST (11 R241). -/
def dataSpaces (r : Rec) : List Nat := if r.sh = .scalar ∧ r.ty.width = 64 then [0, 1, 3, 4, 5] else [0, 1, 3, 4]

/-- A permission, with system in space 5 (08 R159). -/
def permIn (p : Pair) (perm : Nat) : Nat := if capSpace p = 5 then perm ||| 0x400 else perm

/-- The activation with a store buffered by this record (11 R243). -/
def Firing.stores (f : Firing) (p : Pair) (x : Nat) (d : StoreData) : Act :=
  { f.found with stores := f.found.stores ++ [⟨f.j, capSpace p, x, d⟩] }

/-- The type is one that a scalar access of whole bytes has. -/
def wholeBytes (t : Ty) : Prop := t.isInt = true ∨ t = .f32 ∨ t = .f16 ∨ t = .b16

end Sys2Proof.Claims

/-! ### Groups 0x8 and 0x9 -/

/-- RRD delivers the entry A places beyond the head of a ring, as its own activation has written it where it comes after that writer, RWR
leaves A, a course after the checks of R48, for the entry B places beyond its write position, RADV and
WADV move a cursor for later records and the commit, RFILL counts; each within the window fixed when the activation began,
beyond which the activation faults with class 6, code 14 and the ring; a const ring has no cursor to move and no place to write. -/
def Obligations.RingForms : Prop :=
  (∀ g, Delivers .rrd .rrd (fun f => f.ring (f.lit 0 4) g ∧ g.kind = .stream ∧ f.gone (f.lit 0 4) true + f.A.word.toNat < g.take)
    (fun f => shaped f.r.sh (ownEntry g f.found (isNewel f.found.w.unit) f.j
      ((f.found.view (f.lit 0 4)).h0 + (f.gone (f.lit 0 4) true + f.A.word.toNat))))) ∧
  -- an entry as a record sees it: the committed one, but for what a writer wrote there that the record comes after
  (∀ (g : Ring) (a : Act) (newel : Bool) (j n : Nat),
    ((∀ w ∈ a.rwrites, ¬(w.q = g.q ∧ w.n = n ∧ w.j ∈ a.past newel j)) → ownEntry g a newel j n = g.entry n) ∧
    (∀ w ∈ a.rwrites, w.q = g.q → w.n = n → w.j ∈ a.past newel j →
      (∀ y ∈ a.rwrites, y.q = g.q → y.n = n → y.j ∈ a.past newel j → y ≠ w → y.j < w.j) → ownEntry g a newel j n = w.v)) ∧
  (∀ g, Delivers .rrd .rrd (fun f => f.ring (f.lit 0 4) g ∧ g.kind = .const ∧ f.gone (f.lit 0 4) true + f.A.word.toNat < g.depth)
    (fun f => shaped f.r.sh (g.entry (f.gone (f.lit 0 4) true + f.A.word.toNat)))) ∧
  (∀ g, Faults .rrd .rrd (fun f => f.ring (f.lit 0 4) g ∧ g.kind = .stream ∧ g.take ≤ f.gone (f.lit 0 4) true + f.A.word.toNat)
    (fun f => (6, 14, f.lit 0 4, 0))) ∧
  (∀ g, Completes .rwr .rwr
    (fun f => (f.r.sh = .course → checkTyped f.r.ty f.A.bits = 99) ∧ f.ring (f.lit 0 4) g ∧ g.kind = .stream ∧
      f.gone (f.lit 0 4) false + f.B.word.toNat + 1 ≤ g.give)
    (fun f => { f.found with rwrites := f.found.rwrites ++ [⟨f.j, f.lit 0 4,
      (f.found.view (f.lit 0 4)).w0 + (f.gone (f.lit 0 4) false + f.B.word.toNat), shaped f.r.sh f.A⟩] })
    (fun _ => 0) (fun f => some (Val.ofWord f.B.word)) (fun _ => none)) ∧
  (∀ k, k ≠ 99 → Faults .rwr .rwr (fun f => f.r.sh = .course ∧ checkTyped f.r.ty f.A.bits = k) (fun _ => (4, k, 0, 0))) ∧
  (∀ g, Faults .rwr .rwr (fun f => (f.r.sh = .course → checkTyped f.r.ty f.A.bits = 99) ∧ f.ring (f.lit 0 4) g ∧
      (g.kind = .const ∨ g.kind = .stream ∧ g.give ≤ f.gone (f.lit 0 4) false + f.B.word.toNat))
    (fun f => (6, 14, f.lit 0 4, 0))) ∧
  (∀ g, Completes .radv .radv (fun f => f.ring (f.lit 0 4) g ∧ g.kind = .stream ∧ f.gone (f.lit 0 4) true + f.lit 4 6 ≤ g.take)
    (fun f => { f.found with moves := f.found.moves ++ [⟨f.j, f.lit 0 4, true, f.lit 4 6⟩] })
    (fun _ => 0) (fun f => some (Val.ofWord f.A.word)) (fun _ => none)) ∧
  (∀ g, Completes .wadv .wadv (fun f => f.ring (f.lit 0 4) g ∧ g.kind = .stream ∧ f.gone (f.lit 0 4) false + f.lit 4 6 ≤ g.give)
    (fun f => { f.found with moves := f.found.moves ++ [⟨f.j, f.lit 0 4, false, f.lit 4 6⟩] })
    (fun _ => 0) (fun f => some (Val.ofWord f.A.word)) (fun _ => none)) ∧
  (∀ g, Faults .radv .radv (fun f => f.ring (f.lit 0 4) g ∧
      (g.kind = .const ∨ g.kind = .stream ∧ g.take < f.gone (f.lit 0 4) true + f.lit 4 6)) (fun f => (6, 14, f.lit 0 4, 0))) ∧
  (∀ g, Faults .wadv .wadv (fun f => f.ring (f.lit 0 4) g ∧
      (g.kind = .const ∨ g.kind = .stream ∧ g.give < f.gone (f.lit 0 4) false + f.lit 4 6)) (fun f => (6, 14, f.lit 0 4, 0))) ∧
  (∀ g, Delivers .rfill .rfill (fun f => f.ring (f.lit 0 4) g ∧ g.kind = .stream ∧ g.cons = f.found.op f.x ∧ g.prod ≠ f.found.op f.x)
    (fun f => scalarOf (((f.found.view (f.lit 0 4)).fill - f.gone (f.lit 0 4) true) % 65536))) ∧
  (∀ g, Delivers .rfill .rfill (fun f => f.ring (f.lit 0 4) g ∧ g.kind = .stream ∧ g.cons ≠ f.found.op f.x ∧ g.prod = f.found.op f.x)
    (fun f => scalarOf (65536 * (((f.found.view (f.lit 0 4)).free - f.gone (f.lit 0 4) false) % 65536))))

/-- FALLOC, FFREE and FSTS leave their change of a frame of the block LIT[11:0] under tag word B in the own context for the commit;
FLDS delivers a frame's operand and 1, or zero and 0 where it is not there; SENDT writes an output port under tag word B; FSTS and
SENDT check a course that they take. TAGN takes the first iteration tag that is not live, upwards and around from the one taken last,
and delivers its tag word, or waits at the limit; TAGR leaves a tag to be retired. Where the spec is silent
or can be read two ways it follows the model's choices of log 123 and 138. -/
def Obligations.FrameAndTagForms : Prop :=
  let tagB (f : Firing) : TagWord := BitVec.ofNat 2 f.a.ctx ++ slice f.B.word 0 34
  Leaves .falloc .falloc always (fun f => .falloc (f.lit 0 12) (tagB f)) ∧
  Leaves .ffree .ffree always (fun f => .ffree (f.lit 0 12) (tagB f)) ∧
  (∀ k, k ≠ 99 → Faults .fsts .fsts (fun f => f.r.sh = .course ∧ checkTyped f.r.ty f.A.bits = k) (fun _ => (4, k, 0, 0))) ∧
  Leaves .fsts .fsts (fun f => f.r.sh = .course → checkTyped f.r.ty f.A.bits = 99) (fun f => .fsts (f.lit 0 12) (f.lit 12 5) (tagB f) (shaped f.r.sh f.A) none) ∧
  (∀ b w y, Completes .flds .flds
    (fun f => f.x.block? (f.lit 0 12) = some b ∧ f.s.frame? f.a.ctx b.ptr (tagB f) = some w ∧ (w.slots[f.lit 12 5]?).map (·.val) = some (some y))
    Firing.found (fun _ => 0) (fun f => some (shaped f.r.sh y)) (fun _ => say 1)) ∧
  (∀ b, Completes .flds .flds
    (fun f => f.x.block? (f.lit 0 12) = some b ∧ (f.s.frame? f.a.ctx b.ptr (tagB f) = none ∨
      ∃ w, f.s.frame? f.a.ctx b.ptr (tagB f) = some w ∧ (w.slots[f.lit 12 5]?).bind (·.val) = none))
    Firing.found (fun _ => 0) (fun f => some (Val.zero f.r.sh)) (fun _ => say 0)) ∧
  (∀ k, k ≠ 99 → Faults .sendt .sendt (fun f => f.r.sh = .course ∧ checkTyped f.r.ty f.A.bits = k) (fun _ => (4, k, 0, 0))) ∧
  Notes .sendt .sendt (fun f => f.r.sh = .course → checkTyped f.r.ty f.A.bits = 99)
    (fun f => { f.found with outs := f.found.outs ++ [⟨f.j, f.lit 0 4, some (shaped f.r.sh f.A), some (tagB f), none⟩] }) ∧
  Leaves .tagr .tagr always (fun f => .tagr (slice f.A.word 0 16)) ∧
  Pends .tagn .tagn (fun f => f.x.tagEff ≤ f.x.live.length) ∧
  (∀ f : Firing, f.opens .tagn → f.x.live.length < f.x.tagEff → ∃ t : BitVec 16,
    (∀ y ∈ f.x.live, y.iter ≠ t) ∧
    (∃ n < 65536, t = f.x.tagnAt + 1 + BitVec.ofNat 16 n ∧ ∀ m < n, ∃ y ∈ f.x.live, y.iter = f.x.tagnAt + 1 + BitVec.ofNat 16 m) ∧
    exec (.tagn f.r) f.s = .next ((f.s.modCtx f.found.ctx fun _ => { f.x with
        live := f.x.live ++ [⟨t, true, f.s.epoch (unitDie f.u), false⟩], tagnAt := t }).putAct f.u
      ((f.found.effect f.j (.tagn t)).complete f.s.clock.steps f.j f.r 0 (some (Val.ofWord ((tagWord f.a.ctx 0 t.toNat).setWidth 64)))
        (some (Val.ofWord ((tagWord f.a.ctx 0 t.toNat).setWidth 64))))))

/-- DMD posts a demand on a sink and delivers its status: 0 posted, 1 not resident, 2 no edge, 3 empty, 4 held by an eviction; a bound
outside stream time and an interval above 4096 fault with class 7. DGET and DXFM read and transform intervals, STIME delivers the
operator's time, STSET sets the emitted stamp, DDONE marks an interval delivered.

LFIND delivers the greatest landing at or below A and 1, else the origin and 2, else 0 and 0; SILENT the run-mode bits; LAND reads
its state and LREST its landing through their capabilities, LREST faulting with class 7, code 8, where its activation restores
nothing. Where the spec is silent
or can be read two ways it follows the model's choices of log 78 and 124. -/
def Obligations.DemandAndLandingForms : Prop :=
  (let lo (f : Firing) := timeOf f.A.word
   let hi (f : Firing) := timeOf f.B.word
   let c (f : Firing) := if bit f.r.lit 6 then f.lit 4 2 else f.a.ctx
   let times (f : Firing) := isTime (lo f) ∧ isTime (hi f)
   let whole (f : Firing) := times f ∧ lo f ≤ hi f ∧ hi f - lo f + 1 ≤ 4096
   let fed (f : Firing) := ∃ e ∈ (f.s.ctx (c f)).edges, e.cons = .sink (f.lit 0 4)
   let shut (f : Firing) := (f.s.ctx (c f)).status = .absent ∨ (f.s.ctx (c f)).status = .loading
   Completes .dmd .dmd (fun f => whole f ∧ (f.s.ctx (c f)).status = .resident ∧ fed f)
     (fun f => f.found.effect f.j (.demand (c f) (f.lit 0 4) ⟨lo f, hi f⟩ false)) (fun _ => 0) (fun _ => say 0) (fun _ => none) ∧
   Completes .dmd .dmd (fun f => whole f ∧ (f.s.ctx (c f)).status = .evicting ∧ fed f)
     (fun f => f.found.effect f.j (.demand (c f) (f.lit 0 4) ⟨lo f, hi f⟩ true)) (fun _ => 0) (fun _ => say 4) (fun _ => none) ∧
   Completes .dmd .dmd (fun f => whole f ∧ shut f) Firing.found (fun _ => 0) (fun _ => say 1) (fun _ => none) ∧
   Completes .dmd .dmd (fun f => whole f ∧ ¬shut f ∧ ¬fed f) Firing.found (fun _ => 0) (fun _ => say 2) (fun _ => none) ∧
   Completes .dmd .dmd (fun f => times f ∧ hi f < lo f) Firing.found (fun _ => 0) (fun _ => say 3) (fun _ => none) ∧
   Faults .dmd .dmd (fun f => ¬times f) (fun f => (7, 4, f.lit 0 4, 0)) ∧
   Faults .dmd .dmd (fun f => times f ∧ 4096 < hi f - lo f + 1) (fun f => (7, 3, f.lit 0 4, 0)) ∧
   Delivers .dget .dget (fun f => f.r.fn = 0) (fun f => pairOf ((slice f.pa 0 64).signExtend 128) false) ∧
   Delivers .dget .dget (fun f => f.r.fn = 1) (fun f => pairOf ((slice f.pa 64 64).signExtend 128) false) ∧
   Delivers .dxfm .dxfm (fun f => bit f.r.lit 20 = true)
     (fun f => pairOf ((slice f.pb 0 48).signExtend 64 ++ (slice f.pa 0 48).signExtend 64) false) ∧
   Delivers .dxfm .dxfm (fun f => bit f.r.lit 20 = false)
     (fun f =>
       let y (x : Int) (b : BitVec 32) : Int := max (-(2 ^ 47)) (min (2 ^ 47 - 1) ((x * f.lit 0 16 + b.toInt) / 2 ^ f.lit 16 4))
       pairOf (BitVec.ofInt 64 (y (slice f.pa 64 64).toInt (slice f.pb 32 32)) ++
         BitVec.ofInt 64 (y (slice f.pa 0 64).toInt (slice f.pb 0 32))) false) ∧
   Delivers .stime .stime (fun f => f.oper.state = 2) (fun f => Val.ofWord (BitVec.ofInt 64 f.found.stime)) ∧
   Delivers .stime .stime (fun f => f.oper.state ≠ 2) (fun f => Val.ofWord (f.found.w.stamp.signExtend 64)) ∧
   Completes .stset .stset (fun f => isTime (hi f)) (fun f => f.found.effect f.j (.stset (f.B.word.setWidth 48)))
     (fun _ => 0) (fun f => some (Val.ofWord f.A.word)) (fun f => some (Val.ofWord f.A.word)) ∧
   Faults .stset .stset (fun f => ¬isTime (hi f)) (fun _ => (7, 4, 0, 0)) ∧
   Leaves .ddone .ddone times (fun f => .ddone (f.lit 0 4) ⟨lo f, hi f⟩) ∧
   Faults .ddone .ddone (fun f => ¬times f) (fun _ => (7, 4, 0, 0))) ∧
  (let marks (f : Firing) : List Int := (f.found.opState f.x).landings.filter fun c => decide (c ≤ timeOf f.A.word)
   let area (f : Firing) (perm : Nat) : Prop := f.access f.pb f.tb [0] perm (capCursor f.pb) 262144 false ∧ capCursor f.pb % 4096 = 0
   (∀ m, Completes .lfind .lfind (fun f => m ∈ marks f ∧ ∀ y ∈ marks f, y ≤ m) Firing.found (fun _ => 0)
     (fun _ => some (Val.ofWord (BitVec.ofInt 64 m))) (fun _ => say 1)) ∧
   (∀ m, Completes .lfind .lfind (fun f => marks f = [] ∧ f.oper.origin = some m) Firing.found (fun _ => 0)
     (fun _ => some (Val.ofWord (BitVec.ofInt 64 m))) (fun _ => say 2)) ∧
   Completes .lfind .lfind (fun f => marks f = [] ∧ f.oper.origin = none) Firing.found (fun _ => 0) (fun _ => say 0) (fun _ => say 0) ∧
   Delivers .silent .silent (fun f => f.oper.state ≠ 2) (fun _ => scalarOf 0) ∧
   Delivers .silent .silent (fun f => f.oper.state = 2 ∧ 1 ≤ f.oper.landing)
     (fun f => scalarOf ((if f.found.w.silent then 1 else 0) + (if f.found.w.restore then 2 else 0) +
       (if f.found.w.origin then 4 else 0) + (if f.found.w.stamp.toInt % f.oper.landing = 0 then 8 else 0))) ∧
   Issues .land .land
     (fun f => f.access f.pa f.ta [0, 1] 0x001 (capCursor f.pa) (f.lit 0 12) false ∧ area f 0x002)
     (fun f => (capSpace f.pa, capCursor f.pa, .load (f.lit 0 12) false)) ∧
   Issues .lrest .lrest
     (fun f => f.found.w.restore = true ∧ f.access f.pa f.ta [0, 1] 0x002 (capCursor f.pa) (f.lit 0 12) true ∧ area f 0x001 ∧
       1 ≤ f.oper.landing)
     (fun f => (0, capCursor f.pb + 4096 * (f.found.w.stamp.toInt / f.oper.landing % 64).toNat, .load (64 + f.lit 0 12) false)) ∧
   Faults .lrest .lrest (fun f => f.found.w.restore = false) (fun _ => (7, 8, 0, 0)))

/-! ### Group 0xA -/

/-- The checks of R164 are made in its order, and the first that fails decides the code; 99 says that all pass. -/
def Obligations.AccessChecksInOrder : Prop :=
  ∀ (p : Pair) (tagged : Bool) (spaces : BitVec 8) (q x n limit : Nat),
    let k := capAccess p tagged spaces q x n limit
    let unsealed := tagged = true ∧ capOtype p = 0
    let spaceOk := capSpace p ≤ 5 ∧ bit spaces (capSpace p) = true
    let permOk := capPerm p &&& BitVec.ofNat 12 q = BitVec.ofNat 12 q
    let inside := capBase p ≤ x ∧ x + n ≤ capTop p ∧ (capSpace p = 1 → x + n ≤ limit)
    (tagged = false → k = 1) ∧
    (tagged = true → capOtype p ≠ 0 → k = 2) ∧
    (unsealed → ¬spaceOk → k = 9) ∧
    (unsealed → spaceOk → ¬permOk → k = 5) ∧
    (unsealed → spaceOk → permOk → ¬inside → k = 8) ∧
    (unsealed → spaceOk → permOk → inside → k = 99)

/-- LD, LDC, LDS, LDX and ACQ issue their request where the capability A admits the access at its natural alignment, LDC of space 1
excepted, which is untyped; a capability that does not allow it, or a misaligned address, faults with class 2, the code of R164 or 10,
and A's cursor, LDX for the first lane of which one is true.

ST, STC, STX and STS buffer what they store in the activation, at the address their capability gives, and change nothing else: no
byte of memory before the commit. A tagged pair keeps its tag in space 1 or where it holds global; a masked ST checks its course and
stores its elements. ST into the task queue faults with code 8, a misaligned ST with code 10; but a scalar ST at an element of a course
is buffered, in space 1 refused with format code 25. Where the spec is silent
or can be read two ways it follows the model's choices of log 78, 80 and 138. -/
def Obligations.LoadAndStoreForms : Prop :=
  (let ldOk (f : Firing) : Prop := f.access f.pa f.ta (dataSpaces f.r) (permIn f.pa 0x001) (f.at_ f.pa) (bytesOf f.r) false
   Issues .ld .ld (fun f => (f.r.sh = .scalar → wholeBytes f.r.ty) ∧ ldOk f ∧ f.at_ f.pa % bytesOf f.r = 0)
     (fun f => (capSpace f.pa, f.at_ f.pa, .load (bytesOf f.r) (f.r.sh = .pair && capHasPerm f.pa 0x004))) ∧
   Faults .ld .ld (fun f => (f.r.sh = .scalar → wholeBytes f.r.ty) ∧ ldOk f ∧ f.at_ f.pa % bytesOf f.r ≠ 0)
     (fun f => (2, 10, 0, capCursor f.pa)) ∧
   (∀ k, k ≠ 99 → Faults .ld .ld
     (fun f => capAccess f.pa f.ta (if f.r.sh = .scalar ∧ f.r.ty.width = 64 then 0x3B else 0x1B) (permIn f.pa 0x001) (f.at_ f.pa)
       (bytesOf f.r) (if isElement f.u then f.x.scratch else 0) = k ∧ (f.r.sh = .scalar → wholeBytes f.r.ty))
     (fun f => (2, k, 0, capCursor f.pa))) ∧
   let code (f : Firing) (spaces : BitVec 8) (perm x n : Nat) : Nat :=
     capAccess f.pa f.ta spaces (permIn f.pa perm) x n (if isElement f.u then f.x.scratch else 0)
   Issues .ldc .ldc (fun f => f.access f.pa f.ta [0, 3, 4] (permIn f.pa 0x001) (f.at_ f.pa) 64 false ∧ f.at_ f.pa % 64 = 0)
     (fun f => (capSpace f.pa, f.at_ f.pa, .load 64 false)) ∧
   Faults .ldc .ldc (fun f => f.access f.pa f.ta [1] 0x001 (f.at_ f.pa) 64 false ∧ f.at_ f.pa % 64 = 0) (fun _ => (4, 7, 0, 0)) ∧
   Faults .ldc .ldc (fun f => f.access f.pa f.ta [0, 1, 3, 4] (permIn f.pa 0x001) (f.at_ f.pa) 64 false ∧ f.at_ f.pa % 64 ≠ 0)
     (fun f => (2, 10, 0, capCursor f.pa)) ∧
   Faults .lds .lds (fun f => f.access f.pa f.ta [2] 0x001 (f.at_ f.pa) 8 false ∧ f.at_ f.pa % 8 ≠ 0)
     (fun f => (2, 10, 0, capCursor f.pa)) ∧
   Faults .acq .acq (fun f => f.access f.pa f.ta [0] 0x021 (capCursor f.pa) 8 false ∧ capCursor f.pa % 8 ≠ 0)
     (fun f => (2, 10, 0, capCursor f.pa)) ∧
   (∀ k, k ≠ 99 →
     Faults .ldc .ldc (fun f => code f 0x1B 0x001 (f.at_ f.pa) 64 = k) (fun f => (2, k, 0, capCursor f.pa)) ∧
     Faults .lds .lds (fun f => code f 0x04 0x001 (f.at_ f.pa) 8 = k) (fun f => (2, k, 0, capCursor f.pa)) ∧
     Faults .acq .acq (fun f => code f 0x01 0x021 (capCursor f.pa) 8 = k) (fun f => (2, k, 0, capCursor f.pa))) ∧
   (∀ (before after : List (Nat × Nat)) (lane : Nat × Nat),
     let first (f : Firing) : Prop := checkTyped .i32 f.B.bits = 99 ∧ wholeBytes f.r.ty ∧
       indexLanes f.r.ty (capCursor f.pa) f.B.bits = before ++ lane :: after ∧ ∀ x ∈ before,
         f.access f.pa f.ta [0, 1, 3, 4] 0x001 x.2 (f.r.ty.width / 8) false ∧ x.2 % (f.r.ty.width / 8) = 0
     Faults .ldx .ldx (fun f => first f ∧ f.access f.pa f.ta [0, 1, 3, 4] 0x001 lane.2 (f.r.ty.width / 8) false ∧
       lane.2 % (f.r.ty.width / 8) ≠ 0) (fun f => (2, 10, 0, capCursor f.pa)) ∧
     ∀ k, k ≠ 99 → Faults .ldx .ldx (fun f => first f ∧ capAccess f.pa f.ta 0x1B 0x001 lane.2 (f.r.ty.width / 8)
       (if isElement f.u then f.x.scratch else 0) = k) (fun f => (2, k, 0, capCursor f.pa))) ∧
   Issues .lds .lds (fun f => f.access f.pa f.ta [2] 0x001 (f.at_ f.pa) 8 false ∧ f.at_ f.pa % 8 = 0)
     (fun f => (2, f.at_ f.pa, .load 8 false)) ∧
   Issues .acq .acq (fun f => f.access f.pa f.ta [0] 0x021 (capCursor f.pa) 8 false ∧ capCursor f.pa % 8 = 0)
     (fun f => (0, capCursor f.pa, .acquire f.B.word)) ∧
   Issues .ldx .ldx (fun f => checkTyped .i32 f.B.bits = 99 ∧ wholeBytes f.r.ty ∧
       ∀ x ∈ indexLanes f.r.ty (capCursor f.pa) f.B.bits,
         f.access f.pa f.ta [0, 1, 3, 4] 0x001 x.2 (f.r.ty.width / 8) false ∧ x.2 % (f.r.ty.width / 8) = 0)
     (fun f => (capSpace f.pa, capCursor f.pa, .gather f.r.ty f.B.bits)) ∧
   (∀ k, k ≠ 99 → Faults .ldx .ldx (fun f => checkTyped .i32 f.B.bits = k) (fun _ => (4, k, 0, 0)))) ∧
  (let stOk (f : Firing) (need : Nat) : Prop :=
     f.access f.pb f.tb (dataSpaces f.r) (permIn f.pb (0x002 ||| need)) (f.at_ f.pb) (bytesOf f.r) true
   Notes .st .st (fun f => f.r.sh = .scalar ∧ wholeBytes f.r.ty ∧ stOk f 0 ∧ f.at_ f.pb % bytesOf f.r = 0)
     (fun f => f.stores f.pb (f.at_ f.pb) (.scalar f.r.ty f.A.word)) ∧
   Notes .st .st (fun f => f.r.sh = .course ∧ bit f.r.ax 3 = false ∧ stOk f 0 ∧ f.at_ f.pb % 64 = 0)
     (fun f => f.stores f.pb (f.at_ f.pb) (.course f.A.bits)) ∧
   Notes .st .st (fun f => f.r.sh = .course ∧ bit f.r.ax 3 = true ∧ checkTyped f.r.ty f.A.bits = 99 ∧ stOk f 0 ∧ f.at_ f.pb % 64 = 0)
     (fun f => f.stores f.pb (f.at_ f.pb) (.masked f.r.ty (slice f.K.bits 0 80) (effective f.A.bits))) ∧
   (∀ k, k ≠ 99 → Faults .st .st (fun f => f.r.sh = .course ∧ bit f.r.ax 3 = true ∧ checkTyped f.r.ty f.A.bits = k)
     (fun _ => (4, k, 0, 0))) ∧
   Notes .st .st (fun f => f.r.sh = .pair ∧ f.ta = false ∧ stOk f 0 ∧ f.at_ f.pb % 16 = 0)
     (fun f => f.stores f.pb (f.at_ f.pb) (.pair f.pa false)) ∧
   Notes .st .st (fun f => f.r.sh = .pair ∧ f.ta = true ∧ stOk f 0x008 ∧ f.at_ f.pb % 16 = 0)
     (fun f => f.stores f.pb (f.at_ f.pb) (.pair f.pa (capSpace f.pb = 1 || capHasPerm f.pa 0x200))) ∧
   let fine (f : Firing) : Prop := (f.r.sh = .course → bit f.r.ax 3 = true → checkTyped f.r.ty f.A.bits = 99) ∧
     (f.r.sh = .scalar → wholeBytes f.r.ty)
   let need (f : Firing) : Nat := if f.r.sh = .pair ∧ f.ta = true then 0x008 else 0
   let element (f : Firing) : Prop := f.r.sh = .scalar ∧ ∃ i < f.r.ty.count, f.at_ f.pb % 64 = 2 + i * (f.r.ty.width / 8)
   Faults .st .st (fun f => fine f ∧ stOk f (need f) ∧ f.at_ f.pb % bytesOf f.r ≠ 0 ∧ ¬element f)
     (fun f => (2, 10, 0, capCursor f.pb)) ∧
   Faults .st .st (fun f => fine f ∧ stOk f 0 ∧ f.at_ f.pb % bytesOf f.r ≠ 0 ∧ element f ∧ capSpace f.pb = 1) (fun _ => (4, 25, 0, 0)) ∧
   Notes .st .st (fun f => fine f ∧ stOk f 0 ∧ f.at_ f.pb % bytesOf f.r ≠ 0 ∧ element f ∧ capSpace f.pb ≠ 1)
     (fun f => f.stores f.pb (f.at_ f.pb) (.scalar f.r.ty f.A.word)) ∧
   Faults .st .st (fun f => fine f ∧ f.access f.pb f.tb [1] (0x002 ||| need f) (f.at_ f.pb) (bytesOf f.r) false ∧
     f.x.inQueue (f.at_ f.pb) (bytesOf f.r) = true) (fun f => (2, 8, 0, capCursor f.pb)) ∧
   Faults .st .st (fun f => f.r.sh = .scalar ∧ f.tb = false) (fun f => (2, 1, 0, capCursor f.pb)) ∧
   Notes .sts .sts (fun f => f.access f.pb f.tb [2] 0x002 (f.at_ f.pb) 8 true ∧ f.at_ f.pb % 8 = 0)
     (fun f => f.stores f.pb (f.at_ f.pb) (.scalar .n64 f.A.word)) ∧
   (∀ es : List Course, es ≠ [] → (∀ c ∈ es, checkTyped .f32 c = 99 ∧ crsL c = crsL (es.headD 0)) →
     let nums (t : Ty) : List FNum := (List.range t.count).map fun e => (laneNum .f32 (es.getD (e / 15) 0) (e % 15)).1
     let tail : BitVec 16 := tailOf (crsL (es.headD 0)) (crsK (es.headD 0)) false
     Completes .stc .stc (fun f => f.access f.pb f.tb [0, 3, 4] 0x002 (f.at_ f.pb) 64 true ∧ f.at_ f.pb % 64 = 0 ∧
         ringTile f.x f.found f.j (slice f.r.ax 0 4).toNat (slice f.r.ax 8 5).toNat ((f.r.ty.count + 14) / 15) = some es)
       (fun f => f.stores f.pb (f.at_ f.pb) (.narrow (floatCourse f.r.ty tail (nums f.r.ty)).1))
       (fun f => (floatCourse f.r.ty tail (nums f.r.ty)).2) (fun _ => none) (fun _ => none)) ∧
   Notes .stx .stx (fun f => checkTyped f.r.ty f.A.bits = 99 ∧ checkTyped .i32 f.K.bits = 99 ∧ wholeBytes f.r.ty ∧
       ∀ x ∈ indexLanes f.r.ty (capCursor f.pb) f.K.bits,
         f.access f.pb f.tb [0, 1, 3, 4] 0x002 x.2 (f.r.ty.width / 8) true ∧ x.2 % (f.r.ty.width / 8) = 0)
     (fun f => { f.found with stores := f.found.stores ++ (indexLanes f.r.ty (capCursor f.pb) f.K.bits).map fun x =>
       ⟨f.j, capSpace f.pb, x.2, .scalar f.r.ty (BitVec.ofNat 64 (laneRaw f.r.ty.width f.A.bits x.1))⟩ }))

/-- LDQ and STQ leave a stream of courses for the commit, at the addresses of their descriptor in loop order, and move their ring's
cursor by its count; a descriptor out of its limits faults with format code 24. PREF has no visible effect; FENCE and REL leave
their order and their release for the commit. Where the spec is silent
or can be read two ways it follows the model's choices of log 76 and 77. -/
def Obligations.StreamsAndOrder : Prop :=
  let counts (f : Firing) : List Nat := (streamDesc f.K.bits).1.map Int.toNat
  let addrs (f : Firing) (p : Pair) : List Nat := (streamOffs (counts f) (streamDesc f.K.bits).2).map fun o => (((capCursor p : Int) + o) % 2 ^ 72).toNat
  let sound (f : Firing) : Prop := checkTyped .i32 f.K.bits = 99 ∧ (∀ n ∈ (streamDesc f.K.bits).1, 1 ≤ n) ∧
    (streamDesc f.K.bits).1.foldl (· * ·) 1 ≤ 32 ∧ ∀ d ∈ (streamDesc f.K.bits).2, d % 64 = 0
  (∀ n, Notes .ldq .ldq (fun f => sound f ∧ (∀ x ∈ addrs f f.pa, f.access f.pa f.ta [0, 3, 4] 0x001 x 64 false ∧ x % 64 = 0) ∧
      ringSpot f.x f.found f.j (f.lit 0 4) 0 (streamCount (counts f)) = .at_ n)
    (fun f => ({ f.found with moves := f.found.moves ++ [⟨f.j, f.lit 0 4, false, streamCount (counts f)⟩] } : Act).effect f.j
      (.genLoad f.r.ty (f.lit 0 4) n (capSpace f.pa) (addrs f f.pa) (counts f)))) ∧
  (∀ n, Notes .stq .stq (fun f => sound f ∧ (∀ x ∈ addrs f f.pb, f.access f.pb f.tb [0, 3, 4] 0x002 x 64 true ∧ x % 64 = 0) ∧
      ringAdvance f.x f.found f.j (f.lit 0 4) (streamCount (counts f)) = .at_ n)
    (fun f => ({ f.found with moves := f.found.moves ++ [⟨f.j, f.lit 0 4, true, streamCount (counts f)⟩] } : Act).effect f.j
      (.genStore f.r.ty (f.lit 0 4) (n - streamCount (counts f)) (capSpace f.pb) (addrs f f.pb) (counts f)))) ∧
  (∀ x ∈ [(Instr.ldq, Op.ldq), (.stq, .stq)],
    Faults x.1 x.2 (fun f => checkTyped .i32 f.K.bits = 99 ∧ ¬sound f) (fun _ => (4, 24, 0, 0))) ∧
  Notes .pref .pref always Firing.found ∧
  Completes .fence .fence always (fun f => f.found.effect f.j (.fence (slice f.r.ax 0 3).toNat)) (fun _ => 0)
    (fun f => some (Val.ofWord f.A.word)) (fun f => some (Val.ofWord f.A.word)) ∧
  Leaves .rel .rel (fun f => f.access f.pa f.ta [0] 0x021 (capCursor f.pa) 8 false ∧ capCursor f.pa % 8 = 0)
    (fun f => .release (slice f.r.ax 0 3).toNat (capCursor f.pa))

namespace Sys2Proof.Claims
open Sys2Proof.Machine

/-- An atomic at fire: with an output port as destination the port counts as written, and the commit performs it (17 R311). -/
def AtomicLeaves (i : Rec → Instr) (o : Op) (fn : Firing → Nat) (e : Firing → Word) : Prop :=
  let ok (f : Firing) : Prop := wholeBytes f.r.ty ∧
    f.access f.pa f.ta [0, 1, 3] 0x023 (f.at_ f.pa) (f.r.ty.width / 8) true ∧ f.at_ f.pa % (f.r.ty.width / 8) = 0
  Notes i o (fun f => ok f ∧ f.r.d0 = .none)
    (fun f => f.found.effect f.j (.atomic none (fn f) f.r.ty (capSpace f.pa) (f.at_ f.pa) f.B.word (e f) none)) ∧
  (∀ k : Fin 16, Notes i o (fun f => ok f ∧ f.r.d0 = .out k)
    (fun f => ({ f.found with outs := f.found.outs ++ [⟨f.j, k.val, none, none, none⟩] } : Act).effect f.j
      (.atomic (some k.val) (fn f) f.r.ty (capSpace f.pa) (f.at_ f.pa) f.B.word (e f) none))) ∧
  Faults i o (fun f => f.ta = false) (fun f => (2, 1, 0, capCursor f.pa))

/-- The node of LIT[5:0] in the bay of the unit. -/
def Firing.node (f : Firing) : Node := f.x.node (unitBay f.u) (f.lit 0 6)

/-- The place that MROW and MACC name lies in the node's shape (13 R271). -/
def Firing.inNode (f : Firing) : Prop := f.lit 6 9 < f.node.rows ∧ f.lit 15 10 < f.node.cols

/-- A form that delivers A and leaves an effect for the commit. -/
def PassesAndLeaves (i : Rec → Instr) (o : Op) (e : Firing → Effect) : Prop :=
  Completes i o always (fun f => f.found.effect f.j (e f)) (fun _ => 0) (fun f => some f.A) (fun f => some f.A)

/-- A form that delivers A to D0 alone and leaves an effect for the commit. -/
def GivesAAndLeaves (i : Rec → Instr) (o : Op) (e : Firing → Effect) : Prop :=
  Completes i o always (fun f => f.found.effect f.j (e f)) (fun _ => 0) (fun f => some f.A) (fun _ => none)

/-- A count or a status to D0, with an effect. -/
def TellsAndLeaves (i : Rec → Instr) (o : Op) (P : Firing → Prop) (n : Firing → Nat) (e : Firing → Effect) : Prop :=
  Completes i o P (fun f => f.found.effect f.j (e f)) (fun _ => 0) (fun f => say (n f)) (fun _ => none)

/-- A count or a status to D0, and nothing else. -/
def Tells (i : Rec → Instr) (o : Op) (P : Firing → Prop) (n : Firing → Nat) : Prop :=
  Completes i o P Firing.found (fun _ => 0) (fun f => say (n f)) (fun _ => none)

/-- An engine form whose ranges pass leaves its operation for the commit (17 R320). -/
def StartsEngine (i : Rec → Instr) (o : Op) (P : Firing → Prop) (k : Firing → EngineKind) (from_ to_ : List Nat)
    (n m : Firing → Nat) (al bl : Nat) : Prop :=
  Leaves i o
    (fun f => P f ∧ f.access f.pa f.ta from_ 0x001 (capCursor f.pa) (n f) false ∧ capCursor f.pa % al = 0 ∧
      f.access f.pb f.tb to_ 0x002 (capCursor f.pb) (m f) true ∧ capCursor f.pb % bl = 0 ∧
      (capSpace f.pa = 4 → capCursor f.pa + n f ≤ 2 ^ 56) ∧ (capSpace f.pb = 4 → capCursor f.pb + m f ≤ 2 ^ 56))
    (fun f => .engine (k f) f.pa f.pb (f.lit 0 6) (f.lit 6 7) (bit f.r.lit 13))

/-- A lane of a COLL descriptor. -/
def Firing.coll (f : Firing) (i : Nat) : Nat := ((laneInts .i32 f.K.bits).getD i 0).toNat

/-- A COLL form starts its collective where its descriptor passes (17 R323). -/
def Collects (i : Rec → Instr) (o : Op) (op : Nat) (n m : Firing → Nat) : Prop :=
  StartsEngine i o (fun f => checkTyped .i32 f.K.bits = 99 ∧ collCode f.s op (laneInts .i32 f.K.bits) = 99)
    (fun f => .coll op (f.coll 0) (f.coll 1) (f.coll 2) (f.coll 3) (f.coll 4) (f.coll 5) ((laneInts .i32 f.K.bits).getD 6 0) (f.coll 7))
    [0] [0] n m 4 4 ∧
  Faults i o (fun f => checkTyped .i32 f.K.bits = 99 ∧ collCode f.s op (laneInts .i32 f.K.bits) ≠ 99) (fun _ => (4, 23, 0, 0))

/-- The bits of mask B that the copy tags of the bay have set (17 R319). -/
def Firing.doneTags (f : Firing) : Word := (f.x.copyTags (unitBay f.u)).bitmap &&& f.B.word

/-- The barrier of LIT[6:0] in the bay of the unit. -/
def Firing.bar (f : Firing) : Barrier := f.x.barrier (unitBay f.u) (f.lit 0 7)

end Sys2Proof.Claims

/-! ### Groups 0xB to 0xF -/

/-- AOP, ACAS and AFADD leave their atomic for the commit, with its output port counted as written; ARED likewise with its course, which space 1 refuses as untyped;
CMB writes an output port, and CMBI a frame, with the combination that its receiver is to make. -/
def Obligations.AtomicForms : Prop :=
  AtomicLeaves .aop .aop (fun f => f.r.fn.toNat) (fun _ => 0) ∧
  AtomicLeaves .acas .acas (fun _ => 7) (fun f => f.K.word) ∧
  AtomicLeaves .afadd .afadd (fun _ => 8) (fun _ => 0) ∧
  Leaves .ared .ared (fun f => checkTyped f.r.ty f.A.bits = 99 ∧
      f.access f.pb f.tb [0, 3] 0x023 (f.at_ f.pb) 64 true ∧ f.at_ f.pb % 64 = 0)
    (fun f => .atomic none f.r.fn.toNat f.r.ty (capSpace f.pb) (f.at_ f.pb) 0 0 (some f.A.bits)) ∧
  Faults .ared .ared (fun f => checkTyped f.r.ty f.A.bits = 99 ∧ f.access f.pb f.tb [1] 0x023 (f.at_ f.pb) 64 true ∧
    f.at_ f.pb % 64 = 0) (fun _ => (4, 7, 0, 0)) ∧
  Notes .cmb .cmb (fun f => f.r.sh = .course → checkTyped f.r.ty f.A.bits = 99)
    (fun f => { f.found with outs := f.found.outs ++
      [⟨f.j, f.lit 0 4, some (shaped f.r.sh f.A), none, some ⟨f.r.fn.toNat, f.r.ty, f.r.sh, f.lit 4 12 + 1⟩⟩] }) ∧
  Leaves .cmbi .cmbi (fun f => f.r.sh = .course → checkTyped f.r.ty f.A.bits = 99)
    (fun f => .fsts (f.lit 0 12) (f.lit 12 5) (BitVec.ofNat 2 f.a.ctx ++ slice f.B.word 0 34) (shaped f.r.sh f.A)
      (some ⟨f.r.fn.toNat, f.r.ty, f.r.sh, (slice f.r.ax 0 12).toNat + 1⟩)) ∧
  (∀ (t : Ty) (old b e : Nat), t.isInt = true → old < 2 ^ t.width → b < 2 ^ t.width →
    let w (x : Nat) : BitVec t.width := BitVec.ofNat t.width x
    let n (x : Nat) : Int := number t (BitVec.ofNat 64 x)
    atomicStep 0 t old b e = ((w old + w b).toNat, 0) ∧
    atomicStep 1 t old b e = (if n old ≤ n b then old else b, 0) ∧ atomicStep 2 t old b e = (if n old ≤ n b then b else old, 0) ∧
    atomicStep 3 t old b e = ((w old &&& w b).toNat, 0) ∧ atomicStep 4 t old b e = ((w old ||| w b).toNat, 0) ∧
    atomicStep 5 t old b e = ((w old ^^^ w b).toNat, 0) ∧ atomicStep 6 t old b e = (b, 0) ∧
    atomicStep 7 t old b e = (if old = e then b else old, 0))

/-- MLDB binds weights and MTASK leaves its record for the commit, each through its capability; MROW delivers fifteen lanes of a node
row; MACC, MEOR, MSPL, MRST, MZRO, MPLN and MCUT leave their change for the commit; MQRY delivers a node's state word. A place
outside a node's shape, and a descriptor that breaks its rules, fault with their codes. -/
def Obligations.MatrixForms : Prop :=
  let k (f : Firing) : Nat := f.lit 4 8 + 1
  let bind (f : Firing) : Binding := ⟨f.x.stream, unitBay f.u, f.pa, f.B.word.toNat, k f, f.lit 12 10 + 1, f.r.ty, f.r.fn = 1, 0⟩
  let lines (f : Firing) : Prop := capCursor f.pa % 64 = 0 ∧ f.B.word.toNat % 64 = 0
  let desc (f : Firing) : TaskDesc := readDesc f.K.bits
  let area (f : Firing) (perm more : Nat) (store : Bool) : Prop :=
    f.access f.pa f.ta [0, 1] perm (capCursor f.pa) (f.node.size + more) store ∧ capCursor f.pa % 64 = 0
  Leaves .mldb .mldb
    (fun f => f.access f.pa f.ta [1] 0x001 (capCursor f.pa) (k f * f.B.word.toNat) false ∧ lines f)
    (fun f => .mldb (f.lit 0 4) (bind f)) ∧
  Issues .mldb .mldb
    (fun f => f.access f.pa f.ta [0] 0x001 (capCursor f.pa) (k f * f.B.word.toNat) false ∧ lines f)
    (fun f => (0, capCursor f.pa, .load (k f * f.B.word.toNat) false)) ∧
  Leaves .mtask .mtask
    (fun f => checkTyped .i32 f.K.bits = 99 ∧ descBad f.K.bits = false ∧
      f.access f.pa f.ta [0, 1] 0x001 (capCursor f.pa)
        (((desc f).m - 1) * (desc f).stride + rowCourses (desc f).afmt (desc f).k * 64) false ∧ capCursor f.pa % 64 = 0)
    (fun f => .mtask f.pa true (desc f)) ∧
  Faults .mtask .mtask (fun f => checkTyped .i32 f.K.bits = 99 ∧ descBad f.K.bits = true) (fun _ => (4, 11, 0, 0)) ∧
  Delivers .mrow .mrow Firing.inNode (fun f => Val.ofCourse (mkCourse 0x0A 127 (f.node.tail (f.lit 6 9)) 32
    ((List.range 15).map fun i => if f.lit 15 10 + i < f.node.cols then (f.node.lane (f.lit 6 9) (f.lit 15 10 + i)).toNat else 0))) ∧
  Faults .mrow .mrow (fun f => ¬f.inNode) (fun _ => (4, 12, 0, 0)) ∧
  Leaves .macc .macc (fun f => checkTyped .f32 f.A.bits = 99 ∧ f.inNode)
    (fun f => .macc (f.lit 0 6) (f.lit 6 9) (f.lit 15 10) f.A.bits) ∧
  Faults .macc .macc (fun f => checkTyped .f32 f.A.bits = 99 ∧ ¬f.inNode) (fun _ => (4, 12, 0, 0)) ∧
  Leaves .meor .meor (fun f => 1 ≤ f.B.word.toNat ∧ f.B.word.toNat ≤ 65535 ∧ area f 0x002 0 true)
    (fun f => .meor (f.lit 0 6) (f.lit 6 7) f.B.word.toNat f.pa) ∧
  Faults .meor .meor (fun f => f.B.word.toNat = 0 ∨ 65535 < f.B.word.toNat) (fun _ => (4, 12, 0, 0)) ∧
  Leaves .mspl .mspl (fun f => area f 0x002 64 true) (fun f => .mspl (f.lit 0 6) (f.lit 6 7) f.pa) ∧
  Leaves .mrst .mrst (fun f => area f 0x001 64 false) (fun f => .mrst (f.lit 0 6) f.pa none) ∧
  GivesAAndLeaves .mzro .mzro (fun f => .mzro (f.lit 0 6) (f.lit 6 9 + 1) (f.lit 15 10 + 1) (bit f.r.lit 25)) ∧
  GivesAAndLeaves .mpln .mpln (fun f => .mpln (f.lit 0 4)) ∧
  GivesAAndLeaves .mcut .mcut (fun f => .mcut (f.lit 0 8) (bit f.r.lit 8)) ∧
  Delivers .mqry .mqry always (fun f => scalarOf (f.node.got % 65536 +
    2 ^ 16 * min 255 (f.x.nodeTasks (unitBay f.u) (f.lit 0 6)).length + 2 ^ 24 * f.node.releases.length +
    2 ^ 27 * (if f.node.rows = 0 then 0 else 1) + 2 ^ 28 * (if f.node.pair then 1 else 0)))

/-- CPY, CPYQ, CXPT and the COLL forms leave their operation for the commit where both ranges pass, and fault with format codes 24 and 23
on a length or a descriptor out of limits, CPYQ on space 1, which is untyped, with 7; the copy-tag waits deliver the tags done or wait; TCLR, BARI and BARV leave their
change for the commit; BARQ reads a barrier, and BARW completes once the phase is not B[0] and registers until then. Where the spec is silent
or can be read two ways it follows the model's choices of log 30, 31 and 89. -/
def Obligations.EnginesTagsAndBarriers : Prop :=
  let n (f : Firing) : Nat := f.K.word.toNat
  StartsEngine .cpy .cpy (fun f => 1 ≤ n f ∧ n f ≤ 2 ^ 30) (fun f => .cpy (n f)) [0, 1, 3, 4] [0, 1, 3, 4] n n 1 1 ∧
  Faults .cpy .cpy (fun f => n f = 0 ∨ 2 ^ 30 < n f) (fun _ => (4, 24, 0, 0)) ∧
  StartsEngine .cpyq .cpyq (fun f => n f % 64 = 0) (fun f => .cpyq (f.r.fn = 1) (n f)) [0] [0] (fun f => 59 * n f + 64)
    (fun _ => 3840) 64 64 ∧
  Faults .cpyq .cpyq (fun f => n f % 64 = 0 ∧ (capSpace f.pa = 1 ∨ capSpace f.pb = 1) ∧
    f.access f.pa f.ta [0, 1] 0x001 (capCursor f.pa) (59 * n f + 64) false ∧ capCursor f.pa % 64 = 0 ∧
    f.access f.pb f.tb [0, 1] 0x002 (capCursor f.pb) 3840 true ∧ capCursor f.pb % 64 = 0) (fun _ => (4, 7, 0, 0)) ∧
  Faults .cpyq .cpyq (fun f => n f % 64 ≠ 0) (fun _ => (4, 24, 0, 0)) ∧
  StartsEngine .cxpt .cxpt (fun f => 1 ≤ n f ∧ n f ≤ 262144) (fun f => .cxpt (n f)) [0] [0, 1] (fun f => 4096 * n f)
    (fun f => 8 * n f) 4096 8 ∧
  Faults .cxpt .cxpt (fun f => n f = 0 ∨ 262144 < n f) (fun _ => (4, 24, 0, 0)) ∧
  Collects .collGather .collGather 0 (fun f => 4 * f.coll 2) (fun f => 4 * f.coll 0 * f.coll 2) ∧
  Collects .collRsum .collRsum 1 (fun f => 4 * f.coll 0 * f.coll 2) (fun f => 4 * f.coll 2) ∧
  Collects .collAsum .collAsum 2 (fun f => 4 * f.coll 2) (fun f => 4 * f.coll 2) ∧
  Collects .collBcast .collBcast 3 (fun f => 4 * f.coll 2) (fun f => 4 * f.coll 2) ∧
  Delivers .twall .twall (fun f => f.doneTags = f.B.word) (fun f => Val.ofWord f.B.word) ∧
  Pends .twall .twall (fun f => f.doneTags ≠ f.B.word) ∧
  Delivers .twany .twany (fun f => f.doneTags ≠ 0 ∨ f.B.word = 0) (fun f => Val.ofWord f.doneTags) ∧
  Pends .twany .twany (fun f => f.doneTags = 0 ∧ f.B.word ≠ 0) ∧
  (∀ i < 64, Delivers .tffr .tffr (fun f => bit f.doneTags i = true ∧ ∀ k < i, bit f.doneTags k = false) (fun _ => scalarOf i)) ∧
  Delivers .tffr .tffr (fun f => f.doneTags = 0) (fun _ => scalarOf 64) ∧
  Leaves .tclr .tclr always (fun f => .tclr f.B.word) ∧
  Leaves .bari .bari always (fun f => .bari (f.lit 0 7) (slice f.A.word 0 16).toNat (slice f.B.word 0 40).toNat) ∧
  Leaves .barv .barv (fun f => f.lit 7 9 < 448) (fun f => .barv (f.lit 7 9) (f.lit 0 7) (slice f.B.word 0 40).toNat) ∧
  Leaves .barv .barv (fun f => f.lit 7 9 = 0x1FF) (fun f => .barv (unitBay f.u) (f.lit 0 7) (slice f.B.word 0 40).toNat) ∧
  Delivers .barq .barq always (fun f => Val.ofWord (0#15 ++ BitVec.ofBool f.bar.phase ++
    BitVec.ofNat 16 (min 0xFFFF f.bar.arr) ++ BitVec.ofNat 32 (min (2 ^ 32 - 1) f.bar.bytes))) ∧
  Delivers .barw .barw (fun f => f.bar.phase ≠ bit f.B.bits 0) (fun f => scalarOf (if f.bar.phase then 1 else 0)) ∧
  (∀ f : Firing, f.opens .barw → f.bar.phase = bit f.B.bits 0 → (f.u, f.j) ∉ f.bar.waiters →
    exec (.barw f.r) f.s = .next ((f.s.modCtx f.found.ctx fun _ =>
      f.x.putBarrier { f.bar with waiters := f.bar.waiters ++ [(f.u, f.j)] }).putAct f.u (f.found.setSt f.j .waiting))) ∧
  Pends .barw .barw (fun f => f.bar.phase = bit f.B.bits 0 ∧ (f.u, f.j) ∈ f.bar.waiters) ∧
  -- a contribution: counts past what is expected flip the phase, and what is left over stays
  (∀ (b : Barrier) (na nb : Nat), 0 < b.expArr.toNat → b.expBytes = 0 → b.arr + na ≤ 0xFFFF → b.bytes + nb < 2 ^ 40 →
    let c := b.contribute na nb
    let flips := (b.arr + na) / b.expArr.toNat
    c.arr = (b.arr + na) % b.expArr.toNat ∧ c.bytes = b.bytes + nb ∧ c.phase = (b.phase ^^ decide (flips % 2 = 1)) ∧
    (c.waiters = if flips = 0 then b.waiters else []))

/-- XSECT passes two fibres to their first common coordinate or common stop and delivers it with both values, no two entries passed before having one coordinate; FIBRD, PXLT, KVAPP and
KVLEN issue their requests; FIBWR stores a block of tokens; STOPN gives the level of a stop; SPACC adds to a sparse accumulator
and SPFL emits it in coordinate order with a stop; SMXM and SMXF merge and finish softmax triples. Where the spec is silent
or can be read two ways it follows the model's choices of log 32 and 82. -/
def Obligations.SparseAndSequenceForms : Prop :=
  let q (f : Firing) : Nat := (slice f.r.ax 0 4).toNat
  let spa (f : Firing) : Spa := spaSeen f.s f.found ⟨f.u, f.j, f.a.ctx, f.r, f.A, f.B⟩ (f.lit 0 2)
  let toks (f : Firing) : List Val := ((spa f).vals.map fun x => fibreTok x.1 (spaOut f.r.ty x.2).1) ++
    [fibreTok (0xFFFFFFF0 + f.lit 2 3) 0]
  let entry (f : Firing) : Nat := (((capCursor f.pb : Int) + 8 * (f.A.word.toInt / 2 ^ f.lit 0 4)) % 2 ^ 72).toNat
  (∀ p n m, Completes .xsect .xsect
    (fun f => xsectLoop 8194 f.x f.found f.j (f.lit 0 4) (f.lit 4 4) 0 0 none none = .out p n m)
    (fun f => { f.found with moves := f.found.moves ++ [⟨f.j, f.lit 0 4, true, n⟩, ⟨f.j, f.lit 4 4, true, m⟩] })
    (fun _ => 0) (fun _ => some (pairOfNat p)) (fun _ => some (pairOfNat p))) ∧
  (∀ (x : Ctx) (a : Act) (j qx qy p n m : Nat), xsectLoop 8194 x a j qx qy 0 0 none none = .out p n m →
    1 ≤ n ∧ 1 ≤ m ∧ ∃ u w, ringRead x a j qx (n - 1) = .val u ∧ ringRead x a j qy (m - 1) = .val w ∧
      fibreCoord u = fibreCoord w ∧ p % 2 ^ 32 = fibreCoord u ∧
      (isStop (fibreCoord u) = false → p = fibreCoord u + 2 ^ 32 * fibreLane u + 2 ^ 64 * fibreLane w) ∧
      ∀ g h, x.ring? qx = some g → x.ring? qy = some h → g.kind = .fibre → h.kind = .fibre →
        ∀ i k, i < n → k < m → (i + 1, k + 1) ≠ (n, m) → ∀ u w, ringRead x a j qx i = .val u → ringRead x a j qy k = .val w →
          fibreCoord u ≠ fibreCoord w) ∧
  Issues .fibrd .fibrd (fun f => f.access f.pa f.ta [0, 1, 3, 4] 0x001 (f.at_ f.pa) 128 false ∧ f.at_ f.pa % 64 = 0)
    (fun f => (capSpace f.pa, f.at_ f.pa, .load 128 false)) ∧
  (∀ l, Completes .fibwr .fibwr
    (fun f => f.access f.pb f.tb [0, 1, 3, 4] 0x002 (f.at_ f.pb) 128 true ∧ f.at_ f.pb % 64 = 0 ∧
      fibreTake 15 f.x f.found f.j (q f) 0 = .ok l)
    (fun f => { f.found with
      stores := f.found.stores ++ [⟨f.j, capSpace f.pb, f.at_ f.pb, .course (fibreBlock l).1⟩,
        ⟨f.j, capSpace f.pb, (f.at_ f.pb + 64) % 2 ^ 72, .course (fibreBlock l).2⟩]
      moves := f.found.moves ++ [⟨f.j, q f, true, l.length⟩] })
    (fun _ => 0) (fun _ => say l.length) (fun _ => none)) ∧
  Delivers .stopn .stopn always (fun f =>
    let c := (slice f.A.word 0 32).toNat
    scalarOf (if c < 0xFFFFFFF0 then 0 else if c ≤ 0xFFFFFFF7 then c - 0xFFFFFFF0 + 1 else 9)) ∧
  Completes .spacc .spacc (fun f => f.r.ty = .f32 ∧ (slice f.A.word 0 32).toNat < 4096)
    (fun f => f.found.effect f.j (.spacc (f.lit 0 2) (slice f.A.word 0 32).toNat (slice f.B.word 0 32)))
    (fun f => (spaLane (spa f).vals (slice f.A.word 0 32).toNat (slice f.B.word 0 32)).2) (fun _ => none) (fun _ => none) ∧
  Completes .spacc .spacc (fun f => (f.r.ty = .f16 ∨ f.r.ty = .b16) ∧ (slice f.A.word 0 32).toNat < 4096)
    (fun f => f.found.effect f.j (.spacc (f.lit 0 2) (slice f.A.word 0 32).toNat (toF32 f.r.ty f.B.word).1))
    (fun f => (toF32 f.r.ty f.B.word).2 ||| (spaLane (spa f).vals (slice f.A.word 0 32).toNat (toF32 f.r.ty f.B.word).1).2)
    (fun _ => none) (fun _ => none) ∧
  Faults .spacc .spacc (fun f => 4096 ≤ (slice f.A.word 0 32).toNat) (fun _ => (4, 18, 0, 0)) ∧
  (∀ g n, Completes .spfl .spfl
    (fun f => f.x.ring? (q f) = some g ∧ (toks f).length ≤ g.depth ∧ ringSpot f.x f.found f.j (q f) 0 (toks f).length = .at_ n)
    (fun f => ({ f.found with
      rwrites := f.found.rwrites ++ (toks f).zipIdx.map fun y => ⟨f.j, q f, n + y.2, y.1⟩
      moves := f.found.moves ++ [⟨f.j, q f, false, (toks f).length⟩] } : Act).effect f.j (.spfl (f.lit 0 2)))
    (fun f => orAll ((spa f).vals.map fun x => (spaOut f.r.ty x.2).2)) (fun f => say (toks f).length) (fun _ => none)) ∧
  Issues .pxlt .pxlt (fun f => 0 ≤ f.A.word.toInt ∧ f.access f.pb f.tb [0, 1] 0x001 (entry f) 8 false ∧ entry f % 8 = 0)
    (fun f => (capSpace f.pb, entry f, .load 8 false)) ∧
  Faults .pxlt .pxlt (fun f => f.A.word.toInt < 0) (fun f => (2, 8, 0, capCursor f.pb)) ∧
  Issues .kvapp .kvapp
    (fun f => 0 ≤ f.B.word.toInt ∧ checkTyped .f32 f.K.bits = 99 ∧
      f.access f.pa f.ta [0] 0x023 (capCursor f.pa) (64 * (f.lit 0 4 + 1)) true ∧ capCursor f.pa % 64 = 0)
    (fun f => (0, capCursor f.pa, .load (64 * (f.lit 0 4 + 1)) false)) ∧
  Issues .kvlen .kvlen
    (fun f => -1 ≤ f.B.word.toInt ∧ f.access f.pa f.ta [0] 0x023 (capCursor f.pa) 16 true ∧ capCursor f.pa % 64 = 0)
    (fun f => (0, capCursor f.pa, .load 16 false)) ∧
  (∀ x ∈ [(Instr.kvapp, Op.kvapp)], Faults x.1 x.2 (fun f => f.B.word.toInt < 0) (fun _ => (4, 20, 0, 0))) ∧
  Faults .kvlen .kvlen (fun f => f.B.word.toInt < -1) (fun _ => (4, 20, 0, 0)) ∧
  (∀ a b : COp, Completes .smxm .smxm (fun f => tripCourse f.A.bits = .ok a ∧ tripCourse f.B.bits = .ok b)
    Firing.found
    (fun f => (tripMerge a b f.K (f.found.temp f.j (slice f.r.ax 3 3).toNat)).2.2)
    (fun f => some (Val.ofCourse (tripMerge a b f.K (f.found.temp f.j (slice f.r.ax 3 3).toNat)).1))
    (fun f => some (tripMerge a b f.K (f.found.temp f.j (slice f.r.ax 3 3).toNat)).2.1)) ∧
  (∀ a : COp, GivesCourse .smxf .smxf (fun f => tripCourse f.A.bits = .ok a) 0
    (fun f =>
      let s := readFmt f32 (slice f.B.bits 32 32).toNat
      let ys := a.nums.map fun x => laneFmt f32 (divNum x s).1
      (mkCourse 0x0A 127 0 32 (ys.map (·.1)), orAll (a.nums.map fun x => (divNum x s).2) ||| orAll (ys.map (·.2)))))

/-- PHASE, PHEND, CWR, TLBI and PRIO deliver A and leave their change for the commit, EVSIG and IRET leave theirs; BALL takes idle
ballast groups that the grant allows; CRD delivers a register; TLBS waits for the invalidations that committed no later than its activation began to drain; CTXL asks for its
image; CTXE, RETRY, MIGR and THRT deliver their status, RETRY with the target that it finds; WFE waits for a pending event of its mask. Where the spec is silent
or can be read two ways it follows the model's choices of log 88 and 92. -/
def Obligations.SystemForms : Prop :=
  let c (f : Firing) : Nat := if bit f.r.lit 18 then f.lit 16 2 else f.a.ctx
  let other (f : Firing) : Ctx := f.s.ctx (f.lit 0 2)
  let pend (f : Firing) : BitVec 32 := (f.s.newels.getD (unitDie f.u) Newel.reset).pending &&& slice f.B.word 0 32
  let ctxeOk (f : Firing) : Prop := capAccess f.pa f.ta 0x01 0x00A (capBase f.pa) 0 0 = 99
  let held (f : Firing) : Option Nat := (f.s.heldAt (slice f.A.word 0 16).toNat).map (·.id)
  let tag (f : Firing) : TagWord := BitVec.ofNat 2 (f.lit 16 2) ++ slice f.A.word 0 34
  let asid (f : Firing) : BitVec 16 := if bit f.r.lit 16 then slice f.r.lit 0 16 else f.x.asid
  PassesAndLeaves .phase .phase (fun f => .phase (f.lit 0 10) (f.lit 10 4 + 1) (f.lit 14 16)) ∧
  PassesAndLeaves .phend .phend (fun _ => .phend) ∧
  PassesAndLeaves .cwr .cwr (fun f => .cwr (f.lit 0 16) (c f) f.A.word) ∧
  PassesAndLeaves .tlbi .tlbi (fun f => .tlbi (slice f.A.word 0 60).toNat f.B.word.toNat (f.lit 0 16) (bit f.r.lit 16)) ∧
  PassesAndLeaves .prio .prio (fun f => .prio (f.lit 4 2) (f.lit 0 4)) ∧
  Leaves .evsig .evsig always (fun f => .signal (f.lit 5 2) (f.lit 0 5) f.A.word) ∧
  Leaves .iret .iret always (fun _ => .iret) ∧
  TellsAndLeaves .ball .ball always (fun f => f.s.ballastFor f.u f.a.ctx (f.lit 0 3 + 1))
    (fun f => .ballast (f.s.ballastFor f.u f.a.ctx (f.lit 0 3 + 1))) ∧
  (∀ (s : State) (u : UnitId) (x g : Nat), s.ballastFor u x g ≤ g ∧
    (s.setBusy (unitBay u) = true ∨ (s.ctx x).prio ≠ 0 → s.ballastFor u x g = 0)) ∧
  Delivers .crd .crd always (fun f => Val.ofWord (f.s.readReg f.u (c f) (bit f.r.lit 18) (f.lit 0 16))) ∧
  Completes .tlbs .tlbs (fun f => ∀ t ∈ f.s.net.tlbis, f.found.began < t.step) Firing.found (fun _ => 0) (fun f => some f.A)
    (fun _ => none) ∧
  Pends .tlbs .tlbs (fun f => ∃ t ∈ f.s.net.tlbis, t.step ≤ f.found.began) ∧
  Issues .ctxlLoad .ctxlLoad (fun f => capAccess f.pa f.ta 0x05 0x001 (capCursor f.pa) 256 0 = 99)
    (fun f => (capSpace f.pa, capCursor f.pa, .image f.pa false f.B.word)) ∧
  Issues .ctxlResume .ctxlResume (fun f => capAccess f.pa f.ta 0x05 0x001 (capBase f.pa) 1 0 = 99)
    (fun f => (capSpace f.pa, capBase f.pa, .image f.pa true 0)) ∧
  Completes .ctxe .ctxe (fun f => ctxeOk f ∧ (other f).status = .resident ∧ (other f).saveSize ≤ capTop f.pa - capBase f.pa)
    (fun f => f.found.effect f.j (.evict (f.lit 0 2) f.pa)) (fun _ => 0) (fun _ => say (65536 * 0xFFFF)) (fun _ => say (65536 * 0xFFFF)) ∧
  Delivers .ctxe .ctxe (fun f => ctxeOk f ∧ (other f).status = .absent) (fun _ => scalarOf (6 + 65536 * 0xFFFF)) ∧
  Delivers .ctxe .ctxe (fun f => ctxeOk f ∧ ((other f).status = .loading ∨ (other f).status = .evicting))
    (fun _ => scalarOf (1 + 65536 * 0xFFFF)) ∧
  Delivers .ctxe .ctxe (fun f => ctxeOk f ∧ (other f).status = .resident ∧ capTop f.pa - capBase f.pa < (other f).saveSize)
    (fun _ => scalarOf (7 + 65536 * 0xFFFF)) ∧
  TellsAndLeaves .retryPort .retryPort always (fun f => if (held f).isSome then 0 else 1)
    (fun f => .retryPort (held f) (bit f.r.lit 2)) ∧
  TellsAndLeaves .retryFrame .retryFrame always
    (fun f => if (f.s.parkedAt (f.lit 16 2) (f.lit 4 12) (tag f)).isSome then 0 else 1)
    (fun f => .retryFrame (f.lit 16 2) (f.lit 4 12) (tag f)
      ((f.s.parkedAt (f.lit 16 2) (f.lit 4 12) (tag f)).map fun w => (w.unit, w.made, w.stamp)) (bit f.r.lit 2)) ∧
  Completes .wfe .wfe (fun f => slice f.B.word 0 32 = 0#32) Firing.found (fun _ => 0) (fun _ => say 0) (fun _ => say 32) ∧
  Pends .wfe .wfe (fun f => slice f.B.word 0 32 ≠ 0#32 ∧ pend f = 0) ∧
  (∀ i < 32, Completes .wfe .wfe (fun f => bit (pend f) i = true ∧ ∀ k < i, bit (pend f) k = false) Firing.found (fun _ => 0)
    (fun f => say (pend f).toNat) (fun _ => say i)) ∧
  (∀ w : Walk, TellsAndLeaves .migr .migr
    (fun f => capAccess f.pa f.ta 0x01 0x800 (capCursor f.pa) 1 0 = 99 ∧ walk f.s (asid f) (capCursor f.pa) = .ok w ∧
      migrCode f.s (.ok w) f.B.word = 0)
    (fun _ => 0) (fun f => .migrate (asid f).toNat (capCursor f.pa) f.B.word w.page.leaf)) ∧
  (∀ w : Except Nat Walk, Tells .migr .migr
    (fun f => capAccess f.pa f.ta 0x01 0x800 (capCursor f.pa) 1 0 = 99 ∧ walk f.s (asid f) (capCursor f.pa) = w ∧
      migrCode f.s w f.B.word ≠ 0) (fun f => migrCode f.s w f.B.word)) ∧
  (∀ k, k ≠ 99 → Faults .migr .migr (fun f => capAccess f.pa f.ta 0x01 0x800 (capCursor f.pa) 1 0 = k)
    (fun f => (2, k, 0, capCursor f.pa))) ∧
  TellsAndLeaves .thrt .thrt (fun f => bit f.A.word 6 = false) (fun f => (f.s.hall (slice f.A.word 0 6).toNat).ksw)
    (fun f => .throttle (slice f.A.word 0 6).toNat false (min f.B.word.toNat 15)) ∧
  TellsAndLeaves .thrt .thrt (fun f => bit f.A.word 6 = true) (fun f => (f.s.hall 0).ksw)
    (fun f => .throttle (slice f.A.word 0 6).toNat true (min f.B.word.toNat 15))

namespace Sys2Proof.Claims
open Sys2Proof.Machine

/-! ### Device events: what moves beside the records (24 R399) -/

/-- A unit executes an activation that is still running and quiet, and its end is the event's subject (02 R34). -/
def Ends (s : State) (u : UnitId) (a : Act) : Prop :=
  s.sched.subject.u = u ∧ s.act u = some a ∧ a.stage = .running ∧ a.quiet = true

/-- Port k is written as the mask asks: once where its bit is 1, never where it is 0. -/
def portKept (a : Act) (mask : BitVec 16) (k : Nat) : Prop := a.writes k = if bit mask k then 1 else 0

/-- The commit moment of an activation that has fired exit e, towards a successor or none, is the event's subject. -/
structure Commits (s : State) (u : UnitId) (a : Act) (e : Nat) (next : BlockPtr) (stack : List BlockPtr) : Prop where
  subject : s.sched.subject.u = u
  act : s.act u = some a
  stage : ∃ told, a.stage = .committing e next stack told
  still : ∀ r ∈ a.recs, r.st.busy = false
  there : a.ctx < s.ctxs.length

/-- The effects of an activation but for SETTAG's and STSET's, which are those of the tokens it emits. -/
def onlyEmission (a : Act) : Prop := ∀ e ∈ a.effects, (∃ t, e.2 = .tset t) ∨ (∃ t, e.2 = .stset t)

end Sys2Proof.Claims

open Sys2Proof Sys2Proof.Machine Sys2Proof.Claims

/-- The end of an activation: with no exit fired, two, one that the block has not, a masked port written not once or an unmasked one
written, it faults with the code and port of R34; with one exit and its ports kept, and no rate, redirect, chain or landing breached,
it goes to its commit towards the exit's successor.

The commit moment: while a request of it is out the activation waits. At its commit the unit is free, memory is as it was, the
flags are ORed into the unit's copy, its generator is as the draws left it unless a seed was written meanwhile, each buffered store is asked for in record order, a frame's activation puts the value of each masked port
on every edge of that port under the emitted tag word and stamp, behind what is in flight there, counts it on the edge's register, and puts it on no other operator's edge (a silent one on none), and a
chained one leaves a successor on its unit with its ports' values. Where the spec is silent
or can be read two ways it follows the model's choices of log 71, 97, 98 and 107. -/
def Obligations.EndsAndCommits : Prop :=
  ((∀ s u a, s.sched.subject.u = u → s.act u = some a → a.stage = .running → a.quiet = false → exec .activationEnd s = .next s) ∧
   (∀ s u a, Ends s u a → a.exits = [] → exec .activationEnd s = .next (s.takeFault u a 0xFF 6 1 0 0)) ∧
   (∀ s u a m n l, Ends s u a → a.exits = m :: n :: l → exec .activationEnd s = .next (s.takeFault u a 0xFF 6 2 0 0)) ∧
   (∀ s u a n, Ends s u a → a.exits = [n] → a.blk.exits.length ≤ n → exec .activationEnd s = .next (s.takeFault u a 0xFF 6 3 0 0)) ∧
   (∀ s u a n k, Ends s u a → a.exits = [n] → n < a.blk.exits.length → k < a.blk.outputs → bit (a.blk.mask n) k = true →
     a.writes k ≠ 1 → (∀ i < k, bit (a.blk.mask n) i = true → a.writes i = 1) →
     exec .activationEnd s = .next (s.takeFault u a 0xFF 6 (if a.writes k = 0 then 4 else 5) k 0)) ∧
   (∀ s u a n k, Ends s u a → a.exits = [n] → n < a.blk.exits.length → k < a.blk.outputs → bit (a.blk.mask n) k = false →
     a.writes k ≠ 0 → (∀ i < a.blk.outputs, bit (a.blk.mask n) i = true → a.writes i = 1) →
     (∀ i < k, bit (a.blk.mask n) i = false → a.writes i = 0) →
     exec .activationEnd s = .next (s.takeFault u a 0xFF 6 6 k 0)) ∧
   (∀ s u a n, Ends s u a → a.exits = [n] → n < a.blk.exits.length → (∀ k < a.blk.outputs, portKept a (a.blk.mask n) k) →
     a.rateBreach (s.ctx a.ctx) = none → a.redirs = [] → s.chainBreach u a (a.blk.mask n) (a.blk.next n) (a.blk.next n) = false →
     a.landingCode (s.ctx a.ctx) = 99 →
     exec .activationEnd s = .next (s.putAct u { a with stage := .committing n (a.blk.next n) a.w.link false }))) ∧
  ((∀ s u a e next stack told r, s.sched.subject.u = u → s.act u = some a → a.stage = .committing e next stack told → r ∈ a.recs →
     r.st.busy = true → exec .commitMoment s = .next s) ∧
   (∀ s u a e next stack, Commits s u a e next stack → onlyEmission a →
     ∃ t, exec .commitMoment s = .next t ∧ t.act u = none ∧ t.mem = s.mem ∧
       ((t.ctx a.ctx).elem u).flags = addFlags ((s.ctx a.ctx).elem u).flags a.flags a.recon ∧
       ((t.ctx a.ctx).elem u).rng = (if (s.ctx a.ctx).seeds = a.seeded then a.rng else ((s.ctx a.ctx).elem u).rng) ∧
       t.net.reqs.take s.net.reqs.length = s.net.reqs ∧
       (t.net.reqs.drop s.net.reqs.length).map (fun q => (q.space, q.addr, q.kind)) =
         (sortBy (fun b => b.j) a.stores).map (fun b => (b.space, b.addr, ReqKind.store b.data)) ∧
       (next = 0 → a.w.kind = .frame → a.w.silent = false → ∀ (i : Nat) (x : Edge) (k : Nat) (o : OutWrite) (v : Val),
         (s.ctx a.ctx).edges[i]? = some x → x.prod = a.op (s.ctx a.ctx) →
         x.oport = k → k < a.blk.outputs → bit (a.blk.mask e) k = true → a.outs.find? (fun y => y.port = k) = some o → o.val = some v →
         (s.ctx a.ctx).clonesOf x.prod = [] →
         let birth := (o.tag.map ((s.ctx a.ctx).birthFor a)).getD a.w.birth
         ∃ y, (t.ctx a.ctx).edges[i]? = some y ∧
           y.flight = x.flight ++ [⟨v, o.tag.getD a.emitTag, a.emitStamp, birth, o.comb, ⟨[], []⟩⟩] ∧
           y.dreg = x.dreg.token x.tile v a.emitStamp.toInt) ∧
       (∀ (i : Nat) (x : Edge), (s.ctx a.ctx).edges[i]? = some x → x.prod ≠ a.op (s.ctx a.ctx) → a.w.kind = .frame → (t.ctx a.ctx).edges[i]? = some x) ∧
       (next = 0 → a.w.kind = .frame → a.w.silent = true → ∀ i : Nat, (t.ctx a.ctx).edges[i]? = (s.ctx a.ctx).edges[i]?) ∧
       (next ≠ 0 → ∃ w ∈ (t.ctx a.ctx).waiting, w.unit = u ∧ w.ptr = next ∧ w.tag = a.emitTag ∧ w.stamp = a.emitStamp ∧ w.birth = a.w.birth ∧
         w.link = stack ∧ w.slots.map (·.val) = (a.masked e).map (·.val))) ∧
   (∀ a : Act, (a.effects = [] → a.emitTag = a.w.tag ∧ a.emitStamp = a.w.stamp) ∧
     (∀ j t, a.effects = [(j, .tset t)] → a.emitTag = t) ∧ (∀ j t, a.effects = [(j, .stset t)] → a.emitStamp = t)) ∧
   (∀ s u a e next stack j p, Commits s u a e next stack → a.effects = [(j, .mpln p)] →
     ∃ t, exec .commitMoment s = .next t ∧ (t.ctx a.ctx).mpln = BitVec.ofNat 4 p) ∧
   (∀ s u a e next stack j h k, Commits s u a e next stack → h < s.fab.halls.length → a.effects = [(j, .throttle h false k)] →
     ∃ t, exec .commitMoment s = .next t ∧ (t.hall h).ksw = k))

namespace Sys2Proof.Claims
open Sys2Proof.Machine

/-! ### Tokens that arrive (02 R26, R27; 04 R82; 17 R313) -/

/-- Edge i of context c, the event's subject, delivers token t next, and rest follows it: its producer has no clones, the stores
below a FENCE of the token's commit are performed, and no token that was offered again waits for its port. -/
structure Heads (s : State) (c i : Nat) (e : Edge) (t : Token) (rest : List Token) : Prop where
  ctx : s.sched.subject.c = c
  edge : s.sched.subject.e = i
  at_ : (s.ctx c).edges[i]? = some e
  single : (((s.ctx c).ops[e.prod]?).map (·.clones)).getD [] = []
  flight : e.flight = t :: rest
  there : s.resident c = true
  free : s.follows t.after = true
  first : (s.ctx c).waitsOffered e = false

/-- The edge leads to input port q of operator o, which has no clones, with its entry block b on unit u. -/
structure Enters (s : State) (c : Nat) (e : Edge) (u : UnitId) (b : BlkDesc) (o q : Nat) : Prop where
  cons : e.cons = .op o q
  single : (((s.ctx c).ops[o]?).map (·.clones)).getD [] = []
  block : (s.ctx c).block? ((((s.ctx c).image.ops[o]?).map (·.entry)).getD 0) = some b
  unit : (s.ctx c).unitOf ((((s.ctx c).image.ops[o]?).map (·.entry)).getD 0) = u

/-- The event by which a token is matched: a plain token's, a combining one's, or a retry on a back-pressured edge. -/
def Matches (i : Instr) (e : Edge) (t : Token) : Prop :=
  (i = .tokenMatch ∧ t.comb = none) ∨ (i = .combiningTokenArrival ∧ t.comb ≠ none) ∨ (i = .backpressuredTokenRetry ∧ e.blocked = true)

/-- The slot that a first token leaves: the operand, or the beginning of a combination of more than one (17 R313). -/
def firstSlot (t : Token) : Slot :=
  match t.comb with
  | none => ⟨some t.val, none, 0⟩
  | some k => if k.n ≤ 1 then ⟨some t.val, none, 0⟩ else ⟨none, some (k, 1, t.val), 0⟩

/-- The edge of a context after an event: what is in flight, not blocked. -/
def Passed (t : State) (c i : Nat) (rest : List Token) : Prop :=
  ∃ e, (t.ctx c).edges[i]? = some e ∧ e.flight = rest ∧ e.blocked = false

/-! ### Demand registers (04 R86) -/

/-- Some interval of a list holds a time. -/
def holdsTime (l : List Ival) (t : Int) : Prop := ∃ v ∈ l, v.lo ≤ t ∧ t ≤ v.hi

/-- Pending intervals stand in ascending order, none empty, none abutting the next. -/
def Spread (l : List Pend) : Prop :=
  l.Pairwise (fun p q => p.iv.hi + 1 < q.iv.lo) ∧ ∀ p ∈ l, p.iv.lo ≤ p.iv.hi

/-- The intervals of a pending list. -/
def ivals (l : List Pend) : List Ival := l.map (·.iv)

end Sys2Proof.Claims

open Sys2Proof Sys2Proof.Machine Sys2Proof.Claims

/-- A token that reaches the matching interface: with no frame of its tag word there, one arises with this operand alone, in the partition
or spilled as R133 places it; a frame that waits for the operand takes it; a present operand faults as "duplicate operand", another stamp as "stamp
mismatch" whatever the slot holds, the token beside its frame in the area that has a slot; with no room the edge is back-pressured, the token stays, the store limit is 1 and event 9 goes to the keystone Newel, once for each such
wait. A retry of an edge that is not blocked does nothing. A token that waited beside a frame and is offered again waits likewise.
A plain token fills an empty slot; a combination begins with its first token and is combined with its later ones until n have come; another
combination, or a plain token, in its place is a "combine mismatch". At a sink a wanted time is delivered and any other counts as a duplicate. Where the spec is silent
or can be read two ways it follows the model's choices of log 85, 86, 144 (a mismatch of stamps before a duplicate) and 145. -/
def Obligations.TokensAreMatched : Prop :=
  (∀ s c i e t rest u b o q ev spilled, Heads s c i e t rest → Enters s c e u b o q → Matches ev e t → q < b.blk.inputs →
    s.findFrame c u b.ptr t.tag = none → s.framePlace c u (b.blk.inputs + 1) = some spilled →
    ∃ y w, exec ev s = .next y ∧ Passed y c i rest ∧ w ∈ (y.ctx c).waiting ∧ w.kind = .frame ∧ w.unit = u ∧ w.ptr = b.ptr ∧ w.tag = t.tag ∧
      w.stamp = t.stamp ∧ w.birth = t.birth ∧ w.spilled = spilled ∧ w.parked = false ∧ w.slots.length = b.blk.inputs ∧
      w.slots[q]? = some (firstSlot t) ∧ (∀ k < b.blk.inputs, k ≠ q → w.slots[k]? = some ⟨none, none, 0⟩) ∧ y.mem = s.mem) ∧
  (∀ s c i e t rest u b o q ev w l l', Heads s c i e t rest → Enters s c e u b o q → Matches ev e t → q < b.blk.inputs →
    s.findFrame c u b.ptr t.tag = some w → w.stamp = t.stamp → w.slots[q]? = some l → l.take t = .ok l' →
    ∃ y, exec ev s = .next y ∧ Passed y c i rest ∧ y.mem = s.mem ∧
      y.findFrame c u b.ptr t.tag = some { w with slots := modAt w.slots q fun _ => l', since := s.sched.moves }) ∧
  (∀ s c i e t rest u b o q ev w l side, Heads s c i e t rest → Enters s c e u b o q → Matches ev e t → q < b.blk.inputs →
    s.findFrame c u b.ptr t.tag = some w → w.stamp = t.stamp → w.slots[q]? = some l → l.val.isSome = true →
    s.framePlace c u 1 = some side →
    exec ev s = .next (((s.frameFault c w 10 q t side).modCtx c fun x => { x with edges := modAt x.edges i fun z => z.pass 0 }).retireTags c)) ∧
  (∀ s c i e t rest u b o q ev w side, Heads s c i e t rest → Enters s c e u b o q → Matches ev e t → q < b.blk.inputs →
    s.findFrame c u b.ptr t.tag = some w → w.stamp ≠ t.stamp → s.framePlace c u 1 = some side →
    exec ev s = .next (((s.frameFault c w 9 q t side).modCtx c fun x => { x with edges := modAt x.edges i fun z => z.pass 0 }).retireTags c)) ∧
  (∀ s c i e t rest u b o q ev, Heads s c i e t rest → Enters s c e u b o q → Matches ev e t → q < b.blk.inputs →
    s.findFrame c u b.ptr t.tag = none → s.framePlace c u (b.blk.inputs + 1) = none →
    (e.blocked = true → exec ev s = .next s) ∧
    (e.blocked = false → ∃ y z, exec ev s = .next y ∧ (y.ctx c).edges[i]? = some z ∧ z.flight = e.flight ∧ z.blocked = true ∧ (y.ctx c).storeLim = 1 ∧
      (y.ctx c).waiting = (s.ctx c).waiting ∧ y.fab.evFly = s.fab.evFly ++
        [⟨keystone, 9, s.epoch keystone, BitVec.ofNat 512 (wingOfHall (hallOfBay (unitBay u))), none⟩])) ∧
  (∀ (s : State) (c n : Nat) (p : BlockPtr) (u : UnitId) (q : Nat) (t : Token) (b : BlkDesc), s.sched.subject.c = c →
    s.sched.subject.e = (s.ctx c).edges.length + n → (s.ctx c).offered[n]? = some (p, u, q, t) → (s.ctx c).blockAt p = some b →
    s.resident c = true → (∀ y ∈ (s.ctx c).offered.take n, ¬(y.1 = p ∧ y.2.1 = u)) → q < b.blk.inputs →
    s.findFrame c u b.ptr t.tag = none →
    (s.framePlace c u (b.blk.inputs + 1) = none → exec .backpressuredTokenRetry s = .next s) ∧
    (∀ spilled, s.framePlace c u (b.blk.inputs + 1) = some spilled → ∃ y w, exec .backpressuredTokenRetry s = .next y ∧
      (y.ctx c).offered = (s.ctx c).offered.take n ++ (s.ctx c).offered.drop (n + 1) ∧ w ∈ (y.ctx c).waiting ∧ w.kind = .frame ∧
      w.unit = u ∧ w.ptr = b.ptr ∧ w.tag = t.tag ∧ w.slots[q]? = some (firstSlot t) ∧ y.mem = s.mem)) ∧
  (∀ s e, (s.ctx s.sched.subject.c).edges[s.sched.subject.e]? = some e → e.blocked = false → exec .backpressuredTokenRetry s = .next s) ∧
  (∀ (t : Token) (f : BitVec 6),
    (⟨none, none, f⟩ : Slot).take { t with comb := none } = .ok ⟨some t.val, none, f⟩ ∧
    (∀ k : Comb, 1 < k.n → (⟨none, none, f⟩ : Slot).take { t with comb := some k } = .ok ⟨none, some (k, 1, t.val), f⟩) ∧
    (∀ (k : Comb) (n : Nat) (v : Val), n + 1 < k.n → (⟨none, some (k, n, v), f⟩ : Slot).take { t with comb := some k } =
      .ok ⟨none, some (k, n + 1, (combineVal k v t.val).1), f ||| (combineVal k v t.val).2⟩) ∧
    (∀ (k : Comb) (v : Val), 1 < k.n → (⟨none, some (k, k.n - 1, v), f⟩ : Slot).take { t with comb := some k } =
      .ok ⟨some (combineVal k v t.val).1, none, f ||| (combineVal k v t.val).2⟩) ∧
    (∀ (k m : Comb) (n : Nat) (v : Val), k ≠ m → (⟨none, some (k, n, v), f⟩ : Slot).take { t with comb := some m } = .error 15) ∧
    (∀ (k : Comb) (n : Nat) (v : Val), (⟨none, some (k, n, v), f⟩ : Slot).take { t with comb := none } = .error 15) ∧
    (∀ (v : Val) (p : Option (Comb × Nat × Val)), (⟨some v, p, f⟩ : Slot).take t = .error 10)) ∧
  (∀ (s : State) (c i : Nat) (e : Edge) (t : Token) (rest : List Token) (k : Nat) (y : Sink),
    Heads s c i e t rest → e.cons = .sink k → e.tile ≤ 1 → y ∈ (s.ctx c).sinks → y.k = k →
    ∃ z x, exec .sinkTokenArrival s = .next z ∧ Passed z c i rest ∧ x ∈ (z.ctx c).sinks ∧ x.k = k ∧ z.mem = s.mem ∧
      (y.wants t.stamp.toInt = true → x.got = y.got ++ [t] ∧ x.dups = y.dups) ∧
      (y.wants t.stamp.toInt = false → x = { y with dups := y.dups + 1 }))

/-- The reduction of an arriving interval at a demand register, but for one whose four pending intervals all begin above done (where
R86's loop may fill a gap before it comes to a piece inside it): the pending intervals stay ascending and apart and at most four, what was pending stays
pending, every time of the rounded interval that is not done is pending after it, and what travels on is what was not pending before and
is now, and nothing else. Where the spec is silent
or can be read two ways it follows the model's choice of log 70. -/
def Obligations.DemandIsReduced : Prop :=
  ∀ (r : DReg) (v : Ival), v.lo ≤ v.hi → Spread r.pend → r.pend.length ≤ 4 →
    (r.pend.length = 4 → ∀ d, r.done = some d → ∃ p ∈ r.pend, p.iv.lo ≤ d.lo) →
    let y := r.reduce v
    Spread y.1.pend ∧ y.1.pend.length ≤ 4 ∧ y.1.done = r.done ∧ y.1.g = r.g ∧ y.1.arrivals = r.arrivals ∧
    (∀ t, holdsTime (ivals y.1.pend) t ↔ holdsTime (ivals r.pend) t ∨ holdsTime y.2 t) ∧
    (∀ t, holdsTime [roundOut v r.g] t → (∀ d, r.done = some d → ¬(d.lo ≤ t ∧ t ≤ d.hi)) → holdsTime (ivals y.1.pend) t) ∧
    (∀ t, holdsTime y.2 t → ¬ holdsTime (ivals r.pend) t) ∧
    (roundOut v r.g).lo ≤ v.lo ∧ v.hi ≤ (roundOut v r.g).hi ∧
    (roundOut v r.g).lo % (max 1 r.g : Nat) = 0 ∧ ((roundOut v r.g).hi + 1) % (max 1 r.g : Nat) = 0

namespace Sys2Proof.Claims
open Sys2Proof.Machine

/-! ### Requests at their ports (10 R207, R212; 11 R243) -/

/-- Request q, the event's subject, may be performed now and every page of it is there. -/
structure Ripe (s : State) (q : Req) : Prop where
  subject : s.sched.subject.id = q.id
  there : s.req? q.id = some q
  ripe : s.ripe q = true

/-- Request q is the load that a record of form o, with fields r, of the activation a on its unit waits for. -/
structure Loads (s : State) (q : Req) (a : Act) (o : Op) (r : Rec) : Prop where
  ripe : Ripe s q
  act : s.act q.unit = some a
  st : (a.slot q.rec_).st = .issued q.id
  running : a.stage = .running
  form : a.info q.rec_ = some (o, r)
  inside : s.outside q = false
  clean : s.loadPoison q (a.seenBy q) = none

/-- The record of a load completes with a value for both destinations, and its request is over. -/
def ReturnsWith (s : State) (q : Req) (a : Act) (r : Rec) (v : Val) : Prop :=
  exec .loadReturn s = .next (((s.leave q).dropReq q.id).putAct q.unit (a.complete s.clock.steps q.rec_ r 0 (some v) (some v)))

/-- The record of a load faults its activation, and its request is over; while another load of the activation is held nothing but the
request's leaving its port happens (20 R348). -/
def ReturnFaults (s : State) (q : Req) (a : Act) (cls code : Nat) : Prop :=
  exec .loadReturn s = .next (if s.loadHeld q.unit then s.leave q
    else ((s.leave q).dropReq q.id).takeFault q.unit a q.rec_ cls code 0 0)

/-- The bytes that the load of an activation brings, as a number. -/
def broughtNat (s : State) (q : Req) (a : Act) : Nat := bytesNat (s.loadedBytes q (a.seenBy q) s.sched.subject.ext)

/-- A request is performed where its first byte stands, inside the device. -/
structure Placed (s : State) (q : Req) (x : Spot) : Prop where
  ripe : Ripe s q
  spot : s.spot q q.addr = some x
  inside : s.outside q = false

end Sys2Proof.Claims

open Sys2Proof Sys2Proof.Machine Sys2Proof.Claims

/-- Loads that return: LD's scalar is extended by its type, its pair keeps the tag it found and faults on a typed page, its course is checked there; LDS takes the word of a
full structure and is queued on an empty one; ACQ completes once the release count has reached B; a poisoned byte faults with class 8 code
3. A load of the scratchpad brings the bytes there but for those of the task queue, and a lower record's store of all of them is what it
brings; LDS lays its activation's lower stores over the word, and ACQ sees none of them. While another load of the activation is held no
fault is taken. A request that returns has left its port, which changes nothing but the port's window, what the request has sent and that it waits. Where the spec is silent
or can be read two ways it follows the model's choices of log 73, 79, 104 and 134. -/
def Obligations.LoadsReturn : Prop :=
  (∀ s q a r n cap, Loads s q a .ld r → q.kind = .load n cap → q.space = 0 ∨ q.space = 1 →
    (r.sh = .scalar → ReturnsWith s q a r (Val.ofWord (if r.ty.signed
      then (BitVec.ofNat r.ty.width (broughtNat s q a)).signExtend 64 else (BitVec.ofNat r.ty.width (broughtNat s q a)).setWidth 64))) ∧
    (r.sh = .pair → s.allTyped q = false →
      ReturnsWith s q a r (pairOf (BitVec.ofNat 128 (broughtNat s q a)) (cap && s.loadTag q a q.addr))) ∧
    (r.sh = .pair → s.allTyped q = true → ReturnFaults s q a 4 3) ∧
    (r.sh = .course → (s.allTyped q = false ∨ checkTyped r.ty (BitVec.ofNat 512 (broughtNat s q a)) = 99) →
      ReturnsWith s q a r ⟨.course, BitVec.ofNat 512 (broughtNat s q a), false⟩) ∧
    (r.sh = .course → s.allTyped q = true → checkTyped r.ty (BitVec.ofNat 512 (broughtNat s q a)) ≠ 99 →
      ReturnFaults s q a 4 (checkTyped r.ty (BitVec.ofNat 512 (broughtNat s q a))))) ∧
  (∀ s q a r cap x, Loads s q a .lds r → q.kind = .load 8 cap → q.space = 2 → s.spot q q.addr = some x →
    a.covers q.rec_ 2 q.addr 8 = false →
    (s.struct? x.key = some .full →
      ReturnsWith s q a r (Val.ofWord (BitVec.ofNat 64 (bytesNat (a.over q ((span x.key 8).map (Memory.get s.mem))))))) ∧
    (s.struct? x.key = none → s.readersAt (s.home x.key) < 4096 →
      ∃ t, exec .loadReturn s = .next t ∧ t.struct? x.key = some (.deferred [q.id]) ∧ t.act q.unit = some a ∧ t.mem = s.mem)) ∧
  (∀ s q a r b, Loads s q a .acq r → q.kind = .acquire b → q.space = 0 → s.allTyped q = false →
    (a.viewOf s q.unit q.rec_ r).b.word = b →
    (((BitVec.ofNat 64 (broughtNat s q a)) - b).toNat < 2 ^ 63 →
      ReturnsWith s q a r (Val.ofWord (BitVec.ofNat 64 (broughtNat s q a)))) ∧
    (2 ^ 63 ≤ ((BitVec.ofNat 64 (broughtNat s q a)) - b).toNat → exec .loadReturn s = .next (s.leave q))) ∧
  (∀ s q a n cap va, Ripe s q → s.act q.unit = some a → q.kind = .load n cap → q.space = 0 ∨ q.space = 1 → s.outside q = false →
    s.loadPoison q (a.seenBy q) = some va →
    exec .loadReturn s = .next (if s.loadHeld q.unit then s.leave q else (s.leave q).takeFault q.unit (a.seenBy q) q.rec_ 8 3 0 va)) ∧
  (∀ (a : Act) (q : Req), a.seenBy q = a ∨ a.seenBy q = { a with stores := [] }) ∧
  (∀ (a : Act) (q : Req) o r, a.info q.rec_ = some (o, r) → (a.seenBy q = a ↔ (o ≠ .land ∧ o ≠ .acq) ∨ a.stores = [])) ∧
  (∀ (s : State) (q : Req), (s.leave q).mem = s.mem ∧ (s.leave q).ctxs = s.ctxs ∧ (s.leave q).cells = s.cells ∧
    (s.leave q).net = { s.net with wins := (s.leave q).net.wins, reqs := (s.leave q).net.reqs } ∧
    (s.leave q = s ∨ ∃ z, (s.leave q).net.reqs = s.net.reqs.map fun y => if y.id = q.id then { y with st := .waiting, sent := some z } else y)) ∧
  (∀ (s : State) (q : Req) (a : Act) n cap o r, q.kind = .load n cap → q.space = 1 → a.info q.rec_ = some (o, r) → o ≠ .mldb →
    (s.homeCtx q.ctx q.load_).inQueue q.addr n = false →
    (a.below q.rec_ 1 = [] → s.loadedBytes q a s.sched.subject.ext =
      (List.range n).map fun i => s.byteAt (scratchKey q.load_ (unitBay q.unit) (q.addr + i))) ∧
    (∀ b l, a.below q.rec_ 1 = [b] → b.addr = q.addr → b.data = .bytes l → l.length = n →
      s.loadedBytes q a s.sched.subject.ext = l)) ∧
  (∀ (s : State) (q : Req), s.sched.subject.id = q.id → s.req? q.id = some q → s.ripe q = false → exec .loadReturn s = .next s)

/-- Stores, atomics, appends and releases performed at their places: memory changes at the bytes of the store alone, a typed page's course has Z set by its payload, a structure
word becomes full, a masked one changes the masked bits alone, and a part of a course keeps its poison, a refused one is held with its
class and code, once it is the oldest of its stream that is not performed; an atomic leaves the new value in memory and sends the old one as a
token to the edges of its port; a release adds one to its word.

Walks, windows and reads of LK.ERR: a walk fills its port's cache with the page of the address that missed, or holds the request with the walk's
code; a request takes a number and a mark in each class of its destinations as it leaves its port, which it does only while each of those windows has room; the response of a request
that is over is one less outstanding, a congested one halves the window once for its epoch, and each window of clean responses adds one,
up to 64; a request that was refused as moved is translated afresh, and until it leaves again no younger one of its stream is performed; a read of LK.ERR clears its counters. Where the spec is silent
or can be read two ways it follows the model's choices of log 82, 95 and 134. -/
def Obligations.RequestsPerform : Prop :=
  ((∀ s q d x, Placed s q x → q.kind = .store d → q.space = 0 ∨ q.space = 1 → x.typed = false → s.storeRefusal q.space d q.addr x = none →
     (∀ ty m c, d ≠ .masked ty m c) →
     ∃ t, exec .storePerform s = .next t ∧ t.mem = Memory.store s.mem x.key (d.image.map (·.2)) ∧ t.req? q.id = none) ∧
   (∀ s q c x, Placed s q x → q.kind = .store (.course c) → q.space = 0 → x.typed = true → s.storeRefusal 0 (.course c) q.addr x = none →
     ∃ t, exec .storePerform s = .next t ∧ t.mem = Memory.store s.mem x.key (courseBytes (withZ c)) ∧ t.req? q.id = none) ∧
   (∀ s q ty m c x, Placed s q x → q.kind = .store (.masked ty m c) → q.space = 0 → x.typed = false → Memory.wf s.mem = true →
     s.storeRefusal 0 (.masked ty m c) q.addr x = none →
     ∃ t, exec .storePerform s = .next t ∧ t.net.poison = s.net.poison ∧
       ∀ k, Memory.get t.mem k = if x.key ≤ k ∧ k < x.key + 64
         then mergeByte (Memory.get s.mem k) ((courseBytes (maskCourse ty m)).getD (k - x.key) 0) ((courseBytes c).getD (k - x.key) 0)
         else Memory.get s.mem k) ∧
   (∀ s q ty m c x, Placed s q x → q.kind = .store (.masked ty m c) → q.space = 0 → x.typed = true → Memory.wf s.mem = true →
     s.storeRefusal 0 (.masked ty m c) q.addr x = none → (∀ i < 64, s.struct? (x.key / 64 * 64 + i) = none) →
     let key := x.key / 64 * 64
     ∃ t, exec .storePerform s = .next t ∧ t.net.poison = s.net.poison ∧
       t.courseAt key = withZ (mergeCourse (effective (s.courseAt key)) (maskCourse ty m) c) ∧
       ∀ k, ¬(key ≤ k ∧ k < key + 64) → Memory.get t.mem k = Memory.get s.mem k) ∧
   (∀ s q v x, Placed s q x → q.kind = .store (.scalar .n64 v) → q.space = 2 → s.storeRefusal 2 (.scalar .n64 v) q.addr x = none →
     ∃ t, exec .storePerform s = .next t ∧ t.mem = Memory.store s.mem x.key (natBytes v.toNat 8) ∧ t.struct? x.key = some .full) ∧
   (∀ s q d x cls code, Placed s q x → q.kind = .store d → q.space ≠ 5 → s.storeRefusal q.space d q.addr x = some (cls, code) →
     exec .storePerform s = .next ((s.leave q).holdReq q cls code q.loops)) ∧
   (∀ s q fn ty b e out x, Placed s q x → q.kind = .atomic fn ty b e none out → s.atomicRefusal q ty false x = none →
     (∀ i < tySize ty, s.poisonedAt q (q.addr + i) = false) →
     let n := tySize ty
     let old := s.numAt x.key n
     let y := atomicStep fn ty old (rawInt ty b) (rawInt ty e)
     ∃ t, exec .atomicPerform s = .next t ∧ t.mem = Memory.store s.mem x.key (natBytes y.1 n) ∧ t.req? q.id = none ∧
       ∀ (k : Nat) (g : TagWord) (st : Stamp) (aft : After) (p i : Nat) (w : Edge), out = some ⟨k, g, st, none, aft⟩ → q.load_ = (s.ctx q.ctx).stream → s.resident q.ctx = true →
         (s.ctx q.ctx).opOf? q.ptr = some p → (s.ctx q.ctx).edges[i]? = some w → w.prod = p → w.oport = k → (s.ctx q.ctx).clonesOf p = [] →
         ∃ w', (t.ctx q.ctx).edges[i]? = some w' ∧ w'.flight = w.flight ++ [⟨Val.ofWord (extInt ty old), g, st, q.birth, none, aft⟩]) ∧
   (∀ s q fn ty b e c out x cls code, Placed s q x → q.kind = .atomic fn ty b e c out → s.atomicRefusal q ty c.isSome x = some (cls, code) →
     exec .atomicPerform s = .next ((s.leave q).holdReq q cls code q.loops)) ∧
   (∀ s q pos vs l, Ripe s q → s.outside q = false → q.kind = .kvapp pos vs →
     (List.range vs.length).mapM (fun i => s.spot q (q.addr + 64 * i)) = some l →
     ((∀ x ∈ l, x.typed = true ∧ kvCode (s.courseAt x.key) = 99 ∧ s.deferredIn x.key 64 = false ∧ s.poisonIn x.key 64 = false) →
       ∃ t, exec .atomicPerform s = .next t ∧ t.req? q.id = none ∧
         t.mem = (l.zip vs).foldl
           (fun m x => Memory.store m x.1.key (courseBytes (withZ (kvAppend (s.courseAt x.1.key) pos x.2).1))) s.mem) ∧
     ((∃ x ∈ l, x.typed = false) → exec .atomicPerform s = .next ((s.leave q).holdReq q 4 7 q.loops)) ∧
     (∀ k, (∀ x ∈ l, x.typed = true ∧ (kvCode (s.courseAt x.key) = 99 ∨ kvCode (s.courseAt x.key) = k)) →
       (∃ x ∈ l, kvCode (s.courseAt x.key) = k) → k ≠ 99 → exec .atomicPerform s = .next ((s.leave q).holdReq q 4 k q.loops))) ∧
   (∀ s q x, Placed s q x → q.kind = .release → x.typed = false → s.deferredIn x.key 8 = false →
     exec .releaseIncrement s = .next (((s.leave q).writeAt x.key (natBytes ((s.numAt x.key 8 + 1) % 2 ^ 64) 8)).dropReq q.id)) ∧
   (∀ s q x, Placed s q x → q.kind = .release → x.typed = true → exec .releaseIncrement s = .next ((s.leave q).holdReq q 4 8 q.loops)) ∧
   (∀ (s : State) (q : Req) cls code l, s.req? q.id = some q →
     (s.headOf q = true → ∃ r, (s.holdReq q cls code l).req? q.id = some r ∧ r.st = .held cls code ∧ (s.holdReq q cls code l).mem = s.mem) ∧
     (s.headOf q = false → s.holdReq q cls code l = s)) ∧
   (∀ (s : State) (q : Req), s.headOf q = true ↔ (q.kind.whole = true ∨ ∀ p ∈ s.net.reqs, p.id < q.id → sameStream p q = true → p.st = .queued))) ∧
  ((∀ (s : State) (q : Req) va w, s.sched.subject.id = q.id → s.req? q.id = some q → q.st = .waiting → s.firstMiss q = some (va, none) → walk s q.asid va = .ok w →
     ∃ t, exec .pageWalkComplete s = .next t ∧ t.cached q.port q.asid va = some w.page ∧ t.mem = s.mem ∧ t.net.reqs = s.net.reqs) ∧
   (∀ (s : State) (q : Req) va k, s.sched.subject.id = q.id → s.req? q.id = some q → q.st = .waiting → s.firstMiss q = some (va, none) → walk s q.asid va = .error k →
     exec .pageWalkComplete s = .next (s.holdReq q 3 k q.loops)) ∧
   (∀ (s : State) (q : Req) va k, s.sched.subject.id = q.id → s.req? q.id = some q → q.st = .waiting → s.firstMiss q = some (va, some k) →
     exec .pageWalkComplete s = .next (s.holdReq q 3 k q.loops)) ∧
   (∀ s : State,
     let y := s.sched.subject
     let w := s.window y.port y.k
     let out := ∃ q ∈ s.net.reqs, q.port = y.port ∧ ∃ z m, q.sent = some z ∧ (y.k, y.id, m) ∈ z.parts
     ((∀ z ∈ w.out, z.1 ≠ y.id) → exec .portWindowUpdate s = .next s) ∧
     (out → exec .portWindowUpdate s = .next s) ∧
     (∀ mark, w.out.find? (fun z => z.1 = y.id) = some (y.id, mark) → ¬out →
       ∃ t, exec .portWindowUpdate s = .next t ∧ t.mem = s.mem ∧ t.ctxs = s.ctxs ∧ t.net.reqs = s.net.reqs ∧
       (∀ p k, ¬(p = y.port ∧ k = y.k) → t.window p k = s.window p k) ∧
       t.window y.port y.k = { w with
         out := w.out.filter fun z => z.1 ≠ y.id
         w := if mark = true ∧ w.epoch ≤ y.id then max 1 (w.w / 2) else if mark = false ∧ w.w ≤ w.clean + 1 then min 64 (w.w + 1) else w.w
         epoch := if mark = true ∧ w.epoch ≤ y.id then w.next else w.epoch
         clean := if mark = true then (if w.epoch ≤ y.id then 0 else w.clean) else if w.w ≤ w.clean + 1 then 0 else w.clean + 1 })) ∧
   (∀ (s : State) (q : Req), q.sent = none → s.mayPerform q = true → ∀ d ∈ s.dests q,
     (s.window q.port d.1).out.length < (s.window q.port d.1).w) ∧
   (∀ (s : State) (q : Req), s.req? q.id = some q → q.sent = none → ∃ r z, (s.leave q).req? q.id = some r ∧ r.sent = some z ∧
     z.at_ = s.sched.moves ∧ r.st = .waiting ∧ ∀ d ∈ s.dests q,
       let w := s.window q.port d.1
       ∃ mark, (d.1, w.next, mark) ∈ z.parts ∧
         (s.leave q).window q.port d.1 = { w with next := w.next + 1, out := w.out ++ [(w.next, mark)] }) ∧
   (∀ (s : State) (q : Req), s.sched.subject.id = q.id → s.req? q.id = some q → q.st = .moved →
     ∃ t, exec .movedReissue s = .next t ∧ t.req? q.id = some { q with st := .again, sent := none, trans := [] } ∧ t.mem = s.mem) ∧
   (∀ (s : State) (p q : Req), p ∈ s.net.reqs → p.id < q.id → sameStream p q = true → p.st = .again → s.mayPerform q = false) ∧
   (∀ (s : State) p x, s.sched.subject.k = p → p < 18 → s.links.ports[p]? = some x →
     ∃ t, exec .lkErrRead s = .next t ∧ t.links.ports[p]? = some { x with crc := 0, vc := 0, retrain := 0 } ∧
       t.net.out = s.net.out ++ [.hostReg (0x2100 + 8 * p) (x.crc ++ x.vc ++ 0#7 ++ BitVec.ofBool x.spare ++ x.retrain)] ∧
       t.mem = s.mem ∧ t.ctxs = s.ctxs))

open Sys2Proof Sys2Proof.Machine Sys2Proof.Claims

/-- Pages that move or are invalidated: a migration copies its page's courses in ascending order into the new frame; with all copied its switch
refuses as moved what the page's translation serves, and, where the entry still stands as MIGR wrote it, writes the new leaf, with moving
clear, signals event 3 and drops the page everywhere; where the entry has changed memory stays and event 3 says so. A TLBI takes effect once
the stores below it are there: no port keeps what it names, and it drains once every access through it is performed or refused.

The device as its host and its peers reach it: a stack's temperature moves its band up past 85, 95 and 105 degrees and down two degrees below, with event 10 at the
third; a CXL.mem read brings the bytes there, or poison where a byte is poisoned; a write of plain bytes changes those bytes alone,
one that meets a compressed page or a deferred word has no effect but its event, and one to courses that a move has copied waits; a peer's load is answered with the bytes it names, and
what its translation refuses with the code, each in flits of vc 1 where a link leads to the peer. Where the spec is silent
or can be read two ways it follows the model's choices of log 27, 109, 110, 111 and 112. -/
def Obligations.PagesAndOutsideAccess : Prop :=
  ((∀ (s : State) m, s.net.migs.find? (fun x => x.id = s.sched.subject.k) = some m → m.copied < m.size / 64 →
     let n := min (max 1 s.sched.subject.len) (m.size / 64 - m.copied)
     ∃ t, exec .migrationSwitch s = .next t ∧ t.net.migs.find? (fun x => x.id = m.id) = some { m with copied := m.copied + n } ∧
       t.fab.evFly = s.fab.evFly ∧ t.net.cache = s.net.cache ∧
       (frameKey m.old = frameKey m.new → frameKey m.new ≠ none → t.mem = s.mem) ∧
       (∀ a b, frameKey m.old = some a → frameKey m.new = some b → a + m.size ≤ b ∨ b + m.size ≤ a → Memory.wf s.mem = true →
         ∀ k, Memory.get t.mem k = if b + 64 * m.copied ≤ k ∧ k < b + 64 * m.copied + 64 * n
           then Memory.get s.mem (a + 64 * m.copied + (k - (b + 64 * m.copied))) else Memory.get s.mem k)) ∧
   (∀ (s : State) m, s.net.migs.find? (fun x => x.id = s.sched.subject.k) = some m → m.size / 64 ≤ m.copied →
     ∃ t, exec .migrationSwitch s = .next t ∧ (∀ x ∈ t.net.migs, x.id ≠ m.id) ∧
       (∀ q ∈ s.net.reqs, q.st = .waiting → (∃ p ∈ q.trans, (q.asid = m.asid ∨ bit p.leaf 7 = true) ∧ p.va < m.va + m.size ∧ m.va < p.va + p.size) →
         { q with st := .moved, sent := none, trans := [] } ∈ t.net.reqs) ∧
       (s.wordAt m.pte = m.old → t.mem = Memory.store s.mem (hbmKey m.pte) (natBytes (m.new &&& ~~~16#64).toNat 8) ∧
         t.fab.evFly = s.fab.evFly ++ [⟨m.die, 3, s.epoch m.die, Config.eventToken 3 m.va 0, none⟩] ∧
         (∀ e ∈ t.net.cache, e.asid = m.asid → ¬(e.page.va < m.va + m.size ∧ m.va < e.page.va + e.page.size))) ∧
       (s.wordAt m.pte ≠ m.old → t.mem = s.mem ∧
         t.fab.evFly = s.fab.evFly ++ [⟨m.die, 3, s.epoch m.die, Config.eventToken 3 m.va 6, none⟩])) ∧
   (∀ (s : State) x, s.net.tlbis.find? (fun y => y.id = s.sched.subject.k) = some x → x.done = false → s.over x.after = true →
     ∃ t, exec .tlbiInvalidate s = .next t ∧ t.mem = s.mem ∧ t.net.reqs = s.net.reqs ∧
       (∀ y ∈ t.net.tlbis, y.id = x.id → y.done = true) ∧
       (∀ e ∈ t.net.cache, e ∈ s.net.cache ∧ ¬((e.asid = x.asid ∨ bit e.page.leaf 7 = true) ∧
         (x.all = true ∧ e.page.va < 2 ^ 72 ∧ 0 < e.page.va + e.page.size ∨
          x.all = false ∧ e.page.va < x.page * 4096 + x.count * 4096 ∧ x.page * 4096 < e.page.va + e.page.size)))) ∧
   (∀ (s : State) x, s.net.tlbis.find? (fun y => y.id = s.sched.subject.k) = some x → x.done = false → s.over x.after = false →
     exec .tlbiInvalidate s = .next s) ∧
   (∀ (s : State) x, s.net.tlbis.find? (fun y => y.id = s.sched.subject.k) = some x →
     (x.done = true → (∀ i ∈ x.drain, ∀ q ∈ s.net.reqs, q.id = i → q.st.stopped = true) →
       exec .tlbiDrainComplete s = .next { s with net := { s.net with tlbis := s.net.tlbis.filter fun y => y.id ≠ s.sched.subject.k } }) ∧
     (∀ (i : Nat) (q : Req), i ∈ x.drain → q ∈ s.net.reqs → q.id = i → q.st.stopped = false → exec .tlbiDrainComplete s = .next s))) ∧
  ((∀ (s : State) k x, s.sched.subject.k = k → k < 8 → s.fab.hbm[k]? = some x →
     let t := slice s.sched.subject.data 0 16
     let up : Nat := (if 1360 < t.toNat then 1 else 0) + (if 1520 < t.toNat then 1 else 0) + (if 1680 < t.toNat then 1 else 0)
     let under : Nat := (if 1328 < t.toNat then 1 else 0) + (if 1488 < t.toNat then 1 else 0) + (if 1648 < t.toNat then 1 else 0)
     let band := max up (min x.band.toNat under)
     ∃ y z, exec .hbmBandChange s = .next y ∧ y.fab.hbm[k]? = some z ∧ z.temp = t ∧ z.band = BitVec.ofNat 2 band ∧
       z.hot = (x.hot || (decide (band = 3) && decide (x.band ≠ 3))) ∧ y.mem = s.mem ∧
       y.fab.evFly = s.fab.evFly ++ (if band = 3 ∧ x.band ≠ 3 then [⟨0, 10, s.epoch 0, 0#480 ++ t ++ 0#13 ++ BitVec.ofNat 3 k, none⟩] else [])) ∧
   (∀ (s : State),
     let off := s.sched.subject.off
     let n := s.sched.subject.len
     (∀ i < n, hdmVoid (off + i) = false) →
     ((∃ i < n, (off + i) / 8 * 8 ∈ s.net.poison) → exec .hostMemRead s = .next (s.emit (.hostRead off true []))) ∧
     ((∀ i < n, (off + i) / 8 * 8 ∉ s.net.poison) → (∀ i < n, s.meetsPage (·.cmp) (off + i) 1 = false) →
       exec .hostMemRead s = .next (s.emit (.hostRead off false ((List.range n).map fun i => s.byteAt (off + i)))))) ∧
   (∀ (s : State),
     let off := s.sched.subject.off
     let l := s.sched.subject.bytes
     l ≠ [] → (∀ i < l.length, hdmVoid (off + i) = false) →
     (s.copiedHdm off l.length = true → exec .hostMemWrite s = .next s) ∧
     (s.copiedHdm off l.length = false →
       (s.meetsPage (·.cmp) off l.length = false → s.deferredIn off l.length = false →
         (∀ i, off / 64 ≤ i → i ≤ (off + l.length - 1) / 64 → s.meetsPage (·.typed) (64 * i) 64 = false) →
         exec .hostMemWrite s = .next (s.writeAt off l)) ∧
       (s.meetsPage (·.cmp) off l.length = true → exec .hostMemWrite s = .next (s.raise 0 12 (BitVec.ofNat 512 (off % 2 ^ 42)))) ∧
       (s.meetsPage (·.cmp) off l.length = false → s.deferredIn off l.length = true →
         exec .hostMemWrite s = .next (s.raise 0 13 (BitVec.ofNat 512 (off % 2 ^ 42)))))) ∧
   (∀ (s : State) r va cls code, s.sched.subject.peer = r → s.portSpots (peerReq r) (peerReq r).kind.size (peerReq r).kind.need = .error (cls, code, va) →
     exec .peerRequest s = .next (s.sendOut (.reply r.src code false []))) ∧
   (∀ (s : State) r n x l, s.sched.subject.peer = r → r.op = .load n → s.portSpots (peerReq r) n .load = .ok (x :: l) → (∀ y ∈ x :: l, y.inside = true) →
     (∀ y ∈ x :: l, y.key / 8 * 8 ∉ s.net.poison) → x.typed = false →
     exec .peerRequest s = .next (s.sendOut (.reply r.src 0 false ((x :: l).map fun y => s.byteAt y.key)))) ∧
   (∀ (s : State) r b x l, s.sched.subject.peer = r → r.op = .bytes b → s.portSpots (peerReq r) b.length .store = .ok (x :: l) → (∀ y ∈ x :: l, y.inside = true) →
     x.typed = false → s.storeRefusal 0 (.bytes b) r.off x = none → s.copiedAt x.tier x.pa b.length = false →
     exec .peerRequest s = .next ((s.writeAt x.key b).sendOut (.reply r.src 0 false []))) ∧
   (∀ (s : State) (o : OutMsg), (s.sendOut o).mem = s.mem ∧ (s.sendOut o).ctxs = s.ctxs ∧ ∃ l, (s.sendOut o).net.out = s.net.out ++ o :: l))

/-- Engines: a copy begins, once its activation's stores are there and every page of it translates, with requests whose lengths sum to the whole; one whose page
fails is held at its engine port; an operation completes once nothing of it is outstanding, its bytes count at its barrier, its flags reach its unit's copy and
its copy tag falls; a contribution adds at its barrier once its stores are there; a chunk is there once the flits of its header and data
are; one that no posted collective takes waits at its port, and one that mismatches raises event 11. Where the spec is silent
or can be read two ways it follows the model's choices of log 101 and 103. -/
def Obligations.EnginesRun : Prop :=
  (∀ (s : State) id o n, s.sched.subject.id = id → s.engine? id = some o → o.kind = .cpy n → s.engineHeld id = false → s.over o.after = true → o.started = false →
    (o.pageFault s (o.ranges s s.sched.subject.ext) = none →
      exec .engineOpStart s = .next (((o.copyReqs s n).foldl (fun t q => t.addReq q) s).modEngine id fun z => { z with started := true })) ∧
    (∀ p cls code, o.pageFault s (o.ranges s s.sched.subject.ext) = some (p, cls, code) → exec .engineOpStart s = .next (s.stopEngine o p.space p.va cls code p.off))) ∧
  (∀ (s : State) (o : EngineOp) n, o.skip = [] → sumNat ((o.copyReqs s n).map fun q => q.kind.size) = n ∧
    ∀ q ∈ o.copyReqs s n, ∃ i m, q.addr = capCursor o.src + i ∧ i + m ≤ n ∧ 0 < m ∧
      q.kind = .engineRead (capSpace o.dst) (capCursor o.dst + i) m ∧ q.space = capSpace o.src) ∧
  (∀ (s : State) id o, s.sched.subject.id = id → s.engine? id = some o → (s.over o.after = false ∨ s.engineHeld id = true) → exec .engineOpStart s = .next s) ∧
  (∀ (s : State) id o, s.sched.subject.id = id → s.engine? id = some o → o.started = true → s.engineHeld id = false →
    (∀ q ∈ s.net.reqs, ¬((q.port.kind = 3 ∨ q.port.kind = 4) ∧ q.strm = id)) → (∀ k ∈ s.net.contribs, k.op ≠ some id) →
    (∀ col n, o.kind = .cpyq col n → o.sent ≠ 0) → o.collDone s.links.id.toNat = true →
    (s.ctx o.ctx).stream = o.load_ → s.resident o.ctx = true →
    ∃ t, exec .engineOpComplete s = .next t ∧ t.engine? id = none ∧ t.mem = s.mem ∧
      (o.cnt = true → o.coll? = none → (t.ctx o.ctx).barrier o.bay o.bar = ((s.ctx o.ctx).barrier o.bay o.bar).contribute 0 o.bytes) ∧
      (t.ctx o.ctx).copyTags o.bay = ((s.ctx o.ctx).copyTags o.bay).lower o.ctag ∧
      ((t.ctx o.ctx).elem o.unit).flags = addFlags ((s.ctx o.ctx).elem o.unit).flags o.flags 0) ∧
  (∀ (s : State) k, s.net.contribs.find? (fun x => x.id = s.sched.subject.id) = some k → s.over k.after = true → s.resident k.ctx = true →
    (s.ctx k.ctx).stream = k.load_ →
    ∃ t, exec .barrierContribution s = .next t ∧ (∀ x ∈ t.net.contribs, x.id ≠ k.id) ∧ t.mem = s.mem ∧
      (t.ctx k.ctx).barrier k.bay k.bar = ((s.ctx k.ctx).barrier k.bay k.bar).contribute k.arr k.bytes) ∧
  (∀ (s : State) k, s.net.contribs.find? (fun x => x.id = s.sched.subject.id) = some k → s.over k.after = false →
    exec .barrierContribution s = .next s) ∧
  (∀ (s : State),
    let p := s.sched.subject.k
    let h := s.sched.subject.chunk
    let mine := fun x : Nat × Nat × Flit => x.1 = p ∧ x.2.1 = h.group ∧ x.2.2.src = BitVec.ofNat 22 h.srcDev
    let got := ((s.links.rx.filter fun x => mine x).take (chunkPayloads h).length).map fun x => (x.2.2.kind, x.2.2.payload)
    let r : State := { s with links := { s.links with rx := dropFirst (fun x => mine x) (chunkPayloads h).length s.links.rx } }
    (got ≠ chunkPayloads h → exec .collChunkArrival s = .next s) ∧
    (got = chunkPayloads h → s.collOf h.group = none →
      exec .collChunkArrival s = .next { r with net := { s.net with heldChunk := s.net.heldChunk ++ [(p, h)] } }) ∧
    (∀ o k, got = chunkPayloads h → s.collOf h.group = some (o, k) → (h.op ≠ k.op ∨ h.n ≠ k.n ∨ h.count ≠ k.count ∨ h.wire ≠ k.wire) →
      exec .collChunkArrival s = .next (r.raise 0 11 (BitVec.ofNat 512 (h.group % 65536 + 65536 * (h.srcDev % 2 ^ 22))))) ∧
    (∀ o k, got = chunkPayloads h → s.collOf h.group = some (o, k) → h.op = k.op → h.n = k.n → h.count = k.count → h.wire = k.wire →
      exec .collChunkArrival s = .next (r.takeChunk o k p h)))

namespace Sys2Proof.Claims
open Sys2Proof.Machine

/-- A task record of context c with no older one of its place: seq names it alone. -/
def Named (s : State) (seq c : Nat) (t : Task) : Prop := s.task? seq = some (c, t) ∧ t.seq = seq

/-- The exact product sum of a row's integers with a column's cells (13 R257). -/
def dotInt (a b : List Int) : Int := ((a.zip b).map fun x => x.1 * x.2).sum

end Sys2Proof.Claims

open Sys2Proof Sys2Proof.Machine Sys2Proof.Claims

/-- The task engine: the hall scheduler issues the eligible record of the highest priority and, of those, the earliest committed, a load at once and an undeclared task as a
burst; a deferred start waits for its slot; a load ends with its set holding the cells of the binding; a running task ends, is
cut or goes on at its row tags; a node's release waits for its counts, then stores every course of its rows, and the node starts
afresh; a failed macro takes the spare that waits for it, or a free one, or its row waits for replacement, and is reported as class 8 with code 5. Where the spec is silent
or can be read two ways it follows the model's choices of log 99, 100, 101, 106 and 152. -/
def Obligations.MatrixTasksRun : Prop :=
  (∀ (s : State) h, s.sched.subject.k = h → s.pickTask h = none → exec .taskIssue s = .next s) ∧
  (∀ (s : State) h c t, s.pickTask h = some (c, t) → s.eligible h c t = true ∧
    ∀ d z, (d, z) ∈ s.hallTasks h → s.eligible h d z = true →
      (s.ctx d).prio ≤ (s.ctx c).prio ∧ ((s.ctx d).prio = (s.ctx c).prio → t.seq ≤ z.seq)) ∧
  (∀ (s : State) h c t, s.sched.subject.k = h → s.pickTask h = some (c, t) →
    (s.setFor h c t = none → exec .taskIssue s = .next s) ∧
    (∀ bay w b, s.setFor h c t = some bay → t.kind = .load w b →
      exec .taskIssue s = .next (s.modTask c t.seq fun z => { z with st := .running bay false s.clock.ns })) ∧
    (∀ bay cap g d b, s.setFor h c t = some bay → t.kind = .task cap g d b → (s.ctx c).windows = [] →
      exec .taskIssue s = .next ((s.modCtx c fun y => y.modElem t.unit fun e => { e with burst := sat32 (e.burst.toNat + 1) }).startTask c t bay false)) ∧
    (∀ bay cap g d b w, s.setFor h c t = some bay → t.kind = .task cap g d b → (s.ctx c).windows = [w] → w.hall = h → w.open_ = true →
      (s.ctx c).declaredIn h + (s.ctx c).macrosOf t ≤ w.adm →
      exec .taskIssue s = .next (if slotAfter w.openAt s.clock.ns (bay % 7) = s.clock.ns then s.startTask c t bay true
        else s.modTask c t.seq fun z => { z with st := .deferred bay (slotAfter w.openAt s.clock.ns (bay % 7)) }))) ∧
  (∀ (s : State) seq c t bay at_, s.sched.subject.k = seq → s.task? seq = some (c, t) → t.st = .deferred bay at_ →
    exec .declaredStartSlot s = .next (if at_ ≤ s.clock.ns then s.startTask c t bay true else s)) ∧
  (∀ openAt now j : Nat, now ≤ slotAfter openAt now j ∧ openAt + 250 * j ≤ slotAfter openAt now j ∧
    (slotAfter openAt now j - openAt - 250 * j) % 1750 = 0 ∧ (openAt + 250 * j ≤ now → slotAfter openAt now j < now + 1750)) ∧
  (∀ (s : State) seq c t bay f at_, s.sched.subject.k = seq → Named s seq c t → t.st = .running bay f at_ →
    (s.taskHeld seq = true ∨ s.over t.after = false → exec .rowTagApply s = .next s) ∧
    (∀ w b cells, s.taskHeld seq = false → s.over t.after = true → t.kind = .load w b →
      s.cellsFor c bay t b s.sched.subject.ext = .ok cells →
      ∃ y, exec .rowTagApply s = .next y ∧ (y.macroSet bay).binding = some b ∧ (y.macroSet bay).cells = cells ∧
        (∀ z ∈ (y.ctx c).tasks, z.seq ≠ seq) ∧ y.mem = s.mem) ∧
    (∀ w b e row, s.taskHeld seq = false → s.over t.after = true → t.kind = .load w b →
      s.cellsFor c bay t b s.sched.subject.ext = .error (e, row) →
      exec .rowTagApply s = .next (s.stopTask c bay t b.cap e row)) ∧
    (∀ cap g d b rows z, s.taskHeld seq = false → s.over t.after = true → t.kind = .task cap g d b → (s.ctx c).pairTask t = false →
      (s.macroSet bay).binding = some b →
      let ty := (rowTy d.afmt).getD .f32
      let idx := span t.done (min 16 (d.m - t.done))
      let s1 := s.loadSets [bay] b (s.macroSet bay).cells
      readRows (fun i => s1.rowAt c bay t cap ty d.stride d.k i (64 * rowCourses d.afmt d.k * (i - t.done)) s.sched.subject.ext) idx = .ok rows →
      let s2 := s1.applyRows c t d b ty (idx.zip rows) (s1.macroSet bay)
      s2.task? seq = some (c, z) →
      exec .rowTagApply s = .next (
        if d.m ≤ z.done ∨ z.cut = true then s2.endTask c z
        else if s2.resident c = false ∨ s2.preempted (hallOfBay z.bay) c z = true then s2.modTask c z.seq fun q => { q with st := .queued }
        else s2))) ∧
  (∀ (nd : Node) (p row col0 n : Nat) (sb : Int) (a : List FNum) (set : MacroSet),
    (a.all FNum.isZero = true → nd.addRow p row col0 n sb a set = (nd, 0)) ∧
    (∀ x, a.all FNum.isZero = false → a.any FNum.wild = true → x < n →
      (nd.addRow p row col0 n sb a set).1.lane row (col0 + x) = 0x7FC00000#32 ∧
      (nd.addRow p row col0 n sb a set).2 &&& flagNv = flagNv) ∧
    (∀ x col ea, a.all FNum.isZero = false → a.any FNum.wild = false → x < n → set.cells[x]? = some col → col.wild = false → topExp a = some ea →
      let weight := fun i : Nat => if set.binding.any (fun b => b.b16) = true
        then 128 * (col.cells.getD i 0).toInt + ((col.low.getD i 0).toNat : Int) else (col.cells.getD i 0).toInt
      let s := dotInt (a.map fun y => quantInt y (ea - p + 2) (2 ^ (p - 1) - 1)) ((List.range a.length).map weight)
      let v := readFmt f32 (laneFmt f32 ((FNum.ofInt s).scaleBy (ea - p + 2 + col.e - sb))).1
      (nd.addRow p row col0 n sb a set).1.lane row (col0 + x) = ((nd.addLane row (col0 + x) v).1).lane row (col0 + x)) ∧
    (∀ r c, ¬(r = row ∧ col0 ≤ c ∧ c < col0 + n) → (nd.addRow p row col0 n sb a set).1.lane r c = nd.lane r c)) ∧
  (∀ (b : Binding) rows n, let col := b.column rows n
    let ints := (rows.map fun r => r.getD n FNum.zero).map fun x => quantInt x (col.e - b.scale) b.limit
    (b.b16 = true → col.cells = ints.map (fun v => BitVec.ofInt 8 (v / 128)) ∧ col.low = ints.map fun v => BitVec.ofInt 8 (v - 128 * (v / 128))) ∧
    (b.b16 = false → col.cells = ints.map (fun v => BitVec.ofInt 8 v))) ∧
  (∀ (s : State) c bay id n bar cap p g st rest, s.sched.subject.c = c → s.sched.subject.k = bay → s.sched.subject.e = id →
    let nd := (s.ctx c).node bay id
    nd.releases = (n, bar, cap, p, g, st) :: rest →
    (nd.got < n ∨ (s.ctx c).nodeStill bay id = false → exec .nodeRelease s = .next s) ∧
    (n ≤ nd.got → (s.ctx c).nodeStill bay id = true → (s.ctx c).status ≠ .absent →
      ∃ y, exec .nodeRelease s = .next y ∧ y.mem = s.mem ∧
        (y.net.reqs.drop s.net.reqs.length).map (fun q => (q.space, q.addr, q.kind)) =
          nd.rowsOut.map (fun x => (capSpace cap, (capCursor cap + x.1) % 2 ^ 72, ReqKind.store (.course x.2))) ∧
        (y.ctx c).node bay id = { nd with got := nd.got - n, lanes := [], tails := [], lastKc := [], releases := rest } ∧
        ∃ k, y.net.contribs = s.net.contribs ++ [k] ∧ k.bar = bar ∧ k.arr = 0 ∧ k.bytes = nd.size ∧
          k.after = span s.net.nextReq nd.rowsOut.length)) ∧
  (∀ (s : State) bay m, s.sched.subject.k = bay → s.sched.subject.e = m → bay < 448 → m < 32 →
    let runs := fun c => ∃ k ∈ (s.ctx c).tasks, k.running = true ∧ ∃ b, k.set? = some b ∧ bay ∈ (s.ctx c).setsOf k b
    ∃ y, exec .macroFailure s = .next y ∧ y.mem = s.mem ∧
      (let waits := s.spareWaits (.element (8 * bay)) (some m)
       (waits = false → (s.macroSet bay).spares.length < 2 → (y.macroSet bay).physical m = 32 + (s.macroSet bay).spares.length ∧
         (y.macroSet bay).spares = (s.macroSet bay).spares ++ [(m, 32 + (s.macroSet bay).spares.length)]) ∧
       (waits = false → 2 ≤ (s.macroSet bay).spares.length → bay ∈ y.fab.failed) ∧
       (waits = true → y.macroSet bay = s.macroSet bay ∧ y.fab.failed = s.fab.failed)) ∧
      (∀ c < 4, c < s.ctxs.length → (s.ctx c).there = true → runs c →
        slice (y.ctx c).ft 0 8 = BitVec.ofNat 8 8 ∧ slice (y.ctx c).ft 16 16 = BitVec.ofNat 16 5) ∧
      ((∀ c < 4, (s.ctx c).there = true → ¬runs c) → y.ctxs = s.ctxs ∧
        ∃ f, y.fab.evFly = s.fab.evFly ++ [⟨dieOfBay bay, 2, s.epoch (dieOfBay bay), f, none⟩] ∧
          slice f 0 8 = BitVec.ofNat 8 8 ∧ slice f 16 16 = BitVec.ofNat 16 5))

/-- Hardware errors: a datapath error abandons what the hall executes, which waits to fire again, and sends its record as event 2; lost pool state marks
every context there for replay and abandons what they execute in that bay, and a replay that nothing holds discards what was lost, keeps
the requests that are held, and leaves what the sinks want wanted; an element fails over to the spare that waits for it or to its bay's; a poisoned line's
words are poisoned; an undervolted hall with an error goes to its safe point with its floor locked above it, and no record names a context; a lost link holds the oldest requests
of their streams that need it with code 4. Where the spec is silent
or can be read two ways it follows the model's choices of log 116, 117 and 120. -/
def Obligations.HardwareErrors : Prop :=
  (∀ (s : State) u a, s.sched.subject.u = u → s.act u = some a → (s.ctx a.ctx).status ≠ .loading → a.ctx < s.ctxs.length →
    ∃ t, exec .hwDatapathError s = .next t ∧ t.act u = none ∧ a.w ∈ (t.ctx a.ctx).waiting ∧ t.mem = s.mem ∧
      slice (t.ctx a.ctx).ft 0 8 = BitVec.ofNat 8 8 ∧ slice (t.ctx a.ctx).ft 16 16 = BitVec.ofNat 16 1 ∧
      t.fab.evFly = s.fab.evFly ++ [⟨unitDie u, 2, s.epoch (unitDie u), (t.ctx a.ctx).ft, none⟩]) ∧
  (∀ (s : State) u, s.sched.subject.u = u → s.act u = none → exec .hwDatapathError s = .next s) ∧
  (∀ (s : State) bay, s.sched.subject.k = bay → ∃ t, exec .poolUncorrectable s = .next t ∧ t.mem = s.mem ∧
    (∀ u, ¬(isElement u = true ∧ unitBay u = bay) → t.act u = s.act u) ∧
    ∀ c < 4, c < s.ctxs.length → (s.ctx c).there = true → (s.ctx c).inBay bay = true → (t.ctx c).replay = true ∧
      slice (t.ctx c).ft 16 16 = BitVec.ofNat 16 2 ∧
      ∀ u a, isElement u = true → unitBay u = bay → s.act u = some a → a.ctx = c → t.act u = none) ∧
  (∀ (s : State) bay e d, s.sched.subject.k = bay → s.sched.subject.e = e → bay < 448 → s.fab.dies[dieOfBay bay]? = some d →
    (∃ t, exec .elementFailure s = .next t ∧ ∀ c < 4, c < s.ctxs.length → (s.ctx c).there = true →
      (s.ctx c).onUnit (.element (8 * bay + e % 8)) = true → (t.ctx c).replay = true ∧ slice (t.ctx c).ft 16 16 = BitVec.ofNat 16 4) ∧
    ((∀ y ∈ d.elems, y.1 / 8 ≠ bay) → ∃ t d', exec .elementFailure s = .next t ∧ t.fab.dies[dieOfBay bay]? = some d' ∧
      d'.elems = d.elems ++ [(8 * bay + e % 8, 8)] ∧ t.act (.element (8 * bay + e % 8)) = none ∧ t.mem = s.mem) ∧
    (let waits := s.spareWaits (.element (8 * bay + e % 8)) none
     (waits = false → (∃ y ∈ d.elems, y.1 / 8 = bay) → ∃ t, exec .elementFailure s = .next t ∧ bay ∈ t.fab.failed ∧
       t.act (.element (8 * bay + e % 8)) = none ∧ t.mem = s.mem) ∧
     (waits = true → ∃ t d', exec .elementFailure s = .next t ∧ t.fab.dies[dieOfBay bay]? = some d' ∧ d'.elems = d.elems ∧
       t.fab.failed = s.fab.failed ∧ t.act (.element (8 * bay + e % 8)) = none ∧ t.mem = s.mem))) ∧
  (∀ (s : State) c, s.sched.subject.c = c → (s.ctx c).replay = true → (s.ctx c).there = true → s.unitsOn c = [] →
    s.engineRuns (s.ctx c).stream = false → (∀ b ∈ (s.ctx c).bays, b ∉ s.fab.failed) →
    ∃ t, exec .contextReplay s = .next t ∧ t.mem = s.mem ∧ (t.ctx c).replay = false ∧ (t.ctx c).tasks = [] ∧ (t.ctx c).bars = [] ∧
      (t.ctx c).tags = [] ∧ (t.ctx c).live = [] ∧ (∀ w ∈ (t.ctx c).waiting, w.isHandler = true) ∧
      (∀ e ∈ (t.ctx c).edges, e.flight = [] ∧ e.dreg.pend = [] ∧ e.dreg.done = none) ∧
      (∀ n ∈ (t.ctx c).nodes, n.lanes = [] ∧ n.got = 0) ∧ (∀ o ∈ (t.ctx c).ops, o.valid = false ∧ o.issue = [] ∧ ∀ y ∈ o.clones, y.regs = []) ∧
      (t.ctx c).ops.map (fun o => o.clones.map fun y => y.unit) = (s.ctx c).ops.map (fun o => o.clones.map fun y => y.unit) ∧
      (t.ctx c).sinks.length = (s.ctx c).sinks.length ∧
      (∀ (i : Nat) (k z : Sink), (s.ctx c).sinks[i]? = some k → (t.ctx c).sinks[i]? = some z → ∀ n, k.wants n = true → z.wants n = true) ∧
      (∀ q ∈ s.net.reqs, q.isHeld = true → ∃ z ∈ t.net.reqs, z.id = q.id ∧ z.st = q.st) ∧
      (t.ctx c).weights = (s.ctx c).weights) ∧
  (∀ (s : State) c, s.sched.subject.c = c → (s.ctx c).replay = false → exec .contextReplay s = .next s) ∧
  (∀ (s : State) k, s.sched.subject.k = k → ∃ t, exec .linePoison s = .next t ∧ t.mem = s.mem ∧
    ∀ w, w ∈ t.net.poison ↔ w ∈ s.net.poison ∨ ∃ i < 8, w = k / 64 * 64 + 8 * i) ∧
  (∀ (s : State) h f x, s.sched.subject.k = h → s.sched.subject.flag = f → h < 64 → s.fab.halls[h]? = some x → x.uv = true → x.mv.toNat < 800 →
    ∃ t, exec .undervoltUe s = .next t ∧ t.mem = s.mem ∧
      t.hall h = { x with mv := x.safe, floor := x.safe + 10, lock := true, lockedAt := s.clock.ns, heldAt := s.clock.ns, erred := true } ∧
      ⟨dieOfHall h, 15, s.epoch (dieOfHall h), BitVec.ofNat 512 h, none⟩ ∈ t.fab.evFly ∧
      (∀ c, (t.ctx c).ft = (s.ctx c).ft ∧ (t.ctx c).seq = (s.ctx c).seq) ∧
      (f = false → ∀ u ∈ s.executingIn h, t.act u = none)) ∧
  (∀ (s : State) p x, s.sched.subject.k = p → s.links.ports[p]? = some x →
    ∃ t y, exec .linkLost s = .next t ∧ t.links.ports[p]? = some y ∧ y.up = false ∧ t.mem = s.mem ∧
      ∀ (q : Req) (d n : Nat) (k : ReqKind), q ∈ s.net.reqs → q.st = .waiting → s.outside q = true → s.outMsg q = .space3 d n k → s.route d = some p →
        (∀ z ∈ s.net.reqs, z.id < q.id → z.st ≠ .queued → sameStream z q = false) → ∃ q' ∈ t.net.reqs, q'.id = q.id ∧ q'.st = .held 3 4) ∧
  (∀ (s : State) bay e d, s.sched.subject.k = bay → s.sched.subject.e = e → bay < 448 → s.fab.dies[dieOfBay bay]? = some d →
    (s.sched.subject.flag = false → (∀ y ∈ d.elems, y.1 / 8 ≠ bay) → ∃ t d', exec .ageingLimitPass s = .next t ∧
      t.fab.dies[dieOfBay bay]? = some d' ∧ d'.elems = d.elems ++ [(8 * bay + e % 8, 8)] ∧
      d'.aged = d.aged ++ [(UnitId.element (8 * bay + e % 8), none, s.sched.moves)] ∧ t.cells = s.cells ∧ t.ctxs = s.ctxs ∧ t.mem = s.mem) ∧
    (s.sched.subject.flag = false → (∃ y ∈ d.elems, y.1 / 8 = bay) → ∃ t d', exec .ageingLimitPass s = .next t ∧
      t.fab.dies[dieOfBay bay]? = some d' ∧ d'.elems = d.elems ∧
      d'.aged = d.aged ++ [(UnitId.element (8 * bay + e % 8), none, s.sched.moves)] ∧ t.cells = s.cells ∧ t.ctxs = s.ctxs ∧ t.mem = s.mem) ∧
    (s.sched.subject.flag = true → (s.macroSet bay).spares.length < 2 → ∃ t d', exec .ageingLimitPass s = .next t ∧
      (t.macroSet bay).spares = (s.macroSet bay).spares ++ [(e % 32, 32 + (s.macroSet bay).spares.length)] ∧
      t.fab.dies[dieOfBay bay]? = some d' ∧ d'.aged = d.aged ++ [(UnitId.element (8 * bay), some (e % 32), s.sched.moves)] ∧
      t.cells = s.cells ∧ t.ctxs = s.ctxs ∧ t.mem = s.mem)) ∧
  (∀ (s : State) h x d, s.sched.subject.k = h → s.fab.halls[h]? = some x → s.fab.dies[dieOfHall h]? = some d →
    ∃ t d', exec .sliceFailure s = .next t ∧ t.hall h = { x with failed := true } ∧ t.fab.dies[dieOfHall h]? = some d' ∧
      d'.marked = (if d.marked = none then some (h % 16 / 4) else d.marked) ∧ t.mem = s.mem ∧ t.ctxs = s.ctxs) ∧
  (∀ s : State, exec .ucieLinkTraining s = .next { s with host := { s.host with
    ucie := s.host.ucie ++ [s.sched.subject.k], trained := s.host.trained + 1 } })

namespace Sys2Proof.Claims
open Sys2Proof.Machine

/-- A request that loads an image or a saved context. -/
def isImage (k : ReqKind) : Bool :=
  match k with
  | .image _ _ _ => true
  | _ => false

/-- The one load of a context for which the activation a of unit u, with record fields r, waits. -/
structure LoadsContext (s : State) (u : UnitId) (a : Act) (q : Req) (o : Op) (r : Rec) : Prop where
  subject : s.sched.subject.u = u
  act : s.act u = some a
  there : q ∈ s.net.reqs
  only : ∀ z ∈ s.net.reqs, z.unit = u → isImage z.kind = true → z = q
  own : q.unit = u
  may : s.mayPerform q = true
  st : (a.slot q.rec_).st = .issued q.id
  form : a.info q.rec_ = some (o, r)

end Sys2Proof.Claims

open Sys2Proof Sys2Proof.Machine Sys2Proof.Claims

/-- The host's demand window: a posting that breaks a rule of R79 is refused with its code and counted, one to a full queue waits for a
credit, and an accepted one joins its context's queue and counts; a read of HD.REF gives the refusals and clears them, one of a write-only register gives zero.

The host's registers: HM.GO latches the request and sets busy, or refused where a request is under way; the request's end gives its code, counts seq and
clears busy, 10 for a malformed one and 8 for a failed read, and it goes on only with its image's pages mapped; HA.GO takes the contexts of that moment, and the report names them; plain writes change the
registers there, within their writable bits; a reset leaves no context, unit or Newel event, and keeps the Undercroft and the stacks of a wing whose count of slices stays.

The flight links: a flit of 76 bytes with a bad CRC is counted and asked for again, one out of sequence, or for which no credits are left, is dropped, and one in sequence
advances the sequence number and is delivered here by its channel, forwarded by the route tables, or counted as an error of its
channel; a flit that is sent takes its port's next number and is held until it is acknowledged, and sent again where a replay asks for it; a retrained port is up, counts it, and may use its spare lane. Where the spec is silent
or can be read two ways it follows the model's choices of log 4, 7, 34, 51, 54, 121 and 122. -/
def Obligations.HostAndLinks : Prop :=
  (((∀ (s : State) c, s.sched.subject.off / 16 = c → c < 4 → s.host.opened = true →
      let x := s.ctx c
      let d := s.sched.subject.data
      let k := (slice d 96 4).toNat
      let lo := (slice d 0 48).toInt
      let hi := (slice d 48 48).toInt
      let whole := s.sched.subject.len = 16 ∧ s.sched.subject.off % 16 = 0
      let plain := whole ∧ slice d 100 28 = 0
      let ready := plain ∧ x.status = .resident
      let named := ready ∧ ∃ e ∈ x.edges, e.cons = .sink k
      (¬whole → exec .hostDemandPost s = .next (s.refusePost c 5)) ∧
      (whole → slice d 100 28 ≠ 0 → exec .hostDemandPost s = .next (s.refusePost c 6)) ∧
      (plain → x.status ≠ .resident → exec .hostDemandPost s = .next (s.refusePost c 1)) ∧
      (ready → (∀ e ∈ x.edges, e.cons ≠ .sink k) → exec .hostDemandPost s = .next (s.refusePost c 2)) ∧
      (named → hi < lo → exec .hostDemandPost s = .next (s.refusePost c 3)) ∧
      (named → lo ≤ hi → 4096 < hi - lo + 1 → exec .hostDemandPost s = .next (s.refusePost c 4)) ∧
      (named → lo ≤ hi → hi - lo + 1 ≤ 4096 → 64 ≤ (s.host.queues.getD c []).length → exec .hostDemandPost s = .next s) ∧
      (named → lo ≤ hi → hi - lo + 1 ≤ 4096 → (s.host.queues.getD c []).length < 64 →
        exec .hostDemandPost s = .next { s with host := { s.host with
          queues := modAt s.host.queues c fun l => l ++ [(k, ⟨lo, hi⟩)]
          acc := modAt s.host.acc c fun n => n + 1 } })) ∧
    (∀ (s : State) c k, c < s.host.refs.length → c < s.host.why.length →
      (s.refusePost c k).host.why.getD c 0 = BitVec.ofNat 8 k ∧
      (s.refusePost c k).host.refs.getD c 0 =
        if s.host.refs.getD c 0 = BitVec.allOnes 32 then BitVec.allOnes 32 else s.host.refs.getD c 0 + 1) ∧
    (∀ (s : State) c, s.sched.subject.off = 0x140 + 8 * c → c < 4 → s.host.opened = true → ∃ t, exec .hdRefRead s = .next t ∧
      t.net.out = s.net.out ++ [.hostReg (0x140 + 8 * c) (s.host.why.getD c 0 ++ 0#24 ++ s.host.refs.getD c 0)] ∧
      t.host.refs.getD c 0 = 0 ∧ t.host.why.getD c 0 = 0 ∧ t.mem = s.mem ∧ t.ctxs = s.ctxs) ∧
    (∀ (s : State) off, s.sched.subject.off = off → s.host.opened = true → off % 8 = 0 → (off < 0x100 ∨ off = 0x1018 ∨ 0x2000 ≤ off ∧ off < 0x2028) →
      exec .hdRefRead s = .next (s.emit (.hostReg off 0))) ∧
    (∀ (s : State), s.host.opened = false → s.host.halted = false → exec .hdRefRead s = .next s)) ∧
   ((∀ (s : State), s.host.opened = true →
      let w := slice s.sched.subject.data 0 64
      (bit w 0 = false → exec .hmGo s = .next s ∧ exec .haGo s = .next s) ∧
      (bit w 0 = true → (bit s.host.stat 8 = true ∨ slice w 1 63 ≠ 0) →
        exec .hmGo s = .next { s with host := { s.host with stat := s.host.stat ||| 0x200#64 } }) ∧
      (bit w 0 = true → bit s.host.stat 8 = false → slice w 1 63 = 0 →
        exec .hmGo s = .next { s with host := { s.host with latched := s.host.req, stat := s.host.stat ||| 0x100#64 } }) ∧
      (bit w 0 = true → bit s.host.haStat 1 = true →
        exec .haGo s = .next { s with host := { s.host with haStat := s.host.haStat ||| 4#64 } }) ∧
      (bit w 0 = true → bit s.host.haStat 1 = false →
        exec .haGo s = .next { s with host := { s.host with
          haStat := s.host.haStat ||| 2#64
          haCtxs := s.ctxs.map fun x => if x.status = .resident then (x.digest, x.launch) else (0, 0) } })) ∧
    (∀ (s : State),
      let m := s.sched.subject.mail
      let r := s.host.latched
      let addr := (slice r 0 56).toNat
      let len := (slice r 64 30).toNat
      let bad := len = 0 ∨ addr % 64 ≠ 0 ∨ 2 ^ 56 < addr + len
      let ends (y : State) (code : Nat) : Prop := ∃ t, exec .mailboxRequestEnd s = .next t ∧ t = { y with host := t.host } ∧
        slice t.host.stat 0 8 = BitVec.ofNat 8 code ∧ bit t.host.stat 8 = false ∧ slice t.host.stat 48 16 = slice y.host.stat 48 16 + 1 ∧
        t.host.msix = y.host.msix ||| 1#3 ∧ t.host.mailRes = none ∧ ∀ z, z ∈ t.host.resid ↔ z ∈ y.host.resid ∧ y.host.mailRes ≠ some z.2
      let asid := lwAsid (if slice r 128 64 = 0 then (readHead (m.image.take len)).launch else slice r 128 64)
      (bit s.host.stat 8 = false → exec .mailboxRequestEnd s = .next s) ∧
      (bit s.host.stat 8 = true → bad → ends s 10) ∧
      (bit s.host.stat 8 = true → ¬bad → m.err = true → ends s 8) ∧
      (bit s.host.stat 8 = true → ¬bad → m.err = false → (readHead (m.image.take len)).good = true →
        (∃ x ∈ (mailCopy (readHead (m.image.take len)).base (m.image.take len)).pieces, (s.mapMail m.maps).pieceBad asid false x = true) →
        exec .mailboxRequestEnd s = .next s) ∧
      (∀ y, bit s.host.stat 8 = true → s.carryOut r m = (y, none) → exec .mailboxRequestEnd s = .next y) ∧
      (∀ y code, bit s.host.stat 8 = true → s.carryOut r m = (y, some code) → ends y code)) ∧
    (∀ (s : State), bit s.host.haStat 1 = true → ∃ t, exec .attestReportComplete s = .next t ∧ t = { s with host := t.host } ∧
      t.host.report.take s.reportBody.length = s.reportBody ∧ t.host.report.length = 104 + 72 * s.host.haCtxs.length + 3309 ∧
      bit t.host.haStat 1 = false ∧ slice t.host.haStat 48 16 = slice s.host.haStat 48 16 + 1 ∧ t.host.msix = s.host.msix ||| 4#3) ∧
    (∀ (s : State),
      let d := s.sched.subject.data
      let writes (off len : Nat) (f : HostSide → Prop) : Prop :=
        s.host.opened = true → s.sched.subject.off = off → s.sched.subject.len = len →
          ∃ t, exec .registerWrite s = .next t ∧ t = { s with host := t.host } ∧ f t.host
      writes 0x1000 24 (fun h => h.nonce = s.host.nonce ∧ h.stat = s.host.stat ∧ h.req = if bit s.host.stat 8 then s.host.req
        else (slice d 0 192 &&& mailMask) ||| (s.host.req &&& ~~~mailMask)) ∧
      writes 0x1020 8 (fun h => h.req = s.host.req ∧ h.stat = if bit d 9 then s.host.stat &&& ~~~0x200#64 else s.host.stat) ∧
      writes 0x2000 32 (fun h => h.req = s.host.req ∧ h.nonce = if bit s.host.haStat 1 then s.host.nonce else d) ∧
      writes 0x2028 8 (fun h => h.nonce = s.host.nonce ∧ h.haStat = if bit d 2 then s.host.haStat &&& ~~~4#64 else s.host.haStat)) ∧
    (∀ (s : State), ∃ t, exec .reset s = .next t ∧ (∀ c, (t.ctx c).status = .absent) ∧ (∀ u, t.act u = none) ∧ t.net.reqs = [] ∧ t.net.structs = [] ∧
      t.power.kp = 0 ∧ t.power.trip = false ∧ t.host.opened = s.sched.subject.boot.verified ∧
      (∀ d < 4, ∀ n < 32, ((t.newels.getD d Newel.reset).evt.getD n 1) = 0) ∧
      (s.sched.subject.boot.verified = false → t.net.asidTab = 0 ∧ t.host.halted = true) ∧
      (let gone (f : Fabric) (wing : Nat) := (f.dead.filter fun h => wingOfHall h = wing).length
       (∀ k, k < 2 ^ 42 → (2 ^ 39 ≤ k ∨ gone t.fab (k / 2 ^ 36) = gone s.fab (k / 2 ^ 36)) → Memory.get t.mem k = Memory.get s.mem k) ∧
       (∀ k, k < 2 ^ 39 → gone t.fab (k / 2 ^ 36) ≠ gone s.fab (k / 2 ^ 36) → Memory.get t.mem k = 0) ∧
       (∀ k, 2 ^ 42 ≤ k → Memory.get t.mem k = 0))))) ∧
  ((∀ (s : State) p f x, s.sched.subject.k = p → s.sched.subject.flit = f →
     let r := (s.acked p s.sched.subject.e (if s.sched.subject.id = 0 then none else some (BitVec.ofNat 8 (s.sched.subject.id - 1)))).modPort p fun y =>
       { y with withheld := decide (s.sched.subject.off ≠ 0) }
     r.links.ports[p]? = some x →
     let next := r.modPort p fun y => { y with seq := y.seq + 1 }
     let here := f.dst.toNat = s.links.id.toNat
     let full := f.vc = 2 ∧ (here ∧ 65536 < r.heldBytes p + 64 ∨
       ¬here ∧ ∃ q y, r.route f.dst.toNat = some q ∧ r.links.ports[q]? = some y ∧ y.withheld = true)
     (f.crcOk = false → exec .flitReceive s = .next ((r.modPort p fun y => { y with crc := satInc y.crc }).emit (.replay p x.seq.toNat))) ∧
     (f.crcOk = true → f.seq ≠ x.seq ∨ full → exec .flitReceive s = .next r) ∧
     (f.crcOk = true → f.seq = x.seq → ¬full →
       (4 ≤ f.vc.toNat → exec .flitReceive s = .next (next.modPort p fun y => { y with vc := satInc y.vc })) ∧
       (f.vc.toNat < 2 → here → exec .flitReceive s = .next (next.emit (.local_ f))) ∧
       (f.vc.toNat = 2 → here → exec .flitReceive s = .next { next with links := { next.links with rx := next.links.rx ++ [(p, s.sched.subject.chunk.group, f)] } }) ∧
       (f.vc.toNat = 3 → here → exec .flitReceive s = .next (({ next with
         clock := { next.clock with us := s.sched.subject.len }
         power := { next.power with lock := s.sched.subject.flag } } : State).sendFlits 3 f.src.toNat (Config.messageFlits next.sched.moves))) ∧
       (∀ q, f.vc.toNat < 4 → ¬here → s.route f.dst.toNat = some q → exec .flitReceive s = .next (next.sendFlit q f)) ∧
       (f.vc.toNat < 4 → ¬here → s.route f.dst.toNat = none → exec .flitReceive s = .next next))) ∧
   (∀ (s : State) p f x, s.links.ports[p]? = some x →
     let t := s.sendFlit p f
     t.links.ports[p]? = some { x with next := x.next + 1, unacked := x.unacked ++ [{ f with seq := x.next }] } ∧
     t.net.out = s.net.out ++ [.flit p { f with seq := x.next }] ∧ (∀ q, q ≠ p → t.links.ports[q]? = s.links.ports[q]?) ∧ t.mem = s.mem) ∧
   (∀ (s : State) p n again x, s.links.ports[p]? = some x →
     let t := s.acked p n again
     t.links.ports[p]? = some { x with unacked := x.unacked.drop n } ∧ t.mem = s.mem ∧
     t.net.out = s.net.out ++ (match again with
       | none => []
       | some k => ((x.unacked.drop n).dropWhile fun f => f.seq ≠ k).map fun f => .flit p f)) ∧
   (∀ f : Flit, (flitImage f).length = 76 ∧ slice f.header 56 8 = f.vc ∧ slice f.header 34 22 = f.dst ∧ slice f.header 12 22 = f.src ∧
     slice f.header 8 4 = f.kind ∧ slice f.header 0 8 = f.seq) ∧
   (∀ (s : State) p x, s.sched.subject.k = p → s.links.ports[p]? = some x →
     ∃ t, exec .linkRetrain s = .next t ∧ t.mem = s.mem ∧ t.ctxs = s.ctxs ∧
       t.links.ports[p]? = some { x with retrain := satInc x.retrain, spare := x.spare || s.sched.subject.flag, up := true }) ∧
   (∀ (n : Nat) (c : BitVec n), (satInc c).toNat = min (2 ^ n - 1) (c.toNat + 1)))

/-- Contexts that load and leave: a load that is refused delivers its code and bay, one that passes delivers 0 and becomes resident at the commit,
a resumed one with the tag limits, the threshold and each unit's flags and counters as R73 sets them; an eviction with nothing
left that executes saves the context, and then frees its slot with event 4; a residency request for a resident context sets its level,
and one that finds no slot evicts the context of the lowest level below its own. Where the spec is silent
or can be read two ways it follows the model's choices of log 51, 75, 113 and 115. -/
def Obligations.ContextsComeAndGo : Prop :=
  (∀ (s : State) u a q o r cap launch k b, LoadsContext s u a q o r → q.kind = .image cap false launch →
    s.loadImage q (isNewel u) cap launch none s.sched.subject.ext = .refused k b →
    exec .ctxlLoadDone s = .next ((s.dropReq q.id).putAct u
      (a.complete s.clock.steps q.rec_ r 0 (some (Val.ofNat (k + 65536 * b))) (some (Val.ofNat (k + 65536 * b)))))) ∧
  (∀ (s : State) u a q o r cap launch c t, LoadsContext s u a q o r → q.kind = .image cap false launch →
    s.loadImage q (isNewel u) cap launch none s.sched.subject.ext = .loaded c t →
    exec .ctxlLoadDone s = .next ((t.dropReq q.id).putAct u
      ((a.effect q.rec_ (.loaded c)).complete t.clock.steps q.rec_ r 0 (some (Val.ofNat (65536 * 0xFFFF))) (some (Val.ofNat (65536 * 0xFFFF)))))) ∧
  (∀ (s : State) u a q o r cap launch c t, LoadsContext s u a q o r → q.kind = .image cap true launch →
    s.loadSave q (isNewel u) cap none s.sched.subject.ext = .loaded c t →
    exec .ctxlLoadDone s = .next ((t.dropReq q.id).putAct u
      ((a.effect q.rec_ (.loaded c)).complete t.clock.steps q.rec_ r 0 (some (Val.ofNat (65536 * 0xFFFF))) (some (Val.ofNat (65536 * 0xFFFF)))))) ∧
  (∀ (x : Ctx) n, let y := x.resumed n
    y.tagSet = 0xFFFF ∧ y.storeLim = 0xFFFF ∧ y.pwrLim = 0xFFFF ∧ y.thr = 0 ∧ y.mpln = 8 ∧ y.seed = 1 ∧ y.rings = x.rings ∧ y.nodes = x.nodes ∧ y.live = x.live ∧
    ∀ e ∈ y.elems, e.2.flags = 0 ∧ e.2.burst = 0 ∧ e.2.kvrs = 0 ∧ e.2.stall = []) ∧
  (∀ (s : State) c z pages, s.sched.subject.c = c → (s.ctx c).status = .evicting → (s.ctx c).area = some z → z.written = false →
    s.unitsOn c = [] → s.copyRuns (s.ctx c).stream = false → s.areaPages z (s.ctx c).saveSize = some pages →
    ∃ t, exec .evictionSave s = .next t ∧ (t.ctx c).area = some { z with written := true } ∧ (t.ctx c).status = .evicting ∧
      (t.ctx c).windows = [] ∧ (∀ k ∈ (t.ctx c).tasks, k.st = .queued) ∧ (∀ o ∈ (t.ctx c).ops, o.clones = [])) ∧
  (∀ (s : State) c z p rest, s.sched.subject.c = c → c < s.ctxs.length → (s.ctx c).status = .evicting → (s.ctx c).area = some z → z.written = true →
    s.areaPages z 1 = some (p :: rest) → s.host.resid = [] →
    ∃ t, exec .evictionComplete s = .next t ∧ (t.ctx c).status = .absent ∧ t.mem = s.mem ∧
      t.fab.evFly = s.fab.evFly ++ [⟨z.die, 4, s.epoch z.die, Config.eventToken 4 c 0, none⟩] ∧
      ∃ v ∈ t.net.saves, v.slot = c ∧ v.key = areaKey (p.spot (capBase z.cap)) ∧ v.ctx.stream = (s.ctx c).stream ∧
        v.ctx.rings = (s.ctx c).rings ∧ v.ctx.nodes = (s.ctx c).nodes) ∧
  (∀ (s : State) c, s.sched.subject.c = c → (s.ctx c).status ≠ .evicting →
    exec .evictionSave s = .next (s.serveResidency s.sched.subject.ext)) ∧
  (∀ (s : State) r c, s.sched.subject.resid = r → s.residentFor r = some c →
    exec .residencyRequest s = .next (s.setPrio c (lwPrio r.launch).toNat)) ∧
  (∀ (s : State) c k, (s.ctx c).there = true → ((s.setPrio c k).ctx c).prio = BitVec.ofNat 4 k) ∧
  (∀ (s : State) r, s.sched.subject.resid = r → r.resume = false → s.residentFor r = none → s.host.resid = [] → s.host.reserve = none →
    (∀ c < 4, (s.ctx c).status ≠ .absent) →
    (∀ c < 4, s.resident c = true → (lwPrio r.launch).toNat ≤ (s.ctx c).prio.toNat) ∧
      exec .residencyRequest s = .next { s with host := { s.host with resid := [(r, s.host.nextRes)], nextRes := s.host.nextRes + 1 } } ∨
    ∃ t c, c < 4 ∧ exec .residencyRequest s = .next t ∧ s.resident c = true ∧ (s.ctx c).prio.toNat < (lwPrio r.launch).toNat ∧
      (∀ d < 4, s.resident d = true → (s.ctx c).prio.toNat ≤ (s.ctx d).prio.toNat) ∧
      (t.ctx c).status = .evicting ∧ t.host.reserve = some c)

open Sys2Proof Sys2Proof.Machine Sys2Proof.Claims

/-- Demands on their way: a demand that a sink lets past is pending there and goes to every edge that feeds it, one whose end lies beyond its window
of 4096 waits; the first arrival at a register is reduced, and what travels on joins the queue of an unbounded producer, or is
rewritten for every input of a bounded one, with clones in runs of
the granule, each on the register of the copy that owns it; an rtf block fires for the first interval that waits; an issue counter fires for the lowest
time not taken, a source only under the live-tag limit; an unbounded operator starts where its state, a landing or its origin lets it, or faults.

Pressure and clones: a context with no frame spilled doubles its store limit 4096 steps after its last change, and not before; a window ends 2^20
steps after the last, with the counts of all its steps, and clears them; a bottleneck gets one more clone on an admitted element while no unit executes it, up to
seven; an operator quiet for four windows gives its last clone no more times, and it goes once it has nothing pending and, the last one, the merge node holds no token back. Where the spec is silent
or can be read two ways it follows the model's choices of log 8, 33, 140, 141 and 143. -/
def Obligations.DemandsAndClones : Prop :=
  ((∀ s c k y v, s.sched.subject.c = c → s.sched.subject.k = k → s.host.queues.getD c [] = [] →
     (s.ctx c).sinks.find? (fun z => z.k = k) = some y → y.waiting = [v] → v.lo ≤ v.hi → (∀ w, y.base = some w → v.hi ≤ w + 4095) →
     ∃ t, exec .sinkDemandRelease s = .next t ∧ (∀ z ∈ (t.ctx c).sinks, z.k = k → z.waiting = []) ∧
       (∀ (i : Nat) (z z' : Sink), (s.ctx c).sinks[i]? = some z → (t.ctx c).sinks[i]? = some z' → z.k = k →
         ∀ n, v.lo ≤ n → n ≤ v.hi → n ∉ z.bits → z'.wants n = true) ∧
       ∀ (i : Nat) (e : Edge), (s.ctx c).edges[i]? = some e → (t.ctx c).edges[i]? = some (if e.cons = .sink k then
         { e with dreg := { e.dreg with arrivals := e.dreg.arrivals ++ [v] } } else e)) ∧
   (∀ s c k y v rest w, s.sched.subject.c = c → s.sched.subject.k = k → s.host.queues.getD c [] = [] →
     (s.ctx c).sinks.find? (fun z => z.k = k) = some y → y.waiting = v :: rest → y.base = some w → w + 4095 < v.hi →
     exec .sinkDemandRelease s = .next s) ∧
   (∀ s c k v rest, s.sched.subject.c = c → s.sched.subject.k = k → s.host.queues.getD c [] = (k, v) :: rest → s.resident c = true →
     ∃ t, exec .sinkDemandRelease s = .next t ∧ t.host.queues.getD c [] = rest ∧ t.mem = s.mem) ∧
   (∀ s c e r v rest o d, s.sched.subject.c = c → s.sched.subject.edge = e → s.resident c = true → (s.ctx c).dreg? e = some r →
     r.arrivals = v :: rest → (s.ctx c).producer? e = some o → (s.ctx c).image.ops[o]? = some d →
     let y := ({ r with arrivals := rest } : DReg).reduce v
     ∃ t z, exec .demandReduce s = .next t ∧ (t.ctx c).dreg? e = some z ∧ z.pend = y.1.pend ∧ z.done = r.done ∧ z.g = r.g ∧ t.mem = s.mem ∧
       (∀ st, d.unbounded = true → (s.ctx c).ops[o]? = some st →
         (t.ctx c).ops[o]? = some { st with queue := st.queue ++ y.2 }) ∧
       (d.unbounded = false → d.rtfBlock = none → (s.ctx c).clonesOf o = [] → ∀ w ∈ y.2, (d.rewrite w).lo ≤ (d.rewrite w).hi → ∀ x ∈ (s.ctx c).inputsOf o,
         ∀ p, (s.ctx c).dreg? x = some p → ∃ p', (t.ctx c).dreg? x = some p' ∧ d.rewrite w ∈ p'.arrivals) ∧
       (∀ i w n, d.unbounded = false → d.rtfBlock = none → (s.ctx c).clonesOf o ≠ [] → o < (s.ctx c).ops.length → e = .frame i → y.2 = [w] →
         runsOf w ((s.ctx c).granule i) = [n] → n.lo ≤ n.hi →
         let k := (s.ctx c).copyFor o ((s.ctx c).granule i) n.lo
         let q := (s.ctx c).copyReg o k true i
         q.pend = [] → q.done = none → ((t.ctx c).copyReg o k true i).pend = [⟨roundOut n q.g, 0⟩])) ∧
   (∀ (v : Ival) g, 0 < g → v.lo ≤ v.hi → (∀ n, (∃ x ∈ runsOf v g, x.lo ≤ n ∧ n ≤ x.hi) ↔ v.lo ≤ n ∧ n ≤ v.hi) ∧
     ∀ x ∈ runsOf v g, x.lo ≤ x.hi ∧ x.lo / g = x.hi / g) ∧
   (∀ s c o d n b st v rest, s.sched.subject.c = c → s.sched.subject.k = o → c < s.ctxs.length → (s.ctx c).image.ops[o]? = some d →
     d.rtfBlock = some n → (s.ctx c).block? n = some b → (s.ctx c).ops[o]? = some st → st.rtfQueue = v :: rest →
     ∃ t w, exec .rtfBlockFire s = .next t ∧ (t.ctx c).waiting = (s.ctx c).waiting ++ [w] ∧ w.kind = .rtf v ∧ w.unit = .demand c ∧ w.ptr = b.ptr ∧
       w.slots.map (·.val) = List.replicate b.blk.inputs (some (Val.ofPair (BitVec.ofInt 64 v.hi ++ BitVec.ofInt 64 v.lo) false)) ∧
       (t.ctx c).ops[o]? = some { st with rtfQueue := rest }) ∧
   (∀ s c o d b st n, s.sched.subject.c = c → s.sched.subject.k = o → s.resident c = true → (s.ctx c).image.ops[o]? = some d →
     (s.ctx c).block? d.entry = some b → (s.ctx c).ops[o]? = some st → (s.ctx c).issuing o = false →
     nextIssue st.issue (s.issued c o) = some n →
     let it := BitVec.ofInt 16 n
     ((s.ctx c).isSource o = true → (s.ctx c).tagEff ≤ (s.ctx c).live.length → exec .issueCounterFire s = .next s) ∧
     (((s.ctx c).isSource o = true → (s.ctx c).live.length < (s.ctx c).tagEff ∧ ∀ l ∈ (s.ctx c).live, l.iter ≠ it) →
       ∃ t w, exec .issueCounterFire s = .next t ∧ (t.ctx c).waiting = (s.ctx c).waiting ++ [w] ∧ w.kind = .source ∧ w.ptr = b.ptr ∧
         w.unit = (s.ctx c).unitOf d.entry ∧ w.stamp = BitVec.ofInt 48 n ∧ tagIter w.tag = it ∧ w.slots = [] ∧
         (t.ctx c).live = if (s.ctx c).isSource o then (s.ctx c).live ++ [⟨it, false, w.birth, true⟩] else (s.ctx c).live)) ∧
   (∀ s c o d st v, s.sched.subject.c = c → s.sched.subject.k = o → s.resident c = true → (s.ctx c).image.ops[o]? = some d →
     (s.ctx c).ops[o]? = some st → st.serving = none → nextServed st.stime st.queue = some v →
     let starts (from_ : Int) (mode : Nat) : Prop := ∃ t z, exec .unboundedIntervalStart s = .next t ∧ (t.ctx c).ops[o]? = some z ∧
       z.stime = from_ ∧ z.mode = mode ∧
       z.serving = (if z.undone = [] then none else some v) ∧
       (∀ n, (∃ w ∈ z.undone, w.lo ≤ n ∧ n ≤ w.hi) ↔ from_ ≤ n ∧ n ≤ v.hi ∧ ∀ w ∈ st.skipped, ¬(v.lo ≤ n ∧ w.lo ≤ n ∧ n ≤ w.hi)) ∧
       z.silent = (if from_ < v.lo then some ⟨from_, v.lo - 1⟩ else none) ∧ z.queue = removeOne st.queue v
     let stops (code : Nat) : Prop := ∃ t z, exec .unboundedIntervalStart s = .next t ∧ (t.ctx c).ops[o]? = some z ∧
       z.queue = removeOne st.queue v ∧ z.serving = none ∧
       slice (t.ctx c).ft 0 8 = BitVec.ofNat 8 7 ∧ slice (t.ctx c).ft 16 16 = BitVec.ofNat 16 code
     let current := st.valid = true ∧ st.stime ≤ v.lo
     (current → starts st.stime (if d.origin = some st.stime then 2 else 0)) ∧
     (¬current → ∀ n ∈ st.landings, n ≤ v.lo → (∀ m ∈ st.landings, m ≤ v.lo → m ≤ n) → starts n 1) ∧
     (¬current → (∀ n ∈ st.landings, v.lo < n) → ∀ g, d.origin = some g → g ≤ v.lo → starts g 2) ∧
     (¬current → (∀ n ∈ st.landings, v.lo < n) → ∀ g, d.origin = some g → v.lo < g → stops 2) ∧
     (¬current → (∀ n ∈ st.landings, v.lo < n) → d.origin = none → stops 1))) ∧
  ((∀ s c, s.sched.subject.c = c → c < s.ctxs.length → (∀ w ∈ s.allFrames c, w.spilled = false) → (s.ctx c).storeLim ≠ 0xFFFF →
     (s.ctx c).storeAt + 4096 ≤ s.clock.steps →
     ∃ t, exec .storeLimitDouble s = .next t ∧ (t.ctx c).storeLim.toNat = min 0xFFFF (2 * (s.ctx c).storeLim.toNat) ∧
       (t.ctx c).storeAt = s.clock.steps ∧ t.mem = s.mem ∧ t.net = s.net) ∧
   (∀ s c, s.sched.subject.c = c → s.clock.steps < (s.ctx c).storeAt + 4096 → exec .storeLimitDouble s = .next s) ∧
   (∀ s c, s.sched.subject.c = c → c < s.ctxs.length → (s.ctx c).windowAt + 2 ^ 20 ≤ s.clock.steps → ∃ t, exec .cloneWindowCheck s = .next t ∧
     (t.ctx c).windowAt = s.clock.steps / 2 ^ 20 * 2 ^ 20 ∧ (t.ctx c).ops.length = (s.ctx c).ops.length ∧ t.mem = s.mem ∧
     ∀ o st z, (s.ctx c).ops[o]? = some st → (t.ctx c).ops[o]? = some z → z.busy = 0 ∧ z.full = 0 ∧
       (z.want = true ↔ (s.countStalls.ctx c).bottleneck o = true ∧ (s.ctx c).frameOnly o = true) ∧
       z.quiet = (if (s.countStalls.ctx c).bottleneck o then 0 else st.quiet + 1) ∧ z.clones.map (fun y => y.unit) = st.clones.map (fun y => y.unit) ∧
       (z.quiet < 4 → z.clones = st.clones) ∧
       (4 ≤ z.quiet → (∀ y ∈ st.clones, y.leaving = false) → ∀ y, z.clones.getLast? = some y → y.leaving = true)) ∧
   (∀ (x : Ctx) o, x.bottleneck o = true → ∃ d st, x.image.ops[o]? = some d ∧ x.ops[o]? = some st ∧ d.clonable = true ∧ 983040 ≤ st.busy ∧
     ∃ e p z, e ∈ x.edges ∧ (∃ i, e.cons = .op o i) ∧ e.prod = p ∧ x.ops[p]? = some z ∧ 262144 ≤ z.full) ∧
   (∀ s c o st, s.sched.subject.c = c → s.sched.subject.k = o → (s.ctx c).ops[o]? = some st → s.clock.steps < (s.ctx c).windowAt + 2 ^ 20 →
     (∀ y ∈ st.clones, y.leaving = false) →
     (st.want = true → st.clones.length < 7 → s.cloneSites c o ≠ [] → s.opRuns c o = false → ∃ t u z, exec .cloneWindowCheck s = .next t ∧
       u ∈ s.cloneSites c o ∧ (t.ctx c).ops[o]? = some z ∧ z.clones = st.clones ++ [⟨u, [], false⟩] ∧ z.want = false ∧ z.issue = st.issue) ∧
     (st.want = false ∨ 7 ≤ st.clones.length ∨ s.opRuns c o = true → ∃ t z, exec .cloneWindowCheck s = .next t ∧
       (t.ctx c).ops[o]? = some z ∧ z.clones = st.clones)) ∧
   (∀ s c o st, s.sched.subject.c = c → s.sched.subject.k = o → (s.ctx c).ops[o]? = some st → s.clock.steps < (s.ctx c).windowAt + 2 ^ 20 →
     st.want = false →
     let idle (y : Copy) : Prop := y.leaving = true ∧ (∀ r ∈ y.regs, r.2.pend = []) ∧ ∀ w ∈ s.allFrames c, w.unit ≠ y.unit
     ((s.ctx c).merged o = true ∨ (∃ y ∈ st.clones, ¬idle y) → ∃ t z, exec .cloneWindowCheck s = .next t ∧ (t.ctx c).ops[o]? = some z ∧
       ∀ y, y ∈ z.clones ↔ y ∈ st.clones ∧ ¬idle y) ∧
     ((s.ctx c).merged o = false → (∀ y ∈ st.clones, idle y) → ∃ t z, exec .cloneWindowCheck s = .next t ∧ (t.ctx c).ops[o]? = some z ∧
       z.clones = st.clones)))

/-- Halls and heat: a thermal sample enters each hall's zones at their thresholds and leaves them two degrees below, a hard throttle suppresses 12 of 16
opportunities, and at the trip point the supplies go until reset; a hall's check, 100 ms after the last, raises its voltage by a step above twice the error target, lowers it
below the target down to its floor, holds between, and leaves it once after an error; a setting held for a second becomes safe; a floor is locked for ten minutes.

The power controller: a tick takes the draw, integrates what exceeds the cap, is under pressure while it does, halves the power limit of every resident
context of levels 1 to 10 at most once in 4096 steps, and raises event 14 as pressure begins; slope bounding ends 40 us above the cap;
the package throttle moves at most once in 16 us, up by two after 64 us of pressure, down by one without; a power limit doubles 4096 steps after its last
change once pressure is over; a pending window opens at its time and an open one closes at its end; a rise may begin only in the device's own slot; a ballast burst whose time is over runs no more, and the grants stand. Where the spec is silent
or can be read two ways it follows the model's choices of log 12, 52, 53 and 87. -/
def Obligations.PowerAndHeat : Prop :=
  ((∀ (s : State) h x t, s.power.sampledAt + 10000 ≤ s.clock.ns → s.fab.halls.length = 64 → s.sched.subject.temps.length = 64 → (∀ y ∈ s.sched.subject.temps, y.toNat < 0x07D0) →
     s.fab.halls[h]? = some x → s.sched.subject.temps[h]? = some t →
     let zone (was : Bool) (limit : BitVec 16) : Bool :=
       if was then decide (limit.toNat < t.toNat + 32) else decide (limit.toNat ≤ t.toNat)
     let hard := zone x.hard s.power.thard
     ∃ y, exec .thermalSample s = .next y ∧ y.mem = s.mem ∧ y.ctxs = s.ctxs ∧ y.power.trip = s.power.trip ∧
       y.hall h = { x with
         temp := t, warn := zone x.warn s.power.twarn, thr := zone x.thr s.power.tthr, hard := hard
         khw := if hard = true ∧ x.hard = false then 12 else if x.hard = true ∧ hard = false then 0 else x.khw } ∧
       t ≤ y.power.thmax ∧ (hard = true → x.hard = false → ∃ p, ⟨dieOfHall h, 7, s.epoch (dieOfHall h), p, none⟩ ∈ y.fab.evFly) ∧ y.power.sampledAt = s.clock.ns) ∧
   (∀ s : State, s.clock.ns < s.power.sampledAt + 10000 → exec .thermalSample s = .next s) ∧
   (∀ (s : State) t, s.power.sampledAt + 10000 ≤ s.clock.ns → t ∈ s.sched.subject.temps.take 64 → 0x07D0 ≤ t.toNat →
     ∃ y, exec .thermalSample s = .next y ∧ y.power.trip = true ∧ (∀ c, (y.ctx c).status = .absent) ∧ (∀ u, y.act u = none) ∧
       y.net.reqs = [] ∧ (∀ k, k < 2 ^ 42 → Memory.get y.mem k = Memory.get s.mem k)) ∧
   (∀ (s : State) h x, s.sched.subject.k = h → s.fab.halls[h]? = some x →
     let put (y : Hall) : State := { s with fab := { s.fab with halls := modAt s.fab.halls h fun _ => y } }
     let n := s.sched.subject.e
     let due := x.checkedAt + 100000000 ≤ s.clock.ns
     let z := { x with checkedAt := s.clock.ns, erred := false }
     (¬due → exec .undervoltCheck s = .next (put x)) ∧
     (due → x.uv = false ∨ x.erred = true → exec .undervoltCheck s = .next (put z)) ∧
     (due → x.uv = true → x.erred = false → 2 * x.cetgt.toNat < n → exec .undervoltCheck s = .next (put (if x.mv.toNat < 800
       then { z with mv := BitVec.ofNat 16 (min 800 (x.mv.toNat + 5)), heldAt := s.clock.ns } else z))) ∧
     (due → x.uv = true → x.erred = false → n ≤ 2 * x.cetgt.toNat → exec .undervoltCheck s = .next (put (
       if n < x.cetgt.toNat ∧ x.floor.toNat + 5 ≤ x.mv.toNat then { z with mv := x.mv - 5, heldAt := s.clock.ns } else z))) ∧
     (exec .safePointTimer s = .next (put (if x.heldAt + 1000000000 ≤ s.clock.ns then { x with safe := x.mv } else x))) ∧
     (exec .floorLockExpire s = .next (put (if x.lock = true ∧ x.lockedAt + 600000000000 ≤ s.clock.ns then { x with lock := false, floor := 650 } else x))))) ∧
  ((∀ (s : State) d p, s.sched.subject.draw = d → s.power = p → p.tickedAt + 1000 ≤ s.clock.ns →
     let cap := 16 * p.cap.toNat
     let capi : Nat := if cap < d.w16 then min (2 ^ 32 - 1) (p.capi.toNat + (d.w16 - cap) / 16) else p.capi.toNat - (cap - d.w16) / 16
     let pressed := cap < d.w16 ∨ 0 < capi
     ∃ y, exec .powerControlTick s = .next y ∧ y.mem = s.mem ∧ y.power.w = BitVec.ofNat 32 d.w16 ∧ y.power.capi.toNat = capi ∧
       (y.power.pressure = true ↔ pressed) ∧ y.power.aboveAt = (if cap < d.w16 then some (p.aboveAt.getD p.tickedAt) else none) ∧
       y.power.mayRaise = false ∧ y.power.kp = p.kp ∧
       y.fab.evFly = s.fab.evFly ++ (if pressed ∧ p.pressure = false then [⟨0, 14, s.epoch 0, BitVec.ofNat 512 (d.w16 % 2 ^ 32), none⟩] else []) ∧
       (∀ h, (y.hall h).grant ≤ s.idleGroups h) ∧ y.power.tickedAt = s.clock.ns ∧
       ∀ (c : Nat) (x : Ctx), s.ctxs[c]? = some x → y.ctx c = if pressed ∧ x.status ≠ .absent ∧ x.prio ≠ 0 ∧ x.prio ≤ 10 ∧
         (∀ n, x.pwrAt = some n → n + 4096 ≤ s.clock.steps)
         then { x with pwrLim := BitVec.ofNat 16 (max 1 (x.live.length / 2)), pwrAt := some s.clock.steps, pwrUp := s.clock.steps } else x) ∧
   (∀ s : State, s.clock.ns < s.power.tickedAt + 1000 → exec .powerControlTick s = .next s) ∧
   (∀ (s : State) t, s.power.aboveAt = some t → t + 40000 ≤ s.clock.ns → s.power.expired = false →
     ∃ y, exec .slopeBoundExpire s = .next y ∧ y.power = { s.power with expired := true } ∧ y.mem = s.mem ∧ y.ctxs = s.ctxs) ∧
   (∀ (s : State), (s.power.aboveAt = none ∨ s.power.expired = true) → exec .slopeBoundExpire s = .next s) ∧
   (∀ (s : State) p, s.power = p →
     let goes (k : Nat) : State := { s with power := { p with kp := k, kpAt := s.clock.ns } }
     (s.clock.ns < p.kpAt + 16000 → exec .kpStep s = .next s) ∧
     (p.kpAt + 16000 ≤ s.clock.ns → p.pressure = true → p.since + 64000 ≤ s.clock.ns → exec .kpStep s = .next (goes (min 12 (p.kp + 2)))) ∧
     (p.pressure = true → s.clock.ns < p.since + 64000 → exec .kpStep s = .next s) ∧
     (p.kpAt + 16000 ≤ s.clock.ns → p.pressure = false → 0 < p.kp → exec .kpStep s = .next (goes (p.kp - 1)))) ∧
   (∀ (s : State) c, s.sched.subject.c = c →
     (c < s.ctxs.length → s.power.pressure = false → (s.ctx c).pwrLim ≠ 0xFFFF → (s.ctx c).pwrUp + 4096 ≤ s.clock.steps →
       ∃ t, exec .powerLimitDouble s = .next t ∧ (t.ctx c).pwrLim.toNat = min 0xFFFF (2 * (s.ctx c).pwrLim.toNat) ∧
         (t.ctx c).pwrUp = s.clock.steps ∧ (t.ctx c).pwrAt = (s.ctx c).pwrAt ∧ t.mem = s.mem) ∧
     (s.power.pressure = true ∨ s.clock.steps < (s.ctx c).pwrUp + 4096 → exec .powerLimitDouble s = .next s)) ∧
   (∀ (s : State) c h, s.sched.subject.c = c → s.sched.subject.k = h → c < s.ctxs.length →
     (∃ t, exec .powerWindowOpen s = .next t ∧ t.mem = s.mem ∧ t.fab = s.fab ∧ (t.ctx c).windows = (s.ctx c).windows.map fun w =>
       if w.hall = h ∧ w.openAt ≤ s.clock.ns then { w with open_ := true } else w) ∧
     (∃ t, exec .powerWindowClose s = .next t ∧ t.mem = s.mem ∧ t.fab = s.fab ∧ (t.ctx c).windows = (s.ctx c).windows.filter fun w =>
       !(w.hall = h && w.open_ && decide (w.closeAt ≤ s.clock.ns)))) ∧
   (∀ (s : State), exec .staggerSlot s = .next (if s.clock.us % 128000 = 2000 * (s.links.id.toNat % 64)
     then { s with power := { s.power with mayRaise := true } } else s)) ∧
   (∀ (s : State) bay, s.sched.subject.k = bay →
     ∃ t, exec .ballastBurstEnd s = .next t ∧ (t.macroSet bay).bursts = (s.macroSet bay).bursts.filter (fun y => s.clock.ns < y.2) ∧
       t.fab.halls = s.fab.halls ∧ t.mem = s.mem ∧ t.ctxs = s.ctxs))

/-- The opportunities of a unit: one that executes or has chosen, or has nothing ready, chooses nothing; a suppressed one
only counts, as does one at which only evicting contexts are ready; else it chooses a ready activation of the highest level there and of the oldest birth among those, and changes no
memory. A unit's chosen activation begins on the block fetched for it, under its own tag and stamp, with every record still to fire; a fetch that
fails faults it. The predictor's fetch only keeps its block ahead, for the commit that names it, or for none. A waiting
activation counts, for its stall reason, the steps since they were last counted. An epoch count advances by one, each 64 steps.

The events of the Newels: a token on its way is queued at its Newel, in its unit's order, behind at most seven of its event, or lost with the lost bit set; a Newel
that executes nothing, and has begun no handler, takes
the lowest event that is pending, enabled and of a resident context, saves its pending successor, and its handler begins with the token as its
operand. Where the spec is silent
or can be read two ways it follows the model's choices of log 83, 84, 94, 119, 129, 135 and 156. -/
def Obligations.SchedulingAndNewelEvents : Prop :=
  ((∀ s u, s.sched.subject.u = u → ((s.act u).isSome = true ∨ (s.cell u).chosen.isSome = true ∨ s.readyOn u = []) →
     exec .schedulerChoice s = .next s) ∧
   (∀ s u, s.sched.subject.u = u → s.act u = none → (s.cell u).chosen = none → s.readyOn u ≠ [] → s.suppressed u = true →
     exec .schedulerChoice s = .next (s.putCell u { s.cell u with opp := (s.cell u).opp + 1, denied := true })) ∧
   (∀ s u, s.sched.subject.u = u → s.act u = none → (s.cell u).chosen = none → s.readyOn u ≠ [] → s.suppressed u = false → s.candOn u = [] →
     exec .schedulerChoice s = .next (s.putCell u { s.cell u with opp := (s.cell u).opp + 1, denied := false })) ∧
   (∀ s u (base : BitVec 32), s.sched.subject.u = u → s.act u = none → (s.cell u).chosen = none → s.candOn u ≠ [] →
     s.suppressed u = false → (isElement u = false ∨ ∃ y ∈ s.candOn u, 1 ≤ (s.ctx y.1).level y.2) →
     (∀ y ∈ s.candOn u, (y.2.birth - base).toNat < 2 ^ 31) →
     ∃ t c w, exec .schedulerChoice s = .next t ∧ (c, w) ∈ s.candOn u ∧ (t.cell u).chosen = some w ∧ t.act u = none ∧
       (t.cell u).opp = (s.cell u).opp + 1 ∧
       (∀ y ∈ s.candOn u, (s.ctx y.1).level y.2 ≤ (s.ctx c).level w) ∧
       (∀ y ∈ s.candOn u, (s.ctx y.1).level y.2 = (s.ctx c).level w → (w.birth - base).toNat ≤ (y.2.birth - base).toNat) ∧
       t.mem = s.mem ∧ t.net = s.net) ∧
   (∀ s u w, s.sched.subject.u = u → (s.cell u).chosen = some w → (s.ctx (tagCtx w.tag)).replay = true → exec .blockFetch s = .next s) ∧
   (∀ s u w b, s.sched.subject.u = u → (s.cell u).chosen = some w → s.act u = none → (s.ctx (tagCtx w.tag)).replay = false →
     (∀ k ∈ (s.cell u).kept, ¬(k.1 = tagCtx w.tag ∧ k.2.ptr = w.ptr)) →
     s.fetchBlock u (tagCtx w.tag) w.ptr s.sched.subject.ext = .ok b →
     ∃ t a, exec .blockFetch s = .next t ∧ (t.cell u).chosen = none ∧ t.act u = some a ∧ a.blk = b ∧ a.ctx = tagCtx w.tag ∧
       a.w.tag = w.tag ∧ a.w.stamp = w.stamp ∧ a.w.ptr = w.ptr ∧ a.stage = .running ∧ a.exits = [] ∧ a.stores = [] ∧ a.effects = [] ∧
       a.recs.length = b.nodes.length ∧ (∀ j < b.nodes.length, (a.slot j).st = .idle) ∧ t.mem = s.mem ∧ t.net = s.net) ∧
   (∀ s u w cls k j va, s.sched.subject.u = u → (s.cell u).chosen = some w → s.act u = none → (s.ctx (tagCtx w.tag)).replay = false →
     (∀ k ∈ (s.cell u).kept, ¬(k.1 = tagCtx w.tag ∧ k.2.ptr = w.ptr)) →
     s.fetchBlock u (tagCtx w.tag) w.ptr s.sched.subject.ext = .error (cls, k, j, va) →
     exec .blockFetch s = .next ((s.putCell u { s.cell u with chosen := none }).takeFault u w.bare j cls k 0 va)) ∧
   (∀ s u a b e, s.sched.subject.u = u → s.act u = some a → ((a.ctx, a.w.ptr, e), s.sched.subject.ptr) ∈ (s.cell u).predict →
     s.fetchBlock u a.ctx s.sched.subject.ptr s.sched.subject.ext = .ok b →
     ∃ t, exec .predictorFetch s = .next t ∧ t.act u = some a ∧ (t.cell u).ahead = some (a.ctx, b) ∧ (t.cell u).kept = (s.cell u).kept ∧ t.mem = s.mem ∧ t.net = s.net ∧
       t.ctxs = s.ctxs) ∧
   (∀ (y : Cell) c p, (y.endAhead c p).ahead = none ∧
     (∀ k ∈ (y.endAhead c p).kept, k ∈ y.kept ∨ y.ahead = some k ∧ k.1 = c ∧ k.2.ptr = p) ∧
     ∀ k, y.ahead = some k → k.1 = c → k.2.ptr = p → k ∈ (y.endAhead c p).kept) ∧
   (∀ (s : State) (x : Ctx) b w, x.parkedRing b = false → x.ready w = true → s.stallReason x b w =
     if (s.cell w.unit).denied = true ∧ (s.cell w.unit).act = none ∧ (s.cell w.unit).chosen = none then 5 else 3) ∧
   (∀ s c n b u r, c < 4 → c < s.ctxs.length → s.resident c = true → (s.ctx c).block? n = some b → (s.ctx c).unitOf n = u →
     (getKey ((s.ctx c).elem u).stall n (List.replicate 6 0)).length = 6 →
     s.tagnWaits u c b.ptr = false → s.issueReason c n b = [] →
     (∃ w ∈ (s.ctx c).waiting, w.unit = u ∧ w.ptr = b.ptr ∧ w.counts = true) →
     (∀ w ∈ (s.ctx c).waiting, w.unit = u → w.ptr = b.ptr → w.counts = true → s.stallReason (s.ctx c) b w = r) →
     ∃ t, exec .stallCounterStep s = .next t ∧
       ((t.ctx c).elem u).stallOf n r = min (2 ^ 48 - 1) (((s.ctx c).elem u).stallOf n r + (s.clock.steps - s.fab.countedAt)) ∧ t.fab.countedAt = s.clock.steps ∧
       (t.ctx c).waiting = (s.ctx c).waiting ∧ t.mem = s.mem ∧ t.net = s.net ∧ t.cells = s.cells) ∧
   (∀ s, ∃ t, exec .epochCountAdvance s = .next t ∧ t.mem = s.mem ∧ t.ctxs = s.ctxs ∧ t.cells = s.cells ∧ t.net = s.net ∧
     ∀ d, t.epoch d = if d = s.sched.subject.k ∧ d < s.fab.epochs.length ∧
       (s.fab.epochs.getD d 0 + 1) * 64 ≤ s.clock.steps - s.fab.epochFrom + Config.epochPhase d % 64 then s.epoch d + 1 else s.epoch d)) ∧
  ((∀ (s : State) k e x, s.sched.subject.k = k → s.fab.evFly[k]? = some e → s.newels[e.die]? = some x →
     let behind := e.by_ ≠ none ∧ ∃ y ∈ s.fab.evFly.take k, y.die = e.die ∧ y.by_ = e.by_
     (behind → exec .eventQueue s = .next s) ∧
     (¬behind → ∃ t y, exec .eventQueue s = .next t ∧ t.newels[e.die]? = some y ∧ t.fab.evFly = s.fab.evFly.take k ++ s.fab.evFly.drop (k + 1) ∧
       t.mem = s.mem ∧
       ((x.queued.filter fun q => q.1 = e.n).length < 8 → y = { x with queued := x.queued ++ [(e.n, e.birth, e.tok)] }) ∧
       (8 ≤ (x.queued.filter fun q => q.1 = e.n).length → y.queued = x.queued ∧ y.taken = x.taken ∧ y.saved = x.saved ∧
         ∀ i w, x.evt[i]? = some w → y.evt[i]? = some (if i = e.n then w ||| 32#64 else w)))) ∧
   (∀ (s : State) die x i w birth tok, s.sched.subject.k = die → die < 4 → s.newels[die]? = some x → s.act (.newel die) = none →
     (s.cell (.newel die)).chosen = none → x.saved.length < 4 → i < 32 → x.evt[i]? = some w → bit w 0 = true →
     x.queued.find? (fun q => q.1 = i) = some (i, birth, tok) → s.resident (slice w 2 2).toNat = true →
     (∀ j < i, bit (x.evt.getD j 0) 0 = false ∨ (∀ q ∈ x.queued, q.1 ≠ j) ∨ s.resident (slice (x.evt.getD j 0) 2 2).toNat = false) →
     ∃ t y h, exec .newelEventTake s = .next t ∧ (t.cell (.newel die)).chosen = some h ∧ h.kind = .handler i true ∧
       h.ptr = (slice w 6 58).setWidth 66 ∧ h.birth = birth ∧
       h.slots.map (·.val) = [some ⟨.course, tok, false⟩] ∧ tagCtx h.tag = (slice w 2 2).toNat ∧ t.newels[die]? = some y ∧
       y.queued = removeOne x.queued (i, birth, tok) ∧ y.evt = x.evt ∧ t.mem = s.mem ∧
       y.taken = modAt x.taken i (fun n => n + 1) ∧
       (s.successorOf (.newel die) = none → y.saved = x.saved) ∧
       (∀ v, s.successorOf (.newel die) = some v → y.saved = x.saved ++ [some v])) ∧
   (∀ (s : State) die, s.sched.subject.k = die →
     (s.act (.newel die)).isSome = true ∨ (∃ h i, (s.cell (.newel die)).chosen = some h ∧ h.kind = .handler i true) →
     ∃ t, exec .newelEventTake s = .next t ∧ t = { s with host := t.host } ∧
       t.host = if s.sched.subject.flag = true ∧ die = 0 then { s.host with msix := s.host.msix ||| 2#3 } else s.host))
end

