-- ==== Sys2Proof/Laws/Decode.lean ====
section
/-! SUPPORT. A record form and its instruction name each other. -/
namespace Sys2Proof

/-- The instruction of a form has that form and its fields. -/
@[simp] theorem Op.record_instr (o : Op) (r : Rec) : (o.instr r).record? = some (o, r) := by
  cases o <;> rfl

/-- An instruction with a form is the instruction of that form. -/
theorem Instr.of_record {i : Instr} {o : Op} {r : Rec} (h : i.record? = some (o, r)) : i = o.instr r := by
  cases i <;> cases h <;> rfl

/-- The forms of different fields, or different forms, are different instructions. -/
theorem Op.instr_inj {o p : Op} {q r : Rec} (h : o.instr q = p.instr r) : o = p ∧ q = r := by
  have e := congrArg Instr.record? h
  rw [Op.record_instr, Op.record_instr] at e
  cases e
  exact ⟨rfl, rfl⟩

end Sys2Proof
end

