-- ==== Sys2Proof/Laws/State.lean ====
section
/-! SUPPORT. What each update of the state leaves of each field: one equation per field and update. -/
namespace Sys2Proof.Machine

/-! ### putCell -/

@[simp] theorem State.putCell_sched (s : State) (u : UnitId) (x : Cell) : (s.putCell u x).sched = s.sched := rfl
@[simp] theorem State.putCell_clock (s : State) (u : UnitId) (x : Cell) : (s.putCell u x).clock = s.clock := rfl
@[simp] theorem State.putCell_ctxs (s : State) (u : UnitId) (x : Cell) : (s.putCell u x).ctxs = s.ctxs := rfl
@[simp] theorem State.putCell_cells (s : State) (u : UnitId) (x : Cell) : (s.putCell u x).cells = setKey s.cells u x := rfl
@[simp] theorem State.putCell_newels (s : State) (u : UnitId) (x : Cell) : (s.putCell u x).newels = s.newels := rfl
@[simp] theorem State.putCell_mem (s : State) (u : UnitId) (x : Cell) : (s.putCell u x).mem = s.mem := rfl
@[simp] theorem State.putCell_net (s : State) (u : UnitId) (x : Cell) : (s.putCell u x).net = s.net := rfl
@[simp] theorem State.putCell_fab (s : State) (u : UnitId) (x : Cell) : (s.putCell u x).fab = s.fab := rfl
@[simp] theorem State.putCell_power (s : State) (u : UnitId) (x : Cell) : (s.putCell u x).power = s.power := rfl
@[simp] theorem State.putCell_host (s : State) (u : UnitId) (x : Cell) : (s.putCell u x).host = s.host := rfl
@[simp] theorem State.putCell_links (s : State) (u : UnitId) (x : Cell) : (s.putCell u x).links = s.links := rfl

/-! ### putAct -/

@[simp] theorem State.putAct_sched (s : State) (u : UnitId) (a : Act) : (s.putAct u a).sched = s.sched := rfl
@[simp] theorem State.putAct_clock (s : State) (u : UnitId) (a : Act) : (s.putAct u a).clock = s.clock := rfl
@[simp] theorem State.putAct_ctxs (s : State) (u : UnitId) (a : Act) : (s.putAct u a).ctxs = s.ctxs := rfl
@[simp] theorem State.putAct_cells (s : State) (u : UnitId) (a : Act) : (s.putAct u a).cells = setKey s.cells u { s.cell u with act := some a } := rfl
@[simp] theorem State.putAct_newels (s : State) (u : UnitId) (a : Act) : (s.putAct u a).newels = s.newels := rfl
@[simp] theorem State.putAct_mem (s : State) (u : UnitId) (a : Act) : (s.putAct u a).mem = s.mem := rfl
@[simp] theorem State.putAct_net (s : State) (u : UnitId) (a : Act) : (s.putAct u a).net = s.net := rfl
@[simp] theorem State.putAct_fab (s : State) (u : UnitId) (a : Act) : (s.putAct u a).fab = s.fab := rfl
@[simp] theorem State.putAct_power (s : State) (u : UnitId) (a : Act) : (s.putAct u a).power = s.power := rfl
@[simp] theorem State.putAct_host (s : State) (u : UnitId) (a : Act) : (s.putAct u a).host = s.host := rfl
@[simp] theorem State.putAct_links (s : State) (u : UnitId) (a : Act) : (s.putAct u a).links = s.links := rfl

/-! ### freeUnit -/

@[simp] theorem State.freeUnit_sched (s : State) (u : UnitId) : (s.freeUnit u).sched = s.sched := rfl
@[simp] theorem State.freeUnit_clock (s : State) (u : UnitId) : (s.freeUnit u).clock = s.clock := rfl
@[simp] theorem State.freeUnit_ctxs (s : State) (u : UnitId) : (s.freeUnit u).ctxs = s.ctxs := rfl
@[simp] theorem State.freeUnit_cells (s : State) (u : UnitId) : (s.freeUnit u).cells = setKey s.cells u { s.cell u with act := none, chosen := none, ahead := none } := rfl
@[simp] theorem State.freeUnit_newels (s : State) (u : UnitId) : (s.freeUnit u).newels = s.newels := rfl
@[simp] theorem State.freeUnit_mem (s : State) (u : UnitId) : (s.freeUnit u).mem = s.mem := rfl
@[simp] theorem State.freeUnit_net (s : State) (u : UnitId) : (s.freeUnit u).net = s.net := rfl
@[simp] theorem State.freeUnit_fab (s : State) (u : UnitId) : (s.freeUnit u).fab = s.fab := rfl
@[simp] theorem State.freeUnit_power (s : State) (u : UnitId) : (s.freeUnit u).power = s.power := rfl
@[simp] theorem State.freeUnit_host (s : State) (u : UnitId) : (s.freeUnit u).host = s.host := rfl
@[simp] theorem State.freeUnit_links (s : State) (u : UnitId) : (s.freeUnit u).links = s.links := rfl

/-! ### modCtx -/

@[simp] theorem State.modCtx_sched (s : State) (c : Nat) (f : Ctx → Ctx) : (s.modCtx c f).sched = s.sched := rfl
@[simp] theorem State.modCtx_clock (s : State) (c : Nat) (f : Ctx → Ctx) : (s.modCtx c f).clock = s.clock := rfl
@[simp] theorem State.modCtx_ctxs (s : State) (c : Nat) (f : Ctx → Ctx) : (s.modCtx c f).ctxs = modAt s.ctxs c f := rfl
@[simp] theorem State.modCtx_cells (s : State) (c : Nat) (f : Ctx → Ctx) : (s.modCtx c f).cells = s.cells := rfl
@[simp] theorem State.modCtx_newels (s : State) (c : Nat) (f : Ctx → Ctx) : (s.modCtx c f).newels = s.newels := rfl
@[simp] theorem State.modCtx_mem (s : State) (c : Nat) (f : Ctx → Ctx) : (s.modCtx c f).mem = s.mem := rfl
@[simp] theorem State.modCtx_net (s : State) (c : Nat) (f : Ctx → Ctx) : (s.modCtx c f).net = s.net := rfl
@[simp] theorem State.modCtx_fab (s : State) (c : Nat) (f : Ctx → Ctx) : (s.modCtx c f).fab = s.fab := rfl
@[simp] theorem State.modCtx_power (s : State) (c : Nat) (f : Ctx → Ctx) : (s.modCtx c f).power = s.power := rfl
@[simp] theorem State.modCtx_host (s : State) (c : Nat) (f : Ctx → Ctx) : (s.modCtx c f).host = s.host := rfl
@[simp] theorem State.modCtx_links (s : State) (c : Nat) (f : Ctx → Ctx) : (s.modCtx c f).links = s.links := rfl

/-! ### modNewel -/

@[simp] theorem State.modNewel_sched (s : State) (d : Nat) (f : Newel → Newel) : (s.modNewel d f).sched = s.sched := rfl
@[simp] theorem State.modNewel_clock (s : State) (d : Nat) (f : Newel → Newel) : (s.modNewel d f).clock = s.clock := rfl
@[simp] theorem State.modNewel_ctxs (s : State) (d : Nat) (f : Newel → Newel) : (s.modNewel d f).ctxs = s.ctxs := rfl
@[simp] theorem State.modNewel_cells (s : State) (d : Nat) (f : Newel → Newel) : (s.modNewel d f).cells = s.cells := rfl
@[simp] theorem State.modNewel_newels (s : State) (d : Nat) (f : Newel → Newel) : (s.modNewel d f).newels = modAt s.newels d f := rfl
@[simp] theorem State.modNewel_mem (s : State) (d : Nat) (f : Newel → Newel) : (s.modNewel d f).mem = s.mem := rfl
@[simp] theorem State.modNewel_net (s : State) (d : Nat) (f : Newel → Newel) : (s.modNewel d f).net = s.net := rfl
@[simp] theorem State.modNewel_fab (s : State) (d : Nat) (f : Newel → Newel) : (s.modNewel d f).fab = s.fab := rfl
@[simp] theorem State.modNewel_power (s : State) (d : Nat) (f : Newel → Newel) : (s.modNewel d f).power = s.power := rfl
@[simp] theorem State.modNewel_host (s : State) (d : Nat) (f : Newel → Newel) : (s.modNewel d f).host = s.host := rfl
@[simp] theorem State.modNewel_links (s : State) (d : Nat) (f : Newel → Newel) : (s.modNewel d f).links = s.links := rfl

/-! ### modHall -/

@[simp] theorem State.modHall_sched (s : State) (h : Nat) (f : Hall → Hall) : (s.modHall h f).sched = s.sched := rfl
@[simp] theorem State.modHall_clock (s : State) (h : Nat) (f : Hall → Hall) : (s.modHall h f).clock = s.clock := rfl
@[simp] theorem State.modHall_ctxs (s : State) (h : Nat) (f : Hall → Hall) : (s.modHall h f).ctxs = s.ctxs := rfl
@[simp] theorem State.modHall_cells (s : State) (h : Nat) (f : Hall → Hall) : (s.modHall h f).cells = s.cells := rfl
@[simp] theorem State.modHall_newels (s : State) (h : Nat) (f : Hall → Hall) : (s.modHall h f).newels = s.newels := rfl
@[simp] theorem State.modHall_mem (s : State) (h : Nat) (f : Hall → Hall) : (s.modHall h f).mem = s.mem := rfl
@[simp] theorem State.modHall_net (s : State) (h : Nat) (f : Hall → Hall) : (s.modHall h f).net = s.net := rfl
@[simp] theorem State.modHall_fab (s : State) (h : Nat) (f : Hall → Hall) : (s.modHall h f).fab = { s.fab with halls := modAt s.fab.halls h f } := rfl
@[simp] theorem State.modHall_power (s : State) (h : Nat) (f : Hall → Hall) : (s.modHall h f).power = s.power := rfl
@[simp] theorem State.modHall_host (s : State) (h : Nat) (f : Hall → Hall) : (s.modHall h f).host = s.host := rfl
@[simp] theorem State.modHall_links (s : State) (h : Nat) (f : Hall → Hall) : (s.modHall h f).links = s.links := rfl
@[simp] theorem State.modHall_fab_halls (s : State) (h : Nat) (f : Hall → Hall) : (s.modHall h f).fab.halls = modAt s.fab.halls h f := rfl
@[simp] theorem State.modHall_fab_sets (s : State) (h : Nat) (f : Hall → Hall) : (s.modHall h f).fab.sets = s.fab.sets := rfl
@[simp] theorem State.modHall_fab_hbm (s : State) (h : Nat) (f : Hall → Hall) : (s.modHall h f).fab.hbm = s.fab.hbm := rfl
@[simp] theorem State.modHall_fab_dies (s : State) (h : Nat) (f : Hall → Hall) : (s.modHall h f).fab.dies = s.fab.dies := rfl
@[simp] theorem State.modHall_fab_dead (s : State) (h : Nat) (f : Hall → Hall) : (s.modHall h f).fab.dead = s.fab.dead := rfl
@[simp] theorem State.modHall_fab_failed (s : State) (h : Nat) (f : Hall → Hall) : (s.modHall h f).fab.failed = s.fab.failed := rfl
@[simp] theorem State.modHall_fab_epochs (s : State) (h : Nat) (f : Hall → Hall) : (s.modHall h f).fab.epochs = s.fab.epochs := rfl
@[simp] theorem State.modHall_fab_evFly (s : State) (h : Nat) (f : Hall → Hall) : (s.modHall h f).fab.evFly = s.fab.evFly := rfl

/-! ### markRow -/

@[simp] theorem State.markRow_sched (s : State) (h : Nat) : (s.markRow h).sched = s.sched := rfl
@[simp] theorem State.markRow_clock (s : State) (h : Nat) : (s.markRow h).clock = s.clock := rfl
@[simp] theorem State.markRow_ctxs (s : State) (h : Nat) : (s.markRow h).ctxs = s.ctxs := rfl
@[simp] theorem State.markRow_cells (s : State) (h : Nat) : (s.markRow h).cells = s.cells := rfl
@[simp] theorem State.markRow_newels (s : State) (h : Nat) : (s.markRow h).newels = s.newels := rfl
@[simp] theorem State.markRow_mem (s : State) (h : Nat) : (s.markRow h).mem = s.mem := rfl
@[simp] theorem State.markRow_net (s : State) (h : Nat) : (s.markRow h).net = s.net := rfl
@[simp] theorem State.markRow_power (s : State) (h : Nat) : (s.markRow h).power = s.power := rfl
@[simp] theorem State.markRow_host (s : State) (h : Nat) : (s.markRow h).host = s.host := rfl
@[simp] theorem State.markRow_links (s : State) (h : Nat) : (s.markRow h).links = s.links := rfl
@[simp] theorem State.markRow_fab_halls (s : State) (h : Nat) : (s.markRow h).fab.halls = s.fab.halls := rfl
@[simp] theorem State.markRow_fab_sets (s : State) (h : Nat) : (s.markRow h).fab.sets = s.fab.sets := rfl
@[simp] theorem State.markRow_fab_hbm (s : State) (h : Nat) : (s.markRow h).fab.hbm = s.fab.hbm := rfl
@[simp] theorem State.markRow_fab_dead (s : State) (h : Nat) : (s.markRow h).fab.dead = s.fab.dead := rfl
@[simp] theorem State.markRow_fab_failed (s : State) (h : Nat) : (s.markRow h).fab.failed = s.fab.failed := rfl
@[simp] theorem State.markRow_fab_epochs (s : State) (h : Nat) : (s.markRow h).fab.epochs = s.fab.epochs := rfl
@[simp] theorem State.markRow_fab_evFly (s : State) (h : Nat) : (s.markRow h).fab.evFly = s.fab.evFly := rfl

/-! ### putMem -/

@[simp] theorem State.putMem_sched (s : State) (m : Memory) : (s.putMem m).sched = s.sched := rfl
@[simp] theorem State.putMem_clock (s : State) (m : Memory) : (s.putMem m).clock = s.clock := rfl
@[simp] theorem State.putMem_ctxs (s : State) (m : Memory) : (s.putMem m).ctxs = s.ctxs := rfl
@[simp] theorem State.putMem_cells (s : State) (m : Memory) : (s.putMem m).cells = s.cells := rfl
@[simp] theorem State.putMem_newels (s : State) (m : Memory) : (s.putMem m).newels = s.newels := rfl
@[simp] theorem State.putMem_mem (s : State) (m : Memory) : (s.putMem m).mem = m := rfl
@[simp] theorem State.putMem_net (s : State) (m : Memory) : (s.putMem m).net = s.net := rfl
@[simp] theorem State.putMem_fab (s : State) (m : Memory) : (s.putMem m).fab = s.fab := rfl
@[simp] theorem State.putMem_power (s : State) (m : Memory) : (s.putMem m).power = s.power := rfl
@[simp] theorem State.putMem_host (s : State) (m : Memory) : (s.putMem m).host = s.host := rfl
@[simp] theorem State.putMem_links (s : State) (m : Memory) : (s.putMem m).links = s.links := rfl

/-! ### emit -/

@[simp] theorem State.emit_sched (s : State) (o : OutMsg) : (s.emit o).sched = s.sched := rfl
@[simp] theorem State.emit_clock (s : State) (o : OutMsg) : (s.emit o).clock = s.clock := rfl
@[simp] theorem State.emit_ctxs (s : State) (o : OutMsg) : (s.emit o).ctxs = s.ctxs := rfl
@[simp] theorem State.emit_cells (s : State) (o : OutMsg) : (s.emit o).cells = s.cells := rfl
@[simp] theorem State.emit_newels (s : State) (o : OutMsg) : (s.emit o).newels = s.newels := rfl
@[simp] theorem State.emit_mem (s : State) (o : OutMsg) : (s.emit o).mem = s.mem := rfl
@[simp] theorem State.emit_net (s : State) (o : OutMsg) : (s.emit o).net = { s.net with out := s.net.out ++ [o] } := rfl
@[simp] theorem State.emit_fab (s : State) (o : OutMsg) : (s.emit o).fab = s.fab := rfl
@[simp] theorem State.emit_power (s : State) (o : OutMsg) : (s.emit o).power = s.power := rfl
@[simp] theorem State.emit_host (s : State) (o : OutMsg) : (s.emit o).host = s.host := rfl
@[simp] theorem State.emit_links (s : State) (o : OutMsg) : (s.emit o).links = s.links := rfl
@[simp] theorem State.emit_net_structs (s : State) (o : OutMsg) : (s.emit o).net.structs = s.net.structs := rfl
@[simp] theorem State.emit_net_captags (s : State) (o : OutMsg) : (s.emit o).net.captags = s.net.captags := rfl
@[simp] theorem State.emit_net_poison (s : State) (o : OutMsg) : (s.emit o).net.poison = s.net.poison := rfl
@[simp] theorem State.emit_net_asidTab (s : State) (o : OutMsg) : (s.emit o).net.asidTab = s.net.asidTab := rfl
@[simp] theorem State.emit_net_cache (s : State) (o : OutMsg) : (s.emit o).net.cache = s.net.cache := rfl
@[simp] theorem State.emit_net_wins (s : State) (o : OutMsg) : (s.emit o).net.wins = s.net.wins := rfl
@[simp] theorem State.emit_net_reqs (s : State) (o : OutMsg) : (s.emit o).net.reqs = s.net.reqs := rfl
@[simp] theorem State.emit_net_nextReq (s : State) (o : OutMsg) : (s.emit o).net.nextReq = s.net.nextReq := rfl
@[simp] theorem State.emit_net_tlbis (s : State) (o : OutMsg) : (s.emit o).net.tlbis = s.net.tlbis := rfl
@[simp] theorem State.emit_net_nextTlbi (s : State) (o : OutMsg) : (s.emit o).net.nextTlbi = s.net.nextTlbi := rfl
@[simp] theorem State.emit_net_migs (s : State) (o : OutMsg) : (s.emit o).net.migs = s.net.migs := rfl
@[simp] theorem State.emit_net_contribs (s : State) (o : OutMsg) : (s.emit o).net.contribs = s.net.contribs := rfl
@[simp] theorem State.emit_net_nextCon (s : State) (o : OutMsg) : (s.emit o).net.nextCon = s.net.nextCon := rfl
@[simp] theorem State.emit_net_engines (s : State) (o : OutMsg) : (s.emit o).net.engines = s.net.engines := rfl
@[simp] theorem State.emit_net_nextEng (s : State) (o : OutMsg) : (s.emit o).net.nextEng = s.net.nextEng := rfl
@[simp] theorem State.emit_net_heldChunk (s : State) (o : OutMsg) : (s.emit o).net.heldChunk = s.net.heldChunk := rfl
@[simp] theorem State.emit_net_saves (s : State) (o : OutMsg) : (s.emit o).net.saves = s.net.saves := rfl
@[simp] theorem State.emit_net_ringHeld (s : State) (o : OutMsg) : (s.emit o).net.ringHeld = s.net.ringHeld := rfl
@[simp] theorem State.emit_net_nextTask (s : State) (o : OutMsg) : (s.emit o).net.nextTask = s.net.nextTask := rfl
@[simp] theorem State.emit_net_out (s : State) (o : OutMsg) : (s.emit o).net.out = s.net.out ++ [o] := rfl

/-! ### raiseBy -/

@[simp] theorem State.raiseBy_sched (s : State) (u : Option UnitId) (die n : Nat) (tok : Course) : (s.raiseBy u die n tok).sched = s.sched := rfl
@[simp] theorem State.raiseBy_clock (s : State) (u : Option UnitId) (die n : Nat) (tok : Course) : (s.raiseBy u die n tok).clock = s.clock := rfl
@[simp] theorem State.raiseBy_ctxs (s : State) (u : Option UnitId) (die n : Nat) (tok : Course) : (s.raiseBy u die n tok).ctxs = s.ctxs := rfl
@[simp] theorem State.raiseBy_cells (s : State) (u : Option UnitId) (die n : Nat) (tok : Course) : (s.raiseBy u die n tok).cells = s.cells := rfl
@[simp] theorem State.raiseBy_newels (s : State) (u : Option UnitId) (die n : Nat) (tok : Course) : (s.raiseBy u die n tok).newels = s.newels := rfl
@[simp] theorem State.raiseBy_mem (s : State) (u : Option UnitId) (die n : Nat) (tok : Course) : (s.raiseBy u die n tok).mem = s.mem := rfl
@[simp] theorem State.raiseBy_net (s : State) (u : Option UnitId) (die n : Nat) (tok : Course) : (s.raiseBy u die n tok).net = s.net := rfl
@[simp] theorem State.raiseBy_fab (s : State) (u : Option UnitId) (die n : Nat) (tok : Course) : (s.raiseBy u die n tok).fab = { s.fab with evFly := s.fab.evFly ++ [⟨die, n, s.epoch die, tok, u⟩] } := rfl
@[simp] theorem State.raiseBy_power (s : State) (u : Option UnitId) (die n : Nat) (tok : Course) : (s.raiseBy u die n tok).power = s.power := rfl
@[simp] theorem State.raiseBy_host (s : State) (u : Option UnitId) (die n : Nat) (tok : Course) : (s.raiseBy u die n tok).host = s.host := rfl
@[simp] theorem State.raiseBy_links (s : State) (u : Option UnitId) (die n : Nat) (tok : Course) : (s.raiseBy u die n tok).links = s.links := rfl
@[simp] theorem State.raiseBy_fab_halls (s : State) (u : Option UnitId) (die n : Nat) (tok : Course) : (s.raiseBy u die n tok).fab.halls = s.fab.halls := rfl
@[simp] theorem State.raiseBy_fab_sets (s : State) (u : Option UnitId) (die n : Nat) (tok : Course) : (s.raiseBy u die n tok).fab.sets = s.fab.sets := rfl
@[simp] theorem State.raiseBy_fab_hbm (s : State) (u : Option UnitId) (die n : Nat) (tok : Course) : (s.raiseBy u die n tok).fab.hbm = s.fab.hbm := rfl
@[simp] theorem State.raiseBy_fab_dies (s : State) (u : Option UnitId) (die n : Nat) (tok : Course) : (s.raiseBy u die n tok).fab.dies = s.fab.dies := rfl
@[simp] theorem State.raiseBy_fab_dead (s : State) (u : Option UnitId) (die n : Nat) (tok : Course) : (s.raiseBy u die n tok).fab.dead = s.fab.dead := rfl
@[simp] theorem State.raiseBy_fab_failed (s : State) (u : Option UnitId) (die n : Nat) (tok : Course) : (s.raiseBy u die n tok).fab.failed = s.fab.failed := rfl
@[simp] theorem State.raiseBy_fab_epochs (s : State) (u : Option UnitId) (die n : Nat) (tok : Course) : (s.raiseBy u die n tok).fab.epochs = s.fab.epochs := rfl
@[simp] theorem State.raiseBy_fab_evFly (s : State) (u : Option UnitId) (die n : Nat) (tok : Course) : (s.raiseBy u die n tok).fab.evFly = s.fab.evFly ++ [⟨die, n, s.epoch die, tok, u⟩] := rfl

/-! ### raise -/

@[simp] theorem State.raise_sched (s : State) (die n : Nat) (tok : Course) : (s.raise die n tok).sched = s.sched := rfl
@[simp] theorem State.raise_clock (s : State) (die n : Nat) (tok : Course) : (s.raise die n tok).clock = s.clock := rfl
@[simp] theorem State.raise_ctxs (s : State) (die n : Nat) (tok : Course) : (s.raise die n tok).ctxs = s.ctxs := rfl
@[simp] theorem State.raise_cells (s : State) (die n : Nat) (tok : Course) : (s.raise die n tok).cells = s.cells := rfl
@[simp] theorem State.raise_newels (s : State) (die n : Nat) (tok : Course) : (s.raise die n tok).newels = s.newels := rfl
@[simp] theorem State.raise_mem (s : State) (die n : Nat) (tok : Course) : (s.raise die n tok).mem = s.mem := rfl
@[simp] theorem State.raise_net (s : State) (die n : Nat) (tok : Course) : (s.raise die n tok).net = s.net := rfl
@[simp] theorem State.raise_fab (s : State) (die n : Nat) (tok : Course) : (s.raise die n tok).fab = { s.fab with evFly := s.fab.evFly ++ [⟨die, n, s.epoch die, tok, none⟩] } := rfl
@[simp] theorem State.raise_power (s : State) (die n : Nat) (tok : Course) : (s.raise die n tok).power = s.power := rfl
@[simp] theorem State.raise_host (s : State) (die n : Nat) (tok : Course) : (s.raise die n tok).host = s.host := rfl
@[simp] theorem State.raise_links (s : State) (die n : Nat) (tok : Course) : (s.raise die n tok).links = s.links := rfl
@[simp] theorem State.raise_fab_halls (s : State) (die n : Nat) (tok : Course) : (s.raise die n tok).fab.halls = s.fab.halls := rfl
@[simp] theorem State.raise_fab_sets (s : State) (die n : Nat) (tok : Course) : (s.raise die n tok).fab.sets = s.fab.sets := rfl
@[simp] theorem State.raise_fab_hbm (s : State) (die n : Nat) (tok : Course) : (s.raise die n tok).fab.hbm = s.fab.hbm := rfl
@[simp] theorem State.raise_fab_dies (s : State) (die n : Nat) (tok : Course) : (s.raise die n tok).fab.dies = s.fab.dies := rfl
@[simp] theorem State.raise_fab_dead (s : State) (die n : Nat) (tok : Course) : (s.raise die n tok).fab.dead = s.fab.dead := rfl
@[simp] theorem State.raise_fab_failed (s : State) (die n : Nat) (tok : Course) : (s.raise die n tok).fab.failed = s.fab.failed := rfl
@[simp] theorem State.raise_fab_epochs (s : State) (die n : Nat) (tok : Course) : (s.raise die n tok).fab.epochs = s.fab.epochs := rfl
@[simp] theorem State.raise_fab_evFly (s : State) (die n : Nat) (tok : Course) : (s.raise die n tok).fab.evFly = s.fab.evFly ++ [⟨die, n, s.epoch die, tok, none⟩] := rfl

/-! ### modReq -/

@[simp] theorem State.modReq_sched (s : State) (i : Nat) (f : Req → Req) : (s.modReq i f).sched = s.sched := rfl
@[simp] theorem State.modReq_clock (s : State) (i : Nat) (f : Req → Req) : (s.modReq i f).clock = s.clock := rfl
@[simp] theorem State.modReq_ctxs (s : State) (i : Nat) (f : Req → Req) : (s.modReq i f).ctxs = s.ctxs := rfl
@[simp] theorem State.modReq_cells (s : State) (i : Nat) (f : Req → Req) : (s.modReq i f).cells = s.cells := rfl
@[simp] theorem State.modReq_newels (s : State) (i : Nat) (f : Req → Req) : (s.modReq i f).newels = s.newels := rfl
@[simp] theorem State.modReq_mem (s : State) (i : Nat) (f : Req → Req) : (s.modReq i f).mem = s.mem := rfl
@[simp] theorem State.modReq_net (s : State) (i : Nat) (f : Req → Req) : (s.modReq i f).net = { s.net with reqs := s.net.reqs.map fun q => if q.id = i then f q else q } := rfl
@[simp] theorem State.modReq_fab (s : State) (i : Nat) (f : Req → Req) : (s.modReq i f).fab = s.fab := rfl
@[simp] theorem State.modReq_power (s : State) (i : Nat) (f : Req → Req) : (s.modReq i f).power = s.power := rfl
@[simp] theorem State.modReq_host (s : State) (i : Nat) (f : Req → Req) : (s.modReq i f).host = s.host := rfl
@[simp] theorem State.modReq_links (s : State) (i : Nat) (f : Req → Req) : (s.modReq i f).links = s.links := rfl
@[simp] theorem State.modReq_net_structs (s : State) (i : Nat) (f : Req → Req) : (s.modReq i f).net.structs = s.net.structs := rfl
@[simp] theorem State.modReq_net_captags (s : State) (i : Nat) (f : Req → Req) : (s.modReq i f).net.captags = s.net.captags := rfl
@[simp] theorem State.modReq_net_poison (s : State) (i : Nat) (f : Req → Req) : (s.modReq i f).net.poison = s.net.poison := rfl
@[simp] theorem State.modReq_net_asidTab (s : State) (i : Nat) (f : Req → Req) : (s.modReq i f).net.asidTab = s.net.asidTab := rfl
@[simp] theorem State.modReq_net_cache (s : State) (i : Nat) (f : Req → Req) : (s.modReq i f).net.cache = s.net.cache := rfl
@[simp] theorem State.modReq_net_wins (s : State) (i : Nat) (f : Req → Req) : (s.modReq i f).net.wins = s.net.wins := rfl
@[simp] theorem State.modReq_net_nextReq (s : State) (i : Nat) (f : Req → Req) : (s.modReq i f).net.nextReq = s.net.nextReq := rfl
@[simp] theorem State.modReq_net_tlbis (s : State) (i : Nat) (f : Req → Req) : (s.modReq i f).net.tlbis = s.net.tlbis := rfl
@[simp] theorem State.modReq_net_nextTlbi (s : State) (i : Nat) (f : Req → Req) : (s.modReq i f).net.nextTlbi = s.net.nextTlbi := rfl
@[simp] theorem State.modReq_net_migs (s : State) (i : Nat) (f : Req → Req) : (s.modReq i f).net.migs = s.net.migs := rfl
@[simp] theorem State.modReq_net_contribs (s : State) (i : Nat) (f : Req → Req) : (s.modReq i f).net.contribs = s.net.contribs := rfl
@[simp] theorem State.modReq_net_nextCon (s : State) (i : Nat) (f : Req → Req) : (s.modReq i f).net.nextCon = s.net.nextCon := rfl
@[simp] theorem State.modReq_net_engines (s : State) (i : Nat) (f : Req → Req) : (s.modReq i f).net.engines = s.net.engines := rfl
@[simp] theorem State.modReq_net_nextEng (s : State) (i : Nat) (f : Req → Req) : (s.modReq i f).net.nextEng = s.net.nextEng := rfl
@[simp] theorem State.modReq_net_heldChunk (s : State) (i : Nat) (f : Req → Req) : (s.modReq i f).net.heldChunk = s.net.heldChunk := rfl
@[simp] theorem State.modReq_net_saves (s : State) (i : Nat) (f : Req → Req) : (s.modReq i f).net.saves = s.net.saves := rfl
@[simp] theorem State.modReq_net_ringHeld (s : State) (i : Nat) (f : Req → Req) : (s.modReq i f).net.ringHeld = s.net.ringHeld := rfl
@[simp] theorem State.modReq_net_nextTask (s : State) (i : Nat) (f : Req → Req) : (s.modReq i f).net.nextTask = s.net.nextTask := rfl
@[simp] theorem State.modReq_net_out (s : State) (i : Nat) (f : Req → Req) : (s.modReq i f).net.out = s.net.out := rfl

/-! ### addReq -/

@[simp] theorem State.addReq_sched (s : State) (q : Req) : (s.addReq q).sched = s.sched := rfl
@[simp] theorem State.addReq_clock (s : State) (q : Req) : (s.addReq q).clock = s.clock := rfl
@[simp] theorem State.addReq_ctxs (s : State) (q : Req) : (s.addReq q).ctxs = s.ctxs := rfl
@[simp] theorem State.addReq_cells (s : State) (q : Req) : (s.addReq q).cells = s.cells := rfl
@[simp] theorem State.addReq_newels (s : State) (q : Req) : (s.addReq q).newels = s.newels := rfl
@[simp] theorem State.addReq_mem (s : State) (q : Req) : (s.addReq q).mem = s.mem := rfl
@[simp] theorem State.addReq_net (s : State) (q : Req) : (s.addReq q).net = { s.net with reqs := s.net.reqs ++ [{ q with id := s.net.nextReq }], nextReq := s.net.nextReq + 1 } := rfl
@[simp] theorem State.addReq_fab (s : State) (q : Req) : (s.addReq q).fab = s.fab := rfl
@[simp] theorem State.addReq_power (s : State) (q : Req) : (s.addReq q).power = s.power := rfl
@[simp] theorem State.addReq_host (s : State) (q : Req) : (s.addReq q).host = s.host := rfl
@[simp] theorem State.addReq_links (s : State) (q : Req) : (s.addReq q).links = s.links := rfl
@[simp] theorem State.addReq_net_structs (s : State) (q : Req) : (s.addReq q).net.structs = s.net.structs := rfl
@[simp] theorem State.addReq_net_captags (s : State) (q : Req) : (s.addReq q).net.captags = s.net.captags := rfl
@[simp] theorem State.addReq_net_poison (s : State) (q : Req) : (s.addReq q).net.poison = s.net.poison := rfl
@[simp] theorem State.addReq_net_asidTab (s : State) (q : Req) : (s.addReq q).net.asidTab = s.net.asidTab := rfl
@[simp] theorem State.addReq_net_cache (s : State) (q : Req) : (s.addReq q).net.cache = s.net.cache := rfl
@[simp] theorem State.addReq_net_wins (s : State) (q : Req) : (s.addReq q).net.wins = s.net.wins := rfl
@[simp] theorem State.addReq_net_reqs (s : State) (q : Req) : (s.addReq q).net.reqs = s.net.reqs ++ [{ q with id := s.net.nextReq }] := rfl
@[simp] theorem State.addReq_net_nextReq (s : State) (q : Req) : (s.addReq q).net.nextReq = s.net.nextReq + 1 := rfl
@[simp] theorem State.addReq_net_tlbis (s : State) (q : Req) : (s.addReq q).net.tlbis = s.net.tlbis := rfl
@[simp] theorem State.addReq_net_nextTlbi (s : State) (q : Req) : (s.addReq q).net.nextTlbi = s.net.nextTlbi := rfl
@[simp] theorem State.addReq_net_migs (s : State) (q : Req) : (s.addReq q).net.migs = s.net.migs := rfl
@[simp] theorem State.addReq_net_contribs (s : State) (q : Req) : (s.addReq q).net.contribs = s.net.contribs := rfl
@[simp] theorem State.addReq_net_nextCon (s : State) (q : Req) : (s.addReq q).net.nextCon = s.net.nextCon := rfl
@[simp] theorem State.addReq_net_engines (s : State) (q : Req) : (s.addReq q).net.engines = s.net.engines := rfl
@[simp] theorem State.addReq_net_nextEng (s : State) (q : Req) : (s.addReq q).net.nextEng = s.net.nextEng := rfl
@[simp] theorem State.addReq_net_heldChunk (s : State) (q : Req) : (s.addReq q).net.heldChunk = s.net.heldChunk := rfl
@[simp] theorem State.addReq_net_saves (s : State) (q : Req) : (s.addReq q).net.saves = s.net.saves := rfl
@[simp] theorem State.addReq_net_ringHeld (s : State) (q : Req) : (s.addReq q).net.ringHeld = s.net.ringHeld := rfl
@[simp] theorem State.addReq_net_nextTask (s : State) (q : Req) : (s.addReq q).net.nextTask = s.net.nextTask := rfl
@[simp] theorem State.addReq_net_out (s : State) (q : Req) : (s.addReq q).net.out = s.net.out := rfl

/-! ### writeAt -/

@[simp] theorem State.writeAt_sched (s : State) (key : Nat) (l : List Byte) : (s.writeAt key l).sched = s.sched := rfl
@[simp] theorem State.writeAt_clock (s : State) (key : Nat) (l : List Byte) : (s.writeAt key l).clock = s.clock := rfl
@[simp] theorem State.writeAt_ctxs (s : State) (key : Nat) (l : List Byte) : (s.writeAt key l).ctxs = s.ctxs := rfl
@[simp] theorem State.writeAt_cells (s : State) (key : Nat) (l : List Byte) : (s.writeAt key l).cells = s.cells := rfl
@[simp] theorem State.writeAt_newels (s : State) (key : Nat) (l : List Byte) : (s.writeAt key l).newels = s.newels := rfl
@[simp] theorem State.writeAt_mem (s : State) (key : Nat) (l : List Byte) : (s.writeAt key l).mem = Memory.store s.mem key l := rfl
@[simp] theorem State.writeAt_fab (s : State) (key : Nat) (l : List Byte) : (s.writeAt key l).fab = s.fab := rfl
@[simp] theorem State.writeAt_power (s : State) (key : Nat) (l : List Byte) : (s.writeAt key l).power = s.power := rfl
@[simp] theorem State.writeAt_host (s : State) (key : Nat) (l : List Byte) : (s.writeAt key l).host = s.host := rfl
@[simp] theorem State.writeAt_links (s : State) (key : Nat) (l : List Byte) : (s.writeAt key l).links = s.links := rfl
@[simp] theorem State.writeAt_net_captags (s : State) (key : Nat) (l : List Byte) : (s.writeAt key l).net.captags = clearTags s.net.captags key l.length := rfl
@[simp] theorem State.writeAt_net_poison (s : State) (key : Nat) (l : List Byte) : (s.writeAt key l).net.poison = clearPoison s.net.poison key l.length := rfl
@[simp] theorem State.writeAt_net_asidTab (s : State) (key : Nat) (l : List Byte) : (s.writeAt key l).net.asidTab = s.net.asidTab := rfl
@[simp] theorem State.writeAt_net_cache (s : State) (key : Nat) (l : List Byte) : (s.writeAt key l).net.cache = s.net.cache := rfl
@[simp] theorem State.writeAt_net_wins (s : State) (key : Nat) (l : List Byte) : (s.writeAt key l).net.wins = s.net.wins := rfl
@[simp] theorem State.writeAt_net_reqs (s : State) (key : Nat) (l : List Byte) : (s.writeAt key l).net.reqs = s.net.reqs := rfl
@[simp] theorem State.writeAt_net_nextReq (s : State) (key : Nat) (l : List Byte) : (s.writeAt key l).net.nextReq = s.net.nextReq := rfl
@[simp] theorem State.writeAt_net_tlbis (s : State) (key : Nat) (l : List Byte) : (s.writeAt key l).net.tlbis = s.net.tlbis := rfl
@[simp] theorem State.writeAt_net_nextTlbi (s : State) (key : Nat) (l : List Byte) : (s.writeAt key l).net.nextTlbi = s.net.nextTlbi := rfl
@[simp] theorem State.writeAt_net_migs (s : State) (key : Nat) (l : List Byte) : (s.writeAt key l).net.migs = s.net.migs := rfl
@[simp] theorem State.writeAt_net_contribs (s : State) (key : Nat) (l : List Byte) : (s.writeAt key l).net.contribs = s.net.contribs := rfl
@[simp] theorem State.writeAt_net_nextCon (s : State) (key : Nat) (l : List Byte) : (s.writeAt key l).net.nextCon = s.net.nextCon := rfl
@[simp] theorem State.writeAt_net_engines (s : State) (key : Nat) (l : List Byte) : (s.writeAt key l).net.engines = s.net.engines := rfl
@[simp] theorem State.writeAt_net_nextEng (s : State) (key : Nat) (l : List Byte) : (s.writeAt key l).net.nextEng = s.net.nextEng := rfl
@[simp] theorem State.writeAt_net_heldChunk (s : State) (key : Nat) (l : List Byte) : (s.writeAt key l).net.heldChunk = s.net.heldChunk := rfl
@[simp] theorem State.writeAt_net_saves (s : State) (key : Nat) (l : List Byte) : (s.writeAt key l).net.saves = s.net.saves := rfl
@[simp] theorem State.writeAt_net_ringHeld (s : State) (key : Nat) (l : List Byte) : (s.writeAt key l).net.ringHeld = s.net.ringHeld := rfl
@[simp] theorem State.writeAt_net_nextTask (s : State) (key : Nat) (l : List Byte) : (s.writeAt key l).net.nextTask = s.net.nextTask := rfl
@[simp] theorem State.writeAt_net_out (s : State) (key : Nat) (l : List Byte) : (s.writeAt key l).net.out = s.net.out := rfl

/-! ### modHost -/

@[simp] theorem State.modHost_sched (s : State) (f : HostSide → HostSide) : (s.modHost f).sched = s.sched := rfl
@[simp] theorem State.modHost_clock (s : State) (f : HostSide → HostSide) : (s.modHost f).clock = s.clock := rfl
@[simp] theorem State.modHost_ctxs (s : State) (f : HostSide → HostSide) : (s.modHost f).ctxs = s.ctxs := rfl
@[simp] theorem State.modHost_cells (s : State) (f : HostSide → HostSide) : (s.modHost f).cells = s.cells := rfl
@[simp] theorem State.modHost_newels (s : State) (f : HostSide → HostSide) : (s.modHost f).newels = s.newels := rfl
@[simp] theorem State.modHost_mem (s : State) (f : HostSide → HostSide) : (s.modHost f).mem = s.mem := rfl
@[simp] theorem State.modHost_net (s : State) (f : HostSide → HostSide) : (s.modHost f).net = s.net := rfl
@[simp] theorem State.modHost_fab (s : State) (f : HostSide → HostSide) : (s.modHost f).fab = s.fab := rfl
@[simp] theorem State.modHost_power (s : State) (f : HostSide → HostSide) : (s.modHost f).power = s.power := rfl
@[simp] theorem State.modHost_host (s : State) (f : HostSide → HostSide) : (s.modHost f).host = f s.host := rfl
@[simp] theorem State.modHost_links (s : State) (f : HostSide → HostSide) : (s.modHost f).links = s.links := rfl

/-! ### modPort -/

@[simp] theorem State.modPort_sched (s : State) (p : Nat) (f : LinkPort → LinkPort) : (s.modPort p f).sched = s.sched := rfl
@[simp] theorem State.modPort_clock (s : State) (p : Nat) (f : LinkPort → LinkPort) : (s.modPort p f).clock = s.clock := rfl
@[simp] theorem State.modPort_ctxs (s : State) (p : Nat) (f : LinkPort → LinkPort) : (s.modPort p f).ctxs = s.ctxs := rfl
@[simp] theorem State.modPort_cells (s : State) (p : Nat) (f : LinkPort → LinkPort) : (s.modPort p f).cells = s.cells := rfl
@[simp] theorem State.modPort_newels (s : State) (p : Nat) (f : LinkPort → LinkPort) : (s.modPort p f).newels = s.newels := rfl
@[simp] theorem State.modPort_mem (s : State) (p : Nat) (f : LinkPort → LinkPort) : (s.modPort p f).mem = s.mem := rfl
@[simp] theorem State.modPort_net (s : State) (p : Nat) (f : LinkPort → LinkPort) : (s.modPort p f).net = s.net := rfl
@[simp] theorem State.modPort_fab (s : State) (p : Nat) (f : LinkPort → LinkPort) : (s.modPort p f).fab = s.fab := rfl
@[simp] theorem State.modPort_power (s : State) (p : Nat) (f : LinkPort → LinkPort) : (s.modPort p f).power = s.power := rfl
@[simp] theorem State.modPort_host (s : State) (p : Nat) (f : LinkPort → LinkPort) : (s.modPort p f).host = s.host := rfl

/-! ### modEngine -/

@[simp] theorem State.modEngine_sched (s : State) (id : Nat) (f : EngineOp → EngineOp) : (s.modEngine id f).sched = s.sched := rfl
@[simp] theorem State.modEngine_clock (s : State) (id : Nat) (f : EngineOp → EngineOp) : (s.modEngine id f).clock = s.clock := rfl
@[simp] theorem State.modEngine_ctxs (s : State) (id : Nat) (f : EngineOp → EngineOp) : (s.modEngine id f).ctxs = s.ctxs := rfl
@[simp] theorem State.modEngine_cells (s : State) (id : Nat) (f : EngineOp → EngineOp) : (s.modEngine id f).cells = s.cells := rfl
@[simp] theorem State.modEngine_newels (s : State) (id : Nat) (f : EngineOp → EngineOp) : (s.modEngine id f).newels = s.newels := rfl
@[simp] theorem State.modEngine_mem (s : State) (id : Nat) (f : EngineOp → EngineOp) : (s.modEngine id f).mem = s.mem := rfl
@[simp] theorem State.modEngine_fab (s : State) (id : Nat) (f : EngineOp → EngineOp) : (s.modEngine id f).fab = s.fab := rfl
@[simp] theorem State.modEngine_power (s : State) (id : Nat) (f : EngineOp → EngineOp) : (s.modEngine id f).power = s.power := rfl
@[simp] theorem State.modEngine_host (s : State) (id : Nat) (f : EngineOp → EngineOp) : (s.modEngine id f).host = s.host := rfl
@[simp] theorem State.modEngine_links (s : State) (id : Nat) (f : EngineOp → EngineOp) : (s.modEngine id f).links = s.links := rfl
@[simp] theorem State.modEngine_net_structs (s : State) (id : Nat) (f : EngineOp → EngineOp) : (s.modEngine id f).net.structs = s.net.structs := rfl
@[simp] theorem State.modEngine_net_captags (s : State) (id : Nat) (f : EngineOp → EngineOp) : (s.modEngine id f).net.captags = s.net.captags := rfl
@[simp] theorem State.modEngine_net_poison (s : State) (id : Nat) (f : EngineOp → EngineOp) : (s.modEngine id f).net.poison = s.net.poison := rfl
@[simp] theorem State.modEngine_net_asidTab (s : State) (id : Nat) (f : EngineOp → EngineOp) : (s.modEngine id f).net.asidTab = s.net.asidTab := rfl
@[simp] theorem State.modEngine_net_cache (s : State) (id : Nat) (f : EngineOp → EngineOp) : (s.modEngine id f).net.cache = s.net.cache := rfl
@[simp] theorem State.modEngine_net_wins (s : State) (id : Nat) (f : EngineOp → EngineOp) : (s.modEngine id f).net.wins = s.net.wins := rfl
@[simp] theorem State.modEngine_net_reqs (s : State) (id : Nat) (f : EngineOp → EngineOp) : (s.modEngine id f).net.reqs = s.net.reqs := rfl
@[simp] theorem State.modEngine_net_nextReq (s : State) (id : Nat) (f : EngineOp → EngineOp) : (s.modEngine id f).net.nextReq = s.net.nextReq := rfl
@[simp] theorem State.modEngine_net_tlbis (s : State) (id : Nat) (f : EngineOp → EngineOp) : (s.modEngine id f).net.tlbis = s.net.tlbis := rfl
@[simp] theorem State.modEngine_net_nextTlbi (s : State) (id : Nat) (f : EngineOp → EngineOp) : (s.modEngine id f).net.nextTlbi = s.net.nextTlbi := rfl
@[simp] theorem State.modEngine_net_migs (s : State) (id : Nat) (f : EngineOp → EngineOp) : (s.modEngine id f).net.migs = s.net.migs := rfl
@[simp] theorem State.modEngine_net_contribs (s : State) (id : Nat) (f : EngineOp → EngineOp) : (s.modEngine id f).net.contribs = s.net.contribs := rfl
@[simp] theorem State.modEngine_net_nextCon (s : State) (id : Nat) (f : EngineOp → EngineOp) : (s.modEngine id f).net.nextCon = s.net.nextCon := rfl
@[simp] theorem State.modEngine_net_nextEng (s : State) (id : Nat) (f : EngineOp → EngineOp) : (s.modEngine id f).net.nextEng = s.net.nextEng := rfl
@[simp] theorem State.modEngine_net_heldChunk (s : State) (id : Nat) (f : EngineOp → EngineOp) : (s.modEngine id f).net.heldChunk = s.net.heldChunk := rfl
@[simp] theorem State.modEngine_net_saves (s : State) (id : Nat) (f : EngineOp → EngineOp) : (s.modEngine id f).net.saves = s.net.saves := rfl
@[simp] theorem State.modEngine_net_ringHeld (s : State) (id : Nat) (f : EngineOp → EngineOp) : (s.modEngine id f).net.ringHeld = s.net.ringHeld := rfl
@[simp] theorem State.modEngine_net_nextTask (s : State) (id : Nat) (f : EngineOp → EngineOp) : (s.modEngine id f).net.nextTask = s.net.nextTask := rfl
@[simp] theorem State.modEngine_net_out (s : State) (id : Nat) (f : EngineOp → EngineOp) : (s.modEngine id f).net.out = s.net.out := rfl

/-! ### modSet -/

@[simp] theorem State.modSet_sched (s : State) (bay : Nat) (f : MacroSet → MacroSet) : (s.modSet bay f).sched = s.sched := rfl
@[simp] theorem State.modSet_clock (s : State) (bay : Nat) (f : MacroSet → MacroSet) : (s.modSet bay f).clock = s.clock := rfl
@[simp] theorem State.modSet_ctxs (s : State) (bay : Nat) (f : MacroSet → MacroSet) : (s.modSet bay f).ctxs = s.ctxs := rfl
@[simp] theorem State.modSet_cells (s : State) (bay : Nat) (f : MacroSet → MacroSet) : (s.modSet bay f).cells = s.cells := rfl
@[simp] theorem State.modSet_newels (s : State) (bay : Nat) (f : MacroSet → MacroSet) : (s.modSet bay f).newels = s.newels := rfl
@[simp] theorem State.modSet_mem (s : State) (bay : Nat) (f : MacroSet → MacroSet) : (s.modSet bay f).mem = s.mem := rfl
@[simp] theorem State.modSet_net (s : State) (bay : Nat) (f : MacroSet → MacroSet) : (s.modSet bay f).net = s.net := rfl
@[simp] theorem State.modSet_power (s : State) (bay : Nat) (f : MacroSet → MacroSet) : (s.modSet bay f).power = s.power := rfl
@[simp] theorem State.modSet_host (s : State) (bay : Nat) (f : MacroSet → MacroSet) : (s.modSet bay f).host = s.host := rfl
@[simp] theorem State.modSet_links (s : State) (bay : Nat) (f : MacroSet → MacroSet) : (s.modSet bay f).links = s.links := rfl
@[simp] theorem State.modSet_fab_halls (s : State) (bay : Nat) (f : MacroSet → MacroSet) : (s.modSet bay f).fab.halls = s.fab.halls := rfl
@[simp] theorem State.modSet_fab_hbm (s : State) (bay : Nat) (f : MacroSet → MacroSet) : (s.modSet bay f).fab.hbm = s.fab.hbm := rfl
@[simp] theorem State.modSet_fab_dies (s : State) (bay : Nat) (f : MacroSet → MacroSet) : (s.modSet bay f).fab.dies = s.fab.dies := rfl
@[simp] theorem State.modSet_fab_dead (s : State) (bay : Nat) (f : MacroSet → MacroSet) : (s.modSet bay f).fab.dead = s.fab.dead := rfl
@[simp] theorem State.modSet_fab_failed (s : State) (bay : Nat) (f : MacroSet → MacroSet) : (s.modSet bay f).fab.failed = s.fab.failed := rfl
@[simp] theorem State.modSet_fab_epochs (s : State) (bay : Nat) (f : MacroSet → MacroSet) : (s.modSet bay f).fab.epochs = s.fab.epochs := rfl
@[simp] theorem State.modSet_fab_evFly (s : State) (bay : Nat) (f : MacroSet → MacroSet) : (s.modSet bay f).fab.evFly = s.fab.evFly := rfl

/-! ### begin -/

@[simp] theorem State.begin_clock (s : State) (m : Move) (rest : List Move) : (s.begin m rest).clock = ⟨s.clock.steps + m.steps, s.clock.ns + m.ns, s.clock.us + m.ns⟩ := rfl
@[simp] theorem State.begin_ctxs (s : State) (m : Move) (rest : List Move) : (s.begin m rest).ctxs = s.ctxs := rfl
@[simp] theorem State.begin_cells (s : State) (m : Move) (rest : List Move) : (s.begin m rest).cells = s.cells := rfl
@[simp] theorem State.begin_newels (s : State) (m : Move) (rest : List Move) : (s.begin m rest).newels = s.newels := rfl
@[simp] theorem State.begin_mem (s : State) (m : Move) (rest : List Move) : (s.begin m rest).mem = s.mem := rfl
@[simp] theorem State.begin_net (s : State) (m : Move) (rest : List Move) : (s.begin m rest).net = s.net := rfl
@[simp] theorem State.begin_fab (s : State) (m : Move) (rest : List Move) : (s.begin m rest).fab = s.fab := rfl
@[simp] theorem State.begin_power (s : State) (m : Move) (rest : List Move) : (s.begin m rest).power = s.power := rfl
@[simp] theorem State.begin_host (s : State) (m : Move) (rest : List Move) : (s.begin m rest).host = s.host := rfl
@[simp] theorem State.begin_links (s : State) (m : Move) (rest : List Move) : (s.begin m rest).links = s.links := rfl

/-! ### setSt of an activation -/

@[simp] theorem Act.setSt_w (a : Act) (j : Nat) (x : RecState) : (a.setSt j x).w = a.w := rfl
@[simp] theorem Act.setSt_ctx (a : Act) (j : Nat) (x : RecState) : (a.setSt j x).ctx = a.ctx := rfl
@[simp] theorem Act.setSt_blk (a : Act) (j : Nat) (x : RecState) : (a.setSt j x).blk = a.blk := rfl
@[simp] theorem Act.setSt_recs (a : Act) (j : Nat) (x : RecState) : (a.setSt j x).recs = modAt a.recs j fun r => { r with st := x } := rfl
@[simp] theorem Act.setSt_temps (a : Act) (j : Nat) (x : RecState) : (a.setSt j x).temps = a.temps := rfl
@[simp] theorem Act.setSt_outs (a : Act) (j : Nat) (x : RecState) : (a.setSt j x).outs = a.outs := rfl
@[simp] theorem Act.setSt_exits (a : Act) (j : Nat) (x : RecState) : (a.setSt j x).exits = a.exits := rfl
@[simp] theorem Act.setSt_redirs (a : Act) (j : Nat) (x : RecState) : (a.setSt j x).redirs = a.redirs := rfl
@[simp] theorem Act.setSt_views (a : Act) (j : Nat) (x : RecState) : (a.setSt j x).views = a.views := rfl
@[simp] theorem Act.setSt_moves (a : Act) (j : Nat) (x : RecState) : (a.setSt j x).moves = a.moves := rfl
@[simp] theorem Act.setSt_rwrites (a : Act) (j : Nat) (x : RecState) : (a.setSt j x).rwrites = a.rwrites := rfl
@[simp] theorem Act.setSt_stores (a : Act) (j : Nat) (x : RecState) : (a.setSt j x).stores = a.stores := rfl
@[simp] theorem Act.setSt_effects (a : Act) (j : Nat) (x : RecState) : (a.setSt j x).effects = a.effects := rfl
@[simp] theorem Act.setSt_flags (a : Act) (j : Nat) (x : RecState) : (a.setSt j x).flags = a.flags := rfl
@[simp] theorem Act.setSt_recon (a : Act) (j : Nat) (x : RecState) : (a.setSt j x).recon = a.recon := rfl
@[simp] theorem Act.setSt_thr (a : Act) (j : Nat) (x : RecState) : (a.setSt j x).thr = a.thr := rfl
@[simp] theorem Act.setSt_trap (a : Act) (j : Nat) (x : RecState) : (a.setSt j x).trap = a.trap := rfl
@[simp] theorem Act.setSt_seeded (a : Act) (j : Nat) (x : RecState) : (a.setSt j x).seeded = a.seeded := rfl
@[simp] theorem Act.setSt_rng (a : Act) (j : Nat) (x : RecState) : (a.setSt j x).rng = a.rng := rfl
@[simp] theorem Act.setSt_stime (a : Act) (j : Nat) (x : RecState) : (a.setSt j x).stime = a.stime := rfl
@[simp] theorem Act.setSt_began (a : Act) (j : Nat) (x : RecState) : (a.setSt j x).began = a.began := rfl
@[simp] theorem Act.setSt_stage (a : Act) (j : Nat) (x : RecState) : (a.setSt j x).stage = a.stage := rfl

/-! ### effect of an activation -/

@[simp] theorem Act.effect_w (a : Act) (j : Nat) (e : Effect) : (a.effect j e).w = a.w := rfl
@[simp] theorem Act.effect_ctx (a : Act) (j : Nat) (e : Effect) : (a.effect j e).ctx = a.ctx := rfl
@[simp] theorem Act.effect_blk (a : Act) (j : Nat) (e : Effect) : (a.effect j e).blk = a.blk := rfl
@[simp] theorem Act.effect_recs (a : Act) (j : Nat) (e : Effect) : (a.effect j e).recs = a.recs := rfl
@[simp] theorem Act.effect_temps (a : Act) (j : Nat) (e : Effect) : (a.effect j e).temps = a.temps := rfl
@[simp] theorem Act.effect_outs (a : Act) (j : Nat) (e : Effect) : (a.effect j e).outs = a.outs := rfl
@[simp] theorem Act.effect_exits (a : Act) (j : Nat) (e : Effect) : (a.effect j e).exits = a.exits := rfl
@[simp] theorem Act.effect_redirs (a : Act) (j : Nat) (e : Effect) : (a.effect j e).redirs = a.redirs := rfl
@[simp] theorem Act.effect_views (a : Act) (j : Nat) (e : Effect) : (a.effect j e).views = a.views := rfl
@[simp] theorem Act.effect_moves (a : Act) (j : Nat) (e : Effect) : (a.effect j e).moves = a.moves := rfl
@[simp] theorem Act.effect_rwrites (a : Act) (j : Nat) (e : Effect) : (a.effect j e).rwrites = a.rwrites := rfl
@[simp] theorem Act.effect_stores (a : Act) (j : Nat) (e : Effect) : (a.effect j e).stores = a.stores := rfl
@[simp] theorem Act.effect_effects (a : Act) (j : Nat) (e : Effect) : (a.effect j e).effects = a.effects ++ [(j, e)] := rfl
@[simp] theorem Act.effect_flags (a : Act) (j : Nat) (e : Effect) : (a.effect j e).flags = a.flags := rfl
@[simp] theorem Act.effect_recon (a : Act) (j : Nat) (e : Effect) : (a.effect j e).recon = a.recon := rfl
@[simp] theorem Act.effect_thr (a : Act) (j : Nat) (e : Effect) : (a.effect j e).thr = a.thr := rfl
@[simp] theorem Act.effect_trap (a : Act) (j : Nat) (e : Effect) : (a.effect j e).trap = a.trap := rfl
@[simp] theorem Act.effect_seeded (a : Act) (j : Nat) (e : Effect) : (a.effect j e).seeded = a.seeded := rfl
@[simp] theorem Act.effect_rng (a : Act) (j : Nat) (e : Effect) : (a.effect j e).rng = a.rng := rfl
@[simp] theorem Act.effect_stime (a : Act) (j : Nat) (e : Effect) : (a.effect j e).stime = a.stime := rfl
@[simp] theorem Act.effect_began (a : Act) (j : Nat) (e : Effect) : (a.effect j e).began = a.began := rfl
@[simp] theorem Act.effect_stage (a : Act) (j : Nat) (e : Effect) : (a.effect j e).stage = a.stage := rfl

end Sys2Proof.Machine
end

