-- ==== Sys2Proof/Laws/Lists.lean ====
section
/-! SUPPORT. What the list operations do, and with them a unit, a context or a hall read after a change. -/
namespace Sys2Proof.Machine

/-! ### Lists and association lists -/

@[simp] theorem modAt_length {α : Type} (l : List α) (i : Nat) (f : α → α) : (modAt l i f).length = l.length := by
  induction l generalizing i with
  | nil => rfl
  | cons x t ih => cases i <;> simp [modAt, ih]

theorem modAt_getElem? {α : Type} (l : List α) (i j : Nat) (f : α → α) :
    (modAt l i f)[j]? = if i = j then l[j]?.map f else l[j]? := by
  induction l generalizing i j with
  | nil => simp [modAt]
  | cons x t ih =>
    cases i <;> cases j <;> simp [modAt, ih]

@[simp] theorem modAt_getElem?_same {α : Type} (l : List α) (i : Nat) (f : α → α) : (modAt l i f)[i]? = l[i]?.map f := by
  simp [modAt_getElem?]

theorem modAt_getElem?_other {α : Type} (l : List α) {i j : Nat} (f : α → α) (h : i ≠ j) : (modAt l i f)[j]? = l[j]? := by
  simp [modAt_getElem?, h]

@[simp] theorem getKey_setKey_same {α β : Type} [DecidableEq α] (l : List (α × β)) (k : α) (v d : β) :
    getKey (setKey l k v) k d = v := by
  induction l with
  | nil => simp [setKey, getKey]
  | cons x t ih =>
    obtain ⟨a, b⟩ := x
    by_cases h : a = k <;> simp [setKey, getKey, h, ih]

theorem getKey_setKey_other {α β : Type} [DecidableEq α] (l : List (α × β)) {k j : α} (v d : β) (h : k ≠ j) :
    getKey (setKey l k v) j d = getKey l j d := by
  induction l with
  | nil => simp [setKey, getKey, h]
  | cons x t ih =>
    obtain ⟨a, b⟩ := x
    by_cases e : a = k
    · subst e; simp [setKey, getKey, h]
    · have q : setKey ((a, b) :: t) k v = (a, b) :: setKey t k v := by simp [setKey, e]
      rw [q]
      by_cases g : a = j <;> simp [getKey, g, ih]

/-! ### Units -/

@[simp] theorem State.cell_putCell (s : State) (u : UnitId) (x : Cell) : (s.putCell u x).cell u = x := by
  simp [State.cell]

theorem State.cell_putCell_other (s : State) {u v : UnitId} (x : Cell) (h : u ≠ v) : (s.putCell u x).cell v = s.cell v := by
  simp [State.cell, getKey_setKey_other _ _ _ h]

@[simp] theorem State.act_putAct (s : State) (u : UnitId) (a : Act) : (s.putAct u a).act u = some a := by
  simp [State.act, State.cell]

theorem State.act_putAct_other (s : State) {u v : UnitId} (a : Act) (h : u ≠ v) : (s.putAct u a).act v = s.act v := by
  simp [State.act, State.cell, getKey_setKey_other _ _ _ h]

@[simp] theorem State.act_freeUnit (s : State) (u : UnitId) : (s.freeUnit u).act u = none := by
  simp [State.act, State.cell]

theorem State.act_freeUnit_other (s : State) {u v : UnitId} (h : u ≠ v) : (s.freeUnit u).act v = s.act v := by
  simp [State.act, State.cell, getKey_setKey_other _ _ _ h]

/-! ### Contexts -/

@[simp] theorem State.ctx_putCell (s : State) (u : UnitId) (x : Cell) (c : Nat) : (s.putCell u x).ctx c = s.ctx c := rfl
@[simp] theorem State.ctx_putAct (s : State) (u : UnitId) (a : Act) (c : Nat) : (s.putAct u a).ctx c = s.ctx c := rfl
@[simp] theorem State.ctx_freeUnit (s : State) (u : UnitId) (c : Nat) : (s.freeUnit u).ctx c = s.ctx c := rfl
@[simp] theorem State.act_modCtx (s : State) (c : Nat) (f : Ctx → Ctx) (u : UnitId) : (s.modCtx c f).act u = s.act u := rfl
@[simp] theorem State.cell_modCtx (s : State) (c : Nat) (f : Ctx → Ctx) (u : UnitId) : (s.modCtx c f).cell u = s.cell u := rfl

theorem State.ctx_modCtx_same (s : State) (c : Nat) (f : Ctx → Ctx) (h : c < s.ctxs.length) :
    (s.modCtx c f).ctx c = f (s.ctx c) := by
  simp only [State.ctx, List.getD, State.modCtx_ctxs, modAt_getElem?_same]
  rw [List.getElem?_eq_getElem h]
  rfl

theorem State.ctx_modCtx_other (s : State) {c d : Nat} (f : Ctx → Ctx) (h : c ≠ d) : (s.modCtx c f).ctx d = s.ctx d := by
  simp [State.ctx, List.getD, modAt_getElem?_other _ _ h]

/-! ### Halls and Newels -/

theorem State.hall_modHall_same (s : State) (h : Nat) (f : Hall → Hall) (l : h < s.fab.halls.length) :
    (s.modHall h f).hall h = f (s.hall h) := by
  simp only [State.hall, List.getD, State.modHall_fab_halls, modAt_getElem?_same]
  rw [List.getElem?_eq_getElem l]
  rfl

theorem State.hall_modHall_other (s : State) {h g : Nat} (f : Hall → Hall) (n : h ≠ g) : (s.modHall h f).hall g = s.hall g := by
  simp [State.hall, List.getD, modAt_getElem?_other _ _ n]

end Sys2Proof.Machine
end

