-- ==== Sys2Proof/Laws/Fire.lean ====
section
/-! SUPPORT. What a firing and a fault can do, said once. -/
namespace Sys2Proof.Machine

/-! ### What a fault leaves (20 R345) -/

/-- A structure word after some of its readers were withdrawn: as it was, or with fewer readers waiting, or empty (10 R219). -/
def FewerReaders (x y : Nat × StructState) : Prop :=
  y.1 = x.1 ∧ (y.2 = x.2 ∨ ∃ rs, x.2 = .deferred rs ∧ (y.2 = .empty ∨ ∃ rs', y.2 = .deferred rs' ∧ rs' ⊆ rs))

theorem FewerReaders.refl (x : Nat × StructState) : FewerReaders x x := ⟨rfl, .inl rfl⟩

theorem FewerReaders.trans {x y z : Nat × StructState} (h : FewerReaders x y) (g : FewerReaders y z) : FewerReaders x z := by
  obtain ⟨h1, h2⟩ := h
  obtain ⟨g1, g2⟩ := g
  refine ⟨g1.trans h1, ?_⟩
  rcases g2 with g2 | ⟨r, gr, g2⟩
  · rw [g2]; exact h2
  · rcases h2 with h2 | ⟨q, hq, h2 | ⟨q', hq', sub⟩⟩
    · exact .inr ⟨r, h2 ▸ gr, g2⟩
    · rw [h2] at gr; cases gr
    · rw [hq'] at gr
      cases gr
      exact .inr ⟨q, hq, g2.imp id fun ⟨r', e, i⟩ => ⟨r', e, fun _ m => sub (i m)⟩⟩

theorem structs_refl (l : List (Nat × StructState)) : List.Forall₂ FewerReaders l l := by
  induction l with
  | nil => exact .nil
  | cons x t ih => exact .cons (FewerReaders.refl x) ih

theorem structs_trans {l m n : List (Nat × StructState)} (h : List.Forall₂ FewerReaders l m) (g : List.Forall₂ FewerReaders m n) :
    List.Forall₂ FewerReaders l n := by
  induction h generalizing n with
  | nil => exact g
  | cons a b ih =>
    cases g with
    | cons c d => exact .cons (a.trans c) (ih d)

/-- Withdrawing readers leaves every word in its place. -/
theorem withdrawReaders_fewer (ids : List Nat) (l : List (Nat × StructState)) : List.Forall₂ FewerReaders l (withdrawReaders ids l) := by
  induction l with
  | nil => exact .nil
  | cons x t ih =>
    refine .cons ?_ ih
    dsimp only
    split
    · exact FewerReaders.refl x
    · exact FewerReaders.refl x
    · rename_i rs e
      refine ⟨rfl, .inr ⟨rs, e, ?_⟩⟩
      split
      · exact .inl rfl
      · exact .inr ⟨_, rfl, fun _ m => (List.mem_filter.1 m).1⟩

/-- A Newel with every event marked lost: two that agree so differ in lost bits alone. -/
def Newel.allLost (x : Newel) : Newel := { x with evt := x.evt.map (· ||| 32#64) }

theorem modAt_or_lost (l : List Word) (n : Nat) : (modAt l n fun w => w ||| 32#64).map (· ||| 32#64) = l.map (· ||| 32#64) := by
  induction l generalizing n with
  | nil => rfl
  | cons x t ih =>
    cases n with
    | zero => simp only [modAt, List.map_cons, BitVec.or_assoc, BitVec.or_self]
    | succ m => simp only [modAt, List.map_cons, ih]

theorem modAt_allLost (l : List Newel) (d n : Nat) :
    (modAt l d fun y => { y with evt := modAt y.evt n fun w => w ||| 32#64 }).map Newel.allLost = l.map Newel.allLost := by
  induction l generalizing d with
  | nil => rfl
  | cons x t ih =>
    cases d with
    | zero => simp only [modAt, List.map_cons, Newel.allLost, modAt_or_lost]
    | succ m => simp only [modAt, List.map_cons, ih]

/-- A save without the demands held for its context: a load given up gives the demands it took back to its save (04 R76). -/
def Save.bare (x : Save) : Save := { x with ctx := { x.ctx with held := [] } }

/-- The parts of the device that no record and no fault of an activation changes: memory, power, the host, the links, time and the
agenda; the Newels but for events marked lost; the fabric but for the events on their way; of the memory side the requests, the
readers that wait on structure words and the demands held for saved contexts alone. -/
structure SameDevice (s t : State) : Prop where
  mem    : t.mem = s.mem
  newels : t.newels.map Newel.allLost = s.newels.map Newel.allLost
  power  : t.power = s.power
  host   : t.host = s.host
  links  : t.links = s.links
  clock  : t.clock = s.clock
  sched  : t.sched = s.sched
  fab    : t.fab = { s.fab with evFly := t.fab.evFly }
  net    : t.net = { s.net with reqs := t.net.reqs, nextReq := t.net.nextReq, structs := t.net.structs, saves := t.net.saves }
  saves  : t.net.saves.map Save.bare = s.net.saves.map Save.bare
  words  : List.Forall₂ FewerReaders s.net.structs t.net.structs

theorem SameDevice.refl (s : State) : SameDevice s s := ⟨rfl, rfl, rfl, rfl, rfl, rfl, rfl, rfl, rfl, rfl, structs_refl _⟩

theorem SameDevice.trans {s t v : State} (h : SameDevice s t) (g : SameDevice t v) : SameDevice s v := by
  obtain ⟨a1, a2, a3, a4, a5, a6, a7, a8, a9, as, aw⟩ := h
  obtain ⟨b1, b2, b3, b4, b5, b6, b7, b8, b9, bs, bw⟩ := g
  exact ⟨b1.trans a1, b2.trans a2, b3.trans a3, b4.trans a4, b5.trans a5, b6.trans a6, b7.trans a7,
    by rw [b8, a8], by rw [b9, a9], bs.trans as, structs_trans aw bw⟩

theorem SameDevice.putCell (s : State) (u : UnitId) (x : Cell) : SameDevice s (s.putCell u x) := ⟨rfl, rfl, rfl, rfl, rfl, rfl, rfl, rfl, rfl, rfl, structs_refl _⟩
theorem SameDevice.putAct (s : State) (u : UnitId) (a : Act) : SameDevice s (s.putAct u a) := SameDevice.putCell s u _
theorem SameDevice.freeUnit (s : State) (u : UnitId) : SameDevice s (s.freeUnit u) := SameDevice.putCell s u _
theorem SameDevice.modCtx (s : State) (c : Nat) (f : Ctx → Ctx) : SameDevice s (s.modCtx c f) := ⟨rfl, rfl, rfl, rfl, rfl, rfl, rfl, rfl, rfl, rfl, structs_refl _⟩
theorem SameDevice.modHome (s : State) (c load : Nat) (f : Ctx → Ctx)
    (h : ∀ x : Save, Save.bare { x with ctx := f x.ctx } = Save.bare x) : SameDevice s (s.modHome c load f) := by
  unfold State.modHome
  dsimp only
  split
  · exact SameDevice.modCtx ..
  · refine ⟨rfl, rfl, rfl, rfl, rfl, rfl, rfl, rfl, rfl, ?_, structs_refl _⟩
    dsimp only
    rw [List.map_map]
    refine List.map_congr_left fun v _ => ?_
    dsimp only [Function.comp_apply]
    split
    · exact h v
    · rfl
theorem SameDevice.raise (s : State) (d n : Nat) (x : Course) : SameDevice s (s.raise d n x) := ⟨rfl, rfl, rfl, rfl, rfl, rfl, rfl, rfl, rfl, rfl, structs_refl _⟩
theorem SameDevice.addReq (s : State) (q : Req) : SameDevice s (s.addReq q) := ⟨rfl, rfl, rfl, rfl, rfl, rfl, rfl, rfl, rfl, rfl, structs_refl _⟩

theorem giveBack_same (c : Nat) (s : State) (e : Effect) : SameDevice s (giveBack c s e) := by
  cases e with
  | tagn it => exact SameDevice.modCtx ..
  | loaded d =>
    unfold giveBack
    dsimp only
    split
    · exact (SameDevice.modCtx ..).trans (SameDevice.modHome _ _ _ _ fun _ => rfl)
    · exact SameDevice.refl s
  | _ => exact SameDevice.refl s

theorem withdraw_same (s : State) (u : UnitId) (a : Act) : SameDevice s (s.withdraw u a) := by
  have h : ∀ (l : List (Nat × Effect)) (s : State), SameDevice s (l.foldl (fun t e => giveBack a.ctx t e.2) s) := by
    intro l
    induction l with
    | nil => exact SameDevice.refl
    | cons e t ih => exact fun s => (giveBack_same a.ctx s e.2).trans (ih _)
  unfold State.withdraw
  dsimp only
  refine SameDevice.trans ?_ (h _ _)
  exact ⟨rfl, rfl, rfl, rfl, rfl, rfl, rfl, rfl, rfl, rfl, withdrawReaders_fewer _ _⟩

theorem park_same (s : State) (a : Act) : SameDevice s (s.park a) := by
  unfold State.park
  split
  · exact SameDevice.refl s
  · exact ⟨rfl, modAt_allLost _ _ _, rfl, rfl, rfl, rfl, rfl, rfl, rfl, rfl, structs_refl _⟩
  · exact SameDevice.modCtx ..

theorem toTrap_same {s t : State} {c op : Nat} {x : Course} {seq : Nat} {st : Stamp} (h : s.toTrap c op x seq st = some t) :
    SameDevice s t := by
  unfold State.toTrap at h
  dsimp only at h
  split at h
  · cases h
  · split at h
    · cases h
      exact SameDevice.modCtx ..
    · cases h

theorem deliverTo_same (s : State) (newel : Bool) (f : FaultInfo) (unit die c : Nat) : SameDevice s (s.deliverTo newel f unit die c) := by
  unfold State.deliverTo
  dsimp only
  have h := SameDevice.modCtx s c fun y => { y with seq := y.seq + 1, ft := faultRecord f unit c (s.ctx c).seq.toNat }
  split
  · exact h.trans (SameDevice.raise ..)
  · split
    · exact h.trans (SameDevice.raise ..)
    · cases e : State.toTrap _ _ _ _ _ _ with
      | none => exact h.trans (SameDevice.raise ..)
      | some t => exact h.trans (toTrap_same e)

/-- A fault of an activation leaves the device but for its own side. -/
theorem takeFault_same (s : State) (u : UnitId) (a : Act) (j cls code port addr : Nat) :
    SameDevice s (s.takeFault u a j cls code port addr) := by
  unfold State.takeFault
  exact (((withdraw_same s u a).trans (SameDevice.freeUnit ..)).trans (park_same _ a)).trans (deliverTo_same ..)

/-! ### Firing (02 R33) -/

/-- Every form of a record fires with one meaning. -/
theorem record_fires (i : Instr) (o : Op) (r : Rec) (h : i.record? = some (o, r)) :
    ∃ f, ∀ s, exec i s = fire o r s f := by
  cases i with
  | nop q => cases h; refine ⟨?_, fun s => ?_⟩; on_goal 2 => (show execNop r s = _; unfold execNop; rfl)
  | exitOp q => cases h; refine ⟨?_, fun s => ?_⟩; on_goal 2 => (show execExitOp r s = _; unfold execExitOp; rfl)
  | exitp q => cases h; refine ⟨?_, fun s => ?_⟩; on_goal 2 => (show execExitp r s = _; unfold execExitp; rfl)
  | exitx q => cases h; refine ⟨?_, fun s => ?_⟩; on_goal 2 => (show execExitx r s = _; unfold execExitx; rfl)
  | pass q => cases h; refine ⟨?_, fun s => ?_⟩; on_goal 2 => (show execPass r s = _; unfold execPass; rfl)
  | gate q => cases h; refine ⟨?_, fun s => ?_⟩; on_goal 2 => (show execGate r s = _; unfold execGate; rfl)
  | steer q => cases h; refine ⟨?_, fun s => ?_⟩; on_goal 2 => (show execSteer r s = _; unfold execSteer; rfl)
  | mergeOp q => cases h; refine ⟨?_, fun s => ?_⟩; on_goal 2 => (show execMergeOp r s = _; unfold execMergeOp; rfl)
  | litOp q => cases h; refine ⟨?_, fun s => ?_⟩; on_goal 2 => (show execLitOp r s = _; unfold execLitOp; rfl)
  | tget q => cases h; refine ⟨?_, fun s => ?_⟩; on_goal 2 => (show execTget r s = _; unfold execTget; rfl)
  | tset q => cases h; refine ⟨?_, fun s => ?_⟩; on_goal 2 => (show execTset r s = _; unfold execTset; rfl)
  | callb q => cases h; refine ⟨?_, fun s => ?_⟩; on_goal 2 => (show execCallb r s = _; unfold execCallb; rfl)
  | retb q => cases h; refine ⟨?_, fun s => ?_⟩; on_goal 2 => (show execRetb r s = _; unfold execRetb; rfl)
  | trap q => cases h; refine ⟨?_, fun s => ?_⟩; on_goal 2 => (show execTrap r s = _; unfold execTrap; rfl)
  | brk q => cases h; refine ⟨?_, fun s => ?_⟩; on_goal 2 => (show execBrk r s = _; unfold execBrk; rfl)
  | add q => cases h; refine ⟨?_, fun s => ?_⟩; on_goal 2 => (show execAdd r s = _; unfold execAdd; rfl)
  | sub q => cases h; refine ⟨?_, fun s => ?_⟩; on_goal 2 => (show execSub r s = _; unfold execSub; rfl)
  | mul q => cases h; refine ⟨?_, fun s => ?_⟩; on_goal 2 => (show execMul r s = _; unfold execMul; rfl)
  | mulh q => cases h; refine ⟨?_, fun s => ?_⟩; on_goal 2 => (show execMulh r s = _; unfold execMulh; rfl)
  | mad q => cases h; refine ⟨?_, fun s => ?_⟩; on_goal 2 => (show execMad r s = _; unfold execMad; rfl)
  | div q => cases h; refine ⟨?_, fun s => ?_⟩; on_goal 2 => (show execDiv r s = _; unfold execDiv; rfl)
  | rem q => cases h; refine ⟨?_, fun s => ?_⟩; on_goal 2 => (show execRem r s = _; unfold execRem; rfl)
  | neg q => cases h; refine ⟨?_, fun s => ?_⟩; on_goal 2 => (show execNeg r s = _; unfold execNeg; rfl)
  | abs q => cases h; refine ⟨?_, fun s => ?_⟩; on_goal 2 => (show execAbs r s = _; unfold execAbs; rfl)
  | min q => cases h; refine ⟨?_, fun s => ?_⟩; on_goal 2 => (show execMin r s = _; unfold execMin; rfl)
  | max q => cases h; refine ⟨?_, fun s => ?_⟩; on_goal 2 => (show execMax r s = _; unfold execMax; rfl)
  | shl q => cases h; refine ⟨?_, fun s => ?_⟩; on_goal 2 => (show execShl r s = _; unfold execShl; rfl)
  | shr q => cases h; refine ⟨?_, fun s => ?_⟩; on_goal 2 => (show execShr r s = _; unfold execShr; rfl)
  | andOp q => cases h; refine ⟨?_, fun s => ?_⟩; on_goal 2 => (show execAndOp r s = _; unfold execAndOp; rfl)
  | orOp q => cases h; refine ⟨?_, fun s => ?_⟩; on_goal 2 => (show execOrOp r s = _; unfold execOrOp; rfl)
  | xorOp q => cases h; refine ⟨?_, fun s => ?_⟩; on_goal 2 => (show execXorOp r s = _; unfold execXorOp; rfl)
  | notOp q => cases h; refine ⟨?_, fun s => ?_⟩; on_goal 2 => (show execNotOp r s = _; unfold execNotOp; rfl)
  | popc q => cases h; refine ⟨?_, fun s => ?_⟩; on_goal 2 => (show execPopc r s = _; unfold execPopc; rfl)
  | clz q => cases h; refine ⟨?_, fun s => ?_⟩; on_goal 2 => (show execClz r s = _; unfold execClz; rfl)
  | brev q => cases h; refine ⟨?_, fun s => ?_⟩; on_goal 2 => (show execBrev r s = _; unfold execBrev; rfl)
  | bext q => cases h; refine ⟨?_, fun s => ?_⟩; on_goal 2 => (show execBext r s = _; unfold execBext; rfl)
  | bins q => cases h; refine ⟨?_, fun s => ?_⟩; on_goal 2 => (show execBins r s = _; unfold execBins; rfl)
  | rot q => cases h; refine ⟨?_, fun s => ?_⟩; on_goal 2 => (show execRot r s = _; unfold execRot; rfl)
  | cmp q => cases h; refine ⟨?_, fun s => ?_⟩; on_goal 2 => (show execCmp r s = _; unfold execCmp; rfl)
  | selp q => cases h; refine ⟨?_, fun s => ?_⟩; on_goal 2 => (show execSelp r s = _; unfold execSelp; rfl)
  | clamp q => cases h; refine ⟨?_, fun s => ?_⟩; on_goal 2 => (show execClamp r s = _; unfold execClamp; rfl)
  | cgetf q => cases h; refine ⟨?_, fun s => ?_⟩; on_goal 2 => (show execCgetf r s = _; unfold execCgetf; rfl)
  | csetb q => cases h; refine ⟨?_, fun s => ?_⟩; on_goal 2 => (show execCsetb r s = _; unfold execCsetb; rfl)
  | cinc q => cases h; refine ⟨?_, fun s => ?_⟩; on_goal 2 => (show execCinc r s = _; unfold execCinc; rfl)
  | csetc q => cases h; refine ⟨?_, fun s => ?_⟩; on_goal 2 => (show execCsetc r s = _; unfold execCsetc; rfl)
  | cperm q => cases h; refine ⟨?_, fun s => ?_⟩; on_goal 2 => (show execCperm r s = _; unfold execCperm; rfl)
  | cseal q => cases h; refine ⟨?_, fun s => ?_⟩; on_goal 2 => (show execCseal r s = _; unfold execCseal; rfl)
  | cunseal q => cases h; refine ⟨?_, fun s => ?_⟩; on_goal 2 => (show execCunseal r s = _; unfold execCunseal; rfl)
  | ctag q => cases h; refine ⟨?_, fun s => ?_⟩; on_goal 2 => (show execCtag r s = _; unfold execCtag; rfl)
  | cdiff q => cases h; refine ⟨?_, fun s => ?_⟩; on_goal 2 => (show execCdiff r s = _; unfold execCdiff; rfl)
  | cderiv q => cases h; refine ⟨?_, fun s => ?_⟩; on_goal 2 => (show execCderiv r s = _; unfold execCderiv; rfl)
  | fadd q => cases h; refine ⟨?_, fun s => ?_⟩; on_goal 2 => (show execFadd r s = _; unfold execFadd; rfl)
  | fsub q => cases h; refine ⟨?_, fun s => ?_⟩; on_goal 2 => (show execFsub r s = _; unfold execFsub; rfl)
  | fmul q => cases h; refine ⟨?_, fun s => ?_⟩; on_goal 2 => (show execFmul r s = _; unfold execFmul; rfl)
  | ffma q => cases h; refine ⟨?_, fun s => ?_⟩; on_goal 2 => (show execFfma r s = _; unfold execFfma; rfl)
  | fdiv q => cases h; refine ⟨?_, fun s => ?_⟩; on_goal 2 => (show execFdiv r s = _; unfold execFdiv; rfl)
  | fsqrt q => cases h; refine ⟨?_, fun s => ?_⟩; on_goal 2 => (show execFsqrt r s = _; unfold execFsqrt; rfl)
  | frsq q => cases h; refine ⟨?_, fun s => ?_⟩; on_goal 2 => (show execFrsq r s = _; unfold execFrsq; rfl)
  | fmin q => cases h; refine ⟨?_, fun s => ?_⟩; on_goal 2 => (show execFmin r s = _; unfold execFmin; rfl)
  | fmax q => cases h; refine ⟨?_, fun s => ?_⟩; on_goal 2 => (show execFmax r s = _; unfold execFmax; rfl)
  | fcmp q => cases h; refine ⟨?_, fun s => ?_⟩; on_goal 2 => (show execFcmp r s = _; unfold execFcmp; rfl)
  | fcls q => cases h; refine ⟨?_, fun s => ?_⟩; on_goal 2 => (show execFcls r s = _; unfold execFcls; rfl)
  | fcvt q => cases h; refine ⟨?_, fun s => ?_⟩; on_goal 2 => (show execFcvt r s = _; unfold execFcvt; rfl)
  | icvt q => cases h; refine ⟨?_, fun s => ?_⟩; on_goal 2 => (show execIcvt r s = _; unfold execIcvt; rfl)
  | frnd q => cases h; refine ⟨?_, fun s => ?_⟩; on_goal 2 => (show execFrnd r s = _; unfold execFrnd; rfl)
  | vadd q => cases h; refine ⟨?_, fun s => ?_⟩; on_goal 2 => (show execVadd r s = _; unfold execVadd; rfl)
  | vsub q => cases h; refine ⟨?_, fun s => ?_⟩; on_goal 2 => (show execVsub r s = _; unfold execVsub; rfl)
  | vmul q => cases h; refine ⟨?_, fun s => ?_⟩; on_goal 2 => (show execVmul r s = _; unfold execVmul; rfl)
  | vfma q => cases h; refine ⟨?_, fun s => ?_⟩; on_goal 2 => (show execVfma r s = _; unfold execVfma; rfl)
  | vmin q => cases h; refine ⟨?_, fun s => ?_⟩; on_goal 2 => (show execVmin r s = _; unfold execVmin; rfl)
  | vmax q => cases h; refine ⟨?_, fun s => ?_⟩; on_goal 2 => (show execVmax r s = _; unfold execVmax; rfl)
  | vscl q => cases h; refine ⟨?_, fun s => ?_⟩; on_goal 2 => (show execVscl r s = _; unfold execVscl; rfl)
  | vcmp q => cases h; refine ⟨?_, fun s => ?_⟩; on_goal 2 => (show execVcmp r s = _; unfold execVcmp; rfl)
  | vsel q => cases h; refine ⟨?_, fun s => ?_⟩; on_goal 2 => (show execVsel r s = _; unfold execVsel; rfl)
  | vbit q => cases h; refine ⟨?_, fun s => ?_⟩; on_goal 2 => (show execVbit r s = _; unfold execVbit; rfl)
  | vshf q => cases h; refine ⟨?_, fun s => ?_⟩; on_goal 2 => (show execVshf r s = _; unfold execVshf; rfl)
  | vsum q => cases h; refine ⟨?_, fun s => ?_⟩; on_goal 2 => (show execVsum r s = _; unfold execVsum; rfl)
  | vdot q => cases h; refine ⟨?_, fun s => ?_⟩; on_goal 2 => (show execVdot r s = _; unfold execVdot; rfl)
  | vrmax q => cases h; refine ⟨?_, fun s => ?_⟩; on_goal 2 => (show execVrmax r s = _; unfold execVrmax; rfl)
  | vperm q => cases h; refine ⟨?_, fun s => ?_⟩; on_goal 2 => (show execVperm r s = _; unfold execVperm; rfl)
  | vbcst q => cases h; refine ⟨?_, fun s => ?_⟩; on_goal 2 => (show execVbcst r s = _; unfold execVbcst; rfl)
  | vext q => cases h; refine ⟨?_, fun s => ?_⟩; on_goal 2 => (show execVext r s = _; unfold execVext; rfl)
  | vins q => cases h; refine ⟨?_, fun s => ?_⟩; on_goal 2 => (show execVins r s = _; unfold execVins; rfl)
  | vcvt q => cases h; refine ⟨?_, fun s => ?_⟩; on_goal 2 => (show execVcvt r s = _; unfold execVcvt; rfl)
  | vqnt q => cases h; refine ⟨?_, fun s => ?_⟩; on_goal 2 => (show execVqnt r s = _; unfold execVqnt; rfl)
  | vexp q => cases h; refine ⟨?_, fun s => ?_⟩; on_goal 2 => (show execVexp r s = _; unfold execVexp; rfl)
  | vln q => cases h; refine ⟨?_, fun s => ?_⟩; on_goal 2 => (show execVln r s = _; unfold execVln; rfl)
  | vrcp q => cases h; refine ⟨?_, fun s => ?_⟩; on_goal 2 => (show execVrcp r s = _; unfold execVrcp; rfl)
  | vrsq q => cases h; refine ⟨?_, fun s => ?_⟩; on_goal 2 => (show execVrsq r s = _; unfold execVrsq; rfl)
  | vact q => cases h; refine ⟨?_, fun s => ?_⟩; on_goal 2 => (show execVact r s = _; unfold execVact; rfl)
  | hfwd q => cases h; refine ⟨?_, fun s => ?_⟩; on_goal 2 => (show execHfwd r s = _; unfold execHfwd; rfl)
  | hinv q => cases h; refine ⟨?_, fun s => ?_⟩; on_goal 2 => (show execHinv r s = _; unfold execHinv; rfl)
  | hthr q => cases h; refine ⟨?_, fun s => ?_⟩; on_goal 2 => (show execHthr r s = _; unfold execHthr; rfl)
  | hrec q => cases h; refine ⟨?_, fun s => ?_⟩; on_goal 2 => (show execHrec r s = _; unfold execHrec; rfl)
  | hget q => cases h; refine ⟨?_, fun s => ?_⟩; on_goal 2 => (show execHget r s = _; unfold execHget; rfl)
  | htag q => cases h; refine ⟨?_, fun s => ?_⟩; on_goal 2 => (show execHtag r s = _; unfold execHtag; rfl)
  | hbias q => cases h; refine ⟨?_, fun s => ?_⟩; on_goal 2 => (show execHbias r s = _; unfold execHbias; rfl)
  | hspan q => cases h; refine ⟨?_, fun s => ?_⟩; on_goal 2 => (show execHspan r s = _; unfold execHspan; rfl)
  | hcnt q => cases h; refine ⟨?_, fun s => ?_⟩; on_goal 2 => (show execHcnt r s = _; unfold execHcnt; rfl)
  | rrd q => cases h; refine ⟨?_, fun s => ?_⟩; on_goal 2 => (show execRrd r s = _; unfold execRrd; rfl)
  | rwr q => cases h; refine ⟨?_, fun s => ?_⟩; on_goal 2 => (show execRwr r s = _; unfold execRwr; rfl)
  | radv q => cases h; refine ⟨?_, fun s => ?_⟩; on_goal 2 => (show execRadv r s = _; unfold execRadv; rfl)
  | wadv q => cases h; refine ⟨?_, fun s => ?_⟩; on_goal 2 => (show execWadv r s = _; unfold execWadv; rfl)
  | rfill q => cases h; refine ⟨?_, fun s => ?_⟩; on_goal 2 => (show execRfill r s = _; unfold execRfill; rfl)
  | falloc q => cases h; refine ⟨?_, fun s => ?_⟩; on_goal 2 => (show execFalloc r s = _; unfold execFalloc; rfl)
  | ffree q => cases h; refine ⟨?_, fun s => ?_⟩; on_goal 2 => (show execFfree r s = _; unfold execFfree; rfl)
  | flds q => cases h; refine ⟨?_, fun s => ?_⟩; on_goal 2 => (show execFlds r s = _; unfold execFlds; rfl)
  | fsts q => cases h; refine ⟨?_, fun s => ?_⟩; on_goal 2 => (show execFsts r s = _; unfold execFsts; rfl)
  | sendt q => cases h; refine ⟨?_, fun s => ?_⟩; on_goal 2 => (show execSendt r s = _; unfold execSendt; rfl)
  | tagn q => cases h; refine ⟨?_, fun s => ?_⟩; on_goal 2 => (show execTagn r s = _; unfold execTagn; rfl)
  | tagr q => cases h; refine ⟨?_, fun s => ?_⟩; on_goal 2 => (show execTagr r s = _; unfold execTagr; rfl)
  | dmd q => cases h; refine ⟨?_, fun s => ?_⟩; on_goal 2 => (show execDmd r s = _; unfold execDmd; rfl)
  | dget q => cases h; refine ⟨?_, fun s => ?_⟩; on_goal 2 => (show execDget r s = _; unfold execDget; rfl)
  | dxfm q => cases h; refine ⟨?_, fun s => ?_⟩; on_goal 2 => (show execDxfm r s = _; unfold execDxfm; rfl)
  | stime q => cases h; refine ⟨?_, fun s => ?_⟩; on_goal 2 => (show execStime r s = _; unfold execStime; rfl)
  | stset q => cases h; refine ⟨?_, fun s => ?_⟩; on_goal 2 => (show execStset r s = _; unfold execStset; rfl)
  | land q => cases h; refine ⟨?_, fun s => ?_⟩; on_goal 2 => (show execLand r s = _; unfold execLand; rfl)
  | lfind q => cases h; refine ⟨?_, fun s => ?_⟩; on_goal 2 => (show execLfind r s = _; unfold execLfind; rfl)
  | lrest q => cases h; refine ⟨?_, fun s => ?_⟩; on_goal 2 => (show execLrest r s = _; unfold execLrest; rfl)
  | silent q => cases h; refine ⟨?_, fun s => ?_⟩; on_goal 2 => (show execSilent r s = _; unfold execSilent; rfl)
  | ddone q => cases h; refine ⟨?_, fun s => ?_⟩; on_goal 2 => (show execDdone r s = _; unfold execDdone; rfl)
  | ld q => cases h; refine ⟨?_, fun s => ?_⟩; on_goal 2 => (show execLd r s = _; unfold execLd; rfl)
  | st q => cases h; refine ⟨?_, fun s => ?_⟩; on_goal 2 => (show execSt r s = _; unfold execSt; rfl)
  | ldc q => cases h; refine ⟨?_, fun s => ?_⟩; on_goal 2 => (show execLdc r s = _; unfold execLdc; rfl)
  | stc q => cases h; refine ⟨?_, fun s => ?_⟩; on_goal 2 => (show execStc r s = _; unfold execStc; rfl)
  | ldq q => cases h; refine ⟨?_, fun s => ?_⟩; on_goal 2 => (show execLdq r s = _; unfold execLdq; rfl)
  | stq q => cases h; refine ⟨?_, fun s => ?_⟩; on_goal 2 => (show execStq r s = _; unfold execStq; rfl)
  | pref q => cases h; refine ⟨?_, fun s => ?_⟩; on_goal 2 => (show execPref r s = _; unfold execPref; rfl)
  | ldx q => cases h; refine ⟨?_, fun s => ?_⟩; on_goal 2 => (show execLdx r s = _; unfold execLdx; rfl)
  | stx q => cases h; refine ⟨?_, fun s => ?_⟩; on_goal 2 => (show execStx r s = _; unfold execStx; rfl)
  | lds q => cases h; refine ⟨?_, fun s => ?_⟩; on_goal 2 => (show execLds r s = _; unfold execLds; rfl)
  | sts q => cases h; refine ⟨?_, fun s => ?_⟩; on_goal 2 => (show execSts r s = _; unfold execSts; rfl)
  | fence q => cases h; refine ⟨?_, fun s => ?_⟩; on_goal 2 => (show execFence r s = _; unfold execFence; rfl)
  | acq q => cases h; refine ⟨?_, fun s => ?_⟩; on_goal 2 => (show execAcq r s = _; unfold execAcq; rfl)
  | rel q => cases h; refine ⟨?_, fun s => ?_⟩; on_goal 2 => (show execRel r s = _; unfold execRel; rfl)
  | aop q => cases h; refine ⟨?_, fun s => ?_⟩; on_goal 2 => (show execAop r s = _; unfold execAop; rfl)
  | acas q => cases h; refine ⟨?_, fun s => ?_⟩; on_goal 2 => (show execAcas r s = _; unfold execAcas; rfl)
  | afadd q => cases h; refine ⟨?_, fun s => ?_⟩; on_goal 2 => (show execAfadd r s = _; unfold execAfadd; rfl)
  | cmb q => cases h; refine ⟨?_, fun s => ?_⟩; on_goal 2 => (show execCmb r s = _; unfold execCmb; rfl)
  | cmbi q => cases h; refine ⟨?_, fun s => ?_⟩; on_goal 2 => (show execCmbi r s = _; unfold execCmbi; rfl)
  | ared q => cases h; refine ⟨?_, fun s => ?_⟩; on_goal 2 => (show execAred r s = _; unfold execAred; rfl)
  | mldb q => cases h; refine ⟨?_, fun s => ?_⟩; on_goal 2 => (show execMldb r s = _; unfold execMldb; rfl)
  | mtask q => cases h; refine ⟨?_, fun s => ?_⟩; on_goal 2 => (show execMtask r s = _; unfold execMtask; rfl)
  | mrow q => cases h; refine ⟨?_, fun s => ?_⟩; on_goal 2 => (show execMrow r s = _; unfold execMrow; rfl)
  | macc q => cases h; refine ⟨?_, fun s => ?_⟩; on_goal 2 => (show execMacc r s = _; unfold execMacc; rfl)
  | meor q => cases h; refine ⟨?_, fun s => ?_⟩; on_goal 2 => (show execMeor r s = _; unfold execMeor; rfl)
  | mspl q => cases h; refine ⟨?_, fun s => ?_⟩; on_goal 2 => (show execMspl r s = _; unfold execMspl; rfl)
  | mrst q => cases h; refine ⟨?_, fun s => ?_⟩; on_goal 2 => (show execMrst r s = _; unfold execMrst; rfl)
  | mzro q => cases h; refine ⟨?_, fun s => ?_⟩; on_goal 2 => (show execMzro r s = _; unfold execMzro; rfl)
  | mpln q => cases h; refine ⟨?_, fun s => ?_⟩; on_goal 2 => (show execMpln r s = _; unfold execMpln; rfl)
  | mqry q => cases h; refine ⟨?_, fun s => ?_⟩; on_goal 2 => (show execMqry r s = _; unfold execMqry; rfl)
  | mcut q => cases h; refine ⟨?_, fun s => ?_⟩; on_goal 2 => (show execMcut r s = _; unfold execMcut; rfl)
  | cpy q => cases h; refine ⟨?_, fun s => ?_⟩; on_goal 2 => (show execCpy r s = _; unfold execCpy; rfl)
  | cpyq q => cases h; refine ⟨?_, fun s => ?_⟩; on_goal 2 => (show execCpyq r s = _; unfold execCpyq; rfl)
  | twall q => cases h; refine ⟨?_, fun s => ?_⟩; on_goal 2 => (show execTwall r s = _; unfold execTwall; rfl)
  | twany q => cases h; refine ⟨?_, fun s => ?_⟩; on_goal 2 => (show execTwany r s = _; unfold execTwany; rfl)
  | tffr q => cases h; refine ⟨?_, fun s => ?_⟩; on_goal 2 => (show execTffr r s = _; unfold execTffr; rfl)
  | tclr q => cases h; refine ⟨?_, fun s => ?_⟩; on_goal 2 => (show execTclr r s = _; unfold execTclr; rfl)
  | bari q => cases h; refine ⟨?_, fun s => ?_⟩; on_goal 2 => (show execBari r s = _; unfold execBari; rfl)
  | barv q => cases h; refine ⟨?_, fun s => ?_⟩; on_goal 2 => (show execBarv r s = _; unfold execBarv; rfl)
  | barw q => cases h; refine ⟨?_, fun s => ?_⟩; on_goal 2 => (show execBarw r s = _; unfold execBarw; rfl)
  | barq q => cases h; refine ⟨?_, fun s => ?_⟩; on_goal 2 => (show execBarq r s = _; unfold execBarq; rfl)
  | collGather q => cases h; refine ⟨?_, fun s => ?_⟩; on_goal 2 => (show execCollGather r s = _; unfold execCollGather; rfl)
  | collRsum q => cases h; refine ⟨?_, fun s => ?_⟩; on_goal 2 => (show execCollRsum r s = _; unfold execCollRsum; rfl)
  | collAsum q => cases h; refine ⟨?_, fun s => ?_⟩; on_goal 2 => (show execCollAsum r s = _; unfold execCollAsum; rfl)
  | collBcast q => cases h; refine ⟨?_, fun s => ?_⟩; on_goal 2 => (show execCollBcast r s = _; unfold execCollBcast; rfl)
  | cxpt q => cases h; refine ⟨?_, fun s => ?_⟩; on_goal 2 => (show execCxpt r s = _; unfold execCxpt; rfl)
  | xsect q => cases h; refine ⟨?_, fun s => ?_⟩; on_goal 2 => (show execXsect r s = _; unfold execXsect; rfl)
  | fibrd q => cases h; refine ⟨?_, fun s => ?_⟩; on_goal 2 => (show execFibrd r s = _; unfold execFibrd; rfl)
  | fibwr q => cases h; refine ⟨?_, fun s => ?_⟩; on_goal 2 => (show execFibwr r s = _; unfold execFibwr; rfl)
  | stopn q => cases h; refine ⟨?_, fun s => ?_⟩; on_goal 2 => (show execStopn r s = _; unfold execStopn; rfl)
  | spacc q => cases h; refine ⟨?_, fun s => ?_⟩; on_goal 2 => (show execSpacc r s = _; unfold execSpacc; rfl)
  | spfl q => cases h; refine ⟨?_, fun s => ?_⟩; on_goal 2 => (show execSpfl r s = _; unfold execSpfl; rfl)
  | pxlt q => cases h; refine ⟨?_, fun s => ?_⟩; on_goal 2 => (show execPxlt r s = _; unfold execPxlt; rfl)
  | kvapp q => cases h; refine ⟨?_, fun s => ?_⟩; on_goal 2 => (show execKvapp r s = _; unfold execKvapp; rfl)
  | kvlen q => cases h; refine ⟨?_, fun s => ?_⟩; on_goal 2 => (show execKvlen r s = _; unfold execKvlen; rfl)
  | smxm q => cases h; refine ⟨?_, fun s => ?_⟩; on_goal 2 => (show execSmxm r s = _; unfold execSmxm; rfl)
  | smxf q => cases h; refine ⟨?_, fun s => ?_⟩; on_goal 2 => (show execSmxf r s = _; unfold execSmxf; rfl)
  | phase q => cases h; refine ⟨?_, fun s => ?_⟩; on_goal 2 => (show execPhase r s = _; unfold execPhase; rfl)
  | phend q => cases h; refine ⟨?_, fun s => ?_⟩; on_goal 2 => (show execPhend r s = _; unfold execPhend; rfl)
  | ball q => cases h; refine ⟨?_, fun s => ?_⟩; on_goal 2 => (show execBall r s = _; unfold execBall; rfl)
  | crd q => cases h; refine ⟨?_, fun s => ?_⟩; on_goal 2 => (show execCrd r s = _; unfold execCrd; rfl)
  | cwr q => cases h; refine ⟨?_, fun s => ?_⟩; on_goal 2 => (show execCwr r s = _; unfold execCwr; rfl)
  | tlbi q => cases h; refine ⟨?_, fun s => ?_⟩; on_goal 2 => (show execTlbi r s = _; unfold execTlbi; rfl)
  | tlbs q => cases h; refine ⟨?_, fun s => ?_⟩; on_goal 2 => (show execTlbs r s = _; unfold execTlbs; rfl)
  | iret q => cases h; refine ⟨?_, fun s => ?_⟩; on_goal 2 => (show execIret r s = _; unfold execIret; rfl)
  | prio q => cases h; refine ⟨?_, fun s => ?_⟩; on_goal 2 => (show execPrio r s = _; unfold execPrio; rfl)
  | ctxlLoad q => cases h; refine ⟨?_, fun s => ?_⟩; on_goal 2 => (show execCtxlLoad r s = _; unfold execCtxlLoad; rfl)
  | ctxlResume q => cases h; refine ⟨?_, fun s => ?_⟩; on_goal 2 => (show execCtxlResume r s = _; unfold execCtxlResume; rfl)
  | ctxe q => cases h; refine ⟨?_, fun s => ?_⟩; on_goal 2 => (show execCtxe r s = _; unfold execCtxe; rfl)
  | retryPort q => cases h; refine ⟨?_, fun s => ?_⟩; on_goal 2 => (show execRetryPort r s = _; unfold execRetryPort; rfl)
  | retryFrame q => cases h; refine ⟨?_, fun s => ?_⟩; on_goal 2 => (show execRetryFrame r s = _; unfold execRetryFrame; rfl)
  | wfe q => cases h; refine ⟨?_, fun s => ?_⟩; on_goal 2 => (show execWfe r s = _; unfold execWfe; rfl)
  | evsig q => cases h; refine ⟨?_, fun s => ?_⟩; on_goal 2 => (show execEvsig r s = _; unfold execEvsig; rfl)
  | migr q => cases h; refine ⟨?_, fun s => ?_⟩; on_goal 2 => (show execMigr r s = _; unfold execMigr; rfl)
  | thrt q => cases h; refine ⟨?_, fun s => ?_⟩; on_goal 2 => (show execThrt r s = _; unfold execThrt; rfl)
  | _ => cases h

/-- Where the gate opens, a firing settles what its meaning answers. -/
theorem fire_go {o : Op} {r : Rec} {s : State} {f : State → Act → View → Fired} {u : UnitId} {j : Nat} {a : Act} {v : View}
    (h : s.firing = some (u, j, a)) (g : gate s u a j o r = .go v) :
    fire o r s f = .next (settle s u (if isNewel u then a.skipBelow j else a) j r
      (f s (if isNewel u then a.skipBelow j else a) v)) := by
  unfold fire
  rw [h]
  dsimp only
  rw [g]

/-- A completion with no trapped flag puts the completed activation into its unit. -/
theorem settle_done {s : State} {u : UnitId} {a b : Act} {j : Nat} {r : Rec} {fl : BitVec 6} {d0 d1 : Option Val}
    (h : fl &&& a.trap = 0) : settle s u a j r (.done b fl d0 d1) = s.putAct u (b.complete s.clock.steps j r fl d0 d1) := by
  simp [settle, h]

/-- A firing whose meaning completes with no trapped flag. -/
theorem fire_done {o : Op} {r : Rec} {s : State} {f : State → Act → View → Fired} {u : UnitId} {j : Nat} {a b : Act} {v : View}
    {fl : BitVec 6} {d0 d1 : Option Val} (h : s.firing = some (u, j, a)) (g : gate s u a j o r = .go v)
    (e : f s (if isNewel u then a.skipBelow j else a) v = .done b fl d0 d1)
    (n : fl &&& (if isNewel u then a.skipBelow j else a).trap = 0) :
    fire o r s f = .next (s.putAct u (b.complete s.clock.steps j r fl d0 d1)) := by
  rw [fire_go h g, e, settle_done n]

/-- A firing whose meaning faults. -/
theorem fire_fault {o : Op} {r : Rec} {s : State} {f : State → Act → View → Fired} {u : UnitId} {j : Nat} {a : Act} {v : View}
    {cls code port addr : Nat} (h : s.firing = some (u, j, a)) (g : gate s u a j o r = .go v)
    (e : f s (if isNewel u then a.skipBelow j else a) v = .fault cls code port addr) :
    fire o r s f = .next (s.takeFault u (if isNewel u then a.skipBelow j else a) j cls code port addr) := by
  rw [fire_go h g, e]
  rfl

/-- A firing whose meaning waits. -/
theorem fire_wait {o : Op} {r : Rec} {s : State} {f : State → Act → View → Fired} {u : UnitId} {j : Nat} {a : Act} {v : View}
    (h : s.firing = some (u, j, a)) (g : gate s u a j o r = .go v) (e : f s (if isNewel u then a.skipBelow j else a) v = .wait) :
    fire o r s f = .next (s.putAct u ((if isNewel u then a.skipBelow j else a).setSt j .waiting)) := by
  rw [fire_go h g, e]
  rfl

/-- A firing whose meaning issues a request. -/
theorem fire_issue {o : Op} {r : Rec} {s : State} {f : State → Act → View → Fired} {u : UnitId} {j : Nat} {a : Act} {v : View}
    {sp ad : Nat} {k : ReqKind} (h : s.firing = some (u, j, a)) (g : gate s u a j o r = .go v)
    (e : f s (if isNewel u then a.skipBelow j else a) v = .issue sp ad k) :
    fire o r s f = .next ((s.addReq ((if isNewel u then a.skipBelow j else a).request
      (s.ctx (if isNewel u then a.skipBelow j else a).ctx) u j sp ad k)).putAct u
      ((if isNewel u then a.skipBelow j else a).setSt j (.issued s.net.nextReq))) := by
  rw [fire_go h g, e]
  rfl

/-- What a meaning answers changes nothing of the device but its own side. -/
theorem settle_same (s : State) (u : UnitId) (a : Act) (j : Nat) (r : Rec) (x : Fired) : SameDevice s (settle s u a j r x) := by
  cases x with
  | done b fl d0 d1 =>
    unfold settle
    dsimp only
    split
    · exact takeFault_same ..
    · exact SameDevice.putAct ..
  | doneCtx y b fl d0 d1 => exact (SameDevice.modCtx ..).trans (SameDevice.putAct ..)
  | wait => exact SameDevice.putAct ..
  | waitCtx y => exact (SameDevice.modCtx ..).trans (SameDevice.putAct ..)
  | issue sp ad k => exact (SameDevice.addReq ..).trans (SameDevice.putAct ..)
  | fault cls code port addr => exact takeFault_same ..

/-- A firing answers a next state, whatever its meaning: the machine as it was, the record waiting or nullified, a fault of its gate,
or what its meaning answers, settled. -/
theorem fire_next (o : Op) (r : Rec) (s : State) (f : State → Act → View → Fired) : ∃ t, fire o r s f = .next t ∧
    (t = s ∨ ∃ u j a, s.firing = some (u, j, a) ∧
      ((∃ x, t = s.putAct u (a.setSt j x)) ∨ (∃ c k q, t = s.takeFault u a j c k q 0) ∨
       ∃ b v, gate s u a j o r = .go v ∧ t = settle s u b j r (f s b v))) := by
  unfold fire
  cases e : s.firing with
  | none => exact ⟨s, rfl, .inl rfl⟩
  | some y =>
    obtain ⟨u, j, a⟩ := y
    dsimp only
    cases g : gate s u a j o r with
    | hold => exact ⟨s, rfl, .inl rfl⟩
    | wait => exact ⟨_, rfl, .inr ⟨u, j, a, rfl, .inl ⟨_, rfl⟩⟩⟩
    | nullify => exact ⟨_, rfl, .inr ⟨u, j, a, rfl, .inl ⟨_, rfl⟩⟩⟩
    | fault c k q => exact ⟨_, rfl, .inr ⟨u, j, a, rfl, .inr (.inl ⟨c, k, q, rfl⟩)⟩⟩
    | go v => exact ⟨_, rfl, .inr ⟨u, j, a, rfl, .inr (.inr ⟨_, v, g, rfl⟩)⟩⟩

end Sys2Proof.Machine
end

