-- ==== Sys2Proof/Laws/Memory.lean ====
section
/-! SUPPORT. The canonical form of memory, kept by every operation over it. -/
namespace Sys2Proof.Machine

theorem wfFrom_mono {m : Memory} {a b : Nat} (h : a ≤ b) (w : Memory.wfFrom b m = true) : Memory.wfFrom a m = true := by
  cases m with
  | nil => rfl
  | cons c t =>
    simp only [Memory.wfFrom, Bool.and_eq_true, decide_eq_true_eq] at *
    exact ⟨⟨by omega, w.1.2⟩, w.2⟩

/-- A byte written keeps the form, above any bound that it and the memory are above. -/
theorem wfFrom_set {m : Memory} {lo a : Nat} {v : Byte} (h : lo ≤ a) (w : Memory.wfFrom lo m = true) :
    Memory.wfFrom lo (Memory.set m a v) = true := by
  induction m generalizing lo with
  | nil =>
    unfold Memory.set
    split <;> simp_all [Memory.wfFrom]
  | cons c t ih =>
    obtain ⟨b, x⟩ := c
    simp only [Memory.wfFrom, Bool.and_eq_true, decide_eq_true_eq] at w
    unfold Memory.set
    split
    · split <;> simp_all [Memory.wfFrom]
    · split
      · rename_i e
        subst e
        split
        · exact wfFrom_mono (by omega) w.2
        · simp_all [Memory.wfFrom]
      · have := ih (lo := b + 1) (by omega) w.2
        simp_all [Memory.wfFrom]

/-- A byte written keeps the canonical form. -/
theorem Memory.wf_set {m : Memory} (a : Nat) (v : Byte) (w : Memory.wf m = true) : Memory.wf (Memory.set m a v) = true :=
  wfFrom_set (Nat.zero_le a) w

/-- Bytes written keep the canonical form. -/
theorem Memory.wf_store {m : Memory} (a : Nat) (l : List Byte) (w : Memory.wf m = true) :
    Memory.wf (Memory.store m a l) = true := by
  induction l generalizing m a with
  | nil => exact w
  | cons b t ih => exact ih _ (Memory.wf_set a b w)

/-- A memory some of whose bytes are forgotten is canonical. -/
theorem wfFrom_filter {m : Memory} {lo : Nat} (p : Host.Cell → Bool) (w : Memory.wfFrom lo m = true) :
    Memory.wfFrom lo (m.filter p) = true := by
  induction m generalizing lo with
  | nil => rfl
  | cons c t ih =>
    simp only [Memory.wfFrom, Bool.and_eq_true, decide_eq_true_eq] at w
    by_cases h : p c = true
    · have := ih w.2
      simp_all [Memory.wfFrom]
    · simp only [List.filter_cons, h]
      exact ih (wfFrom_mono (by omega) w.2)

theorem Memory.wf_filter {m : Memory} (p : Host.Cell → Bool) (w : Memory.wf m = true) : Memory.wf (m.filter p) = true :=
  wfFrom_filter p w

/-- A range whose bytes are replaced by those of a list is canonical (20 R361). -/
theorem Memory.wf_replace {m : Memory} (lo n : Nat) (l : List Host.Cell) (w : Memory.wf m = true) :
    Memory.wf (Memory.replace m lo n l) = true := by
  unfold Memory.replace
  have h : ∀ (l : List Host.Cell) (k : Memory), Memory.wf k = true →
      Memory.wf (l.foldl (fun t c => Memory.set t c.1 c.2) k) = true := by
    intro l
    induction l with
    | nil => exact fun _ h => h
    | cons c t ih => exact fun k h => ih _ (Memory.wf_set c.1 c.2 h)
  exact h l _ (Memory.wf_filter _ w)

/-- The memory of the reset state is canonical and lists nothing. -/
@[simp] theorem State.reset_mem : State.reset.mem = [] := rfl

/-! ### The operations on a state that change memory -/

theorem State.wf_writeAt {s : State} (key : Nat) (l : List Byte) (w : Memory.wf s.mem = true) :
    Memory.wf (s.writeAt key l).mem = true := by
  rw [State.writeAt_mem]
  exact Memory.wf_store key l w

theorem State.wf_mergeAt {s : State} (key : Nat) (im : List (Byte × Byte)) (w : Memory.wf s.mem = true) :
    Memory.wf (s.mergeAt key im).mem = true := by
  have h : ∀ (l : List ((Byte × Byte) × Nat)) (m : Memory), Memory.wf m = true →
      Memory.wf (l.foldl (fun m x => if x.1.1 = 0 then m
        else Memory.set m (key + x.2) (mergeByte (Memory.get m (key + x.2)) x.1.1 x.1.2)) m) = true := by
    intro l
    induction l with
    | nil => exact fun _ h => h
    | cons x t ih =>
      intro m k
      rw [List.foldl_cons]
      apply ih
      split
      · exact k
      · exact Memory.wf_set _ _ k
  exact h _ _ w

theorem State.wf_mergeCourseAt {s : State} (key : Nat) (m v : Course) (w : Memory.wf s.mem = true) :
    Memory.wf (s.mergeCourseAt key m v).mem = true := State.wf_mergeAt _ _ w

theorem State.wf_putCourse {s : State} (key : Nat) (c : Course) (w : Memory.wf s.mem = true) :
    Memory.wf (s.putCourse key c).mem = true := by
  unfold State.putCourse
  exact State.wf_writeAt _ _ w

theorem State.wf_copyFrame {s : State} (a b n : Nat) (w : Memory.wf s.mem = true) :
    Memory.wf (s.copyFrame a b n).mem = true := by
  unfold State.copyFrame
  exact Memory.wf_replace _ _ _ w

theorem State.wf_resetZ {s : State} (key : Nat) (w : Memory.wf s.mem = true) : Memory.wf (s.resetZ key).mem = true := by
  unfold State.resetZ
  rw [State.putMem_mem]
  exact Memory.wf_store _ _ w

/-- A store performed at its place keeps the form, whatever its data. -/
theorem State.wf_storeAt {s : State} (d : StoreData) (va : Nat) (x : Spot) (w : Memory.wf s.mem = true) :
    Memory.wf (s.storeAt d va x).mem = true := by
  unfold State.storeAt
  dsimp only
  by_cases t : x.typed = true
  · simp only [t, if_true]
    cases d with
    | bytes l => exact State.wf_writeAt _ _ w
    | area l => exact w
    | packed l => exact w
    | course c => exact State.wf_putCourse _ _ w
    | narrow c => exact State.wf_putCourse _ _ w
    | masked ty m c => exact State.wf_mergeCourseAt _ _ _ w
    | pair v g => exact w
    | scalar ty v => exact State.wf_mergeCourseAt _ _ _ w
  · rw [if_neg t]
    cases d with
    | pair v g =>
      cases g with
      | false => exact State.wf_writeAt (s := s) _ _ w
      | true => exact State.wf_writeAt (s := s) _ _ w
    | bytes l => exact State.wf_writeAt _ _ w
    | area l => exact State.wf_writeAt _ _ w
    | packed l => exact State.wf_writeAt _ _ w
    | course c => exact State.wf_writeAt _ _ w
    | narrow c => exact State.wf_writeAt _ _ w
    | masked ty m c => exact State.wf_mergeAt (s := s) _ _ w
    | scalar ty v => exact State.wf_writeAt _ _ w

end Sys2Proof.Machine
end

