-- ==== Sys2Proof/Laws/Requests.lean ====
section
/-! SUPPORT. What ending, holding or changing a request leaves. -/
namespace Sys2Proof.Machine

@[simp] theorem State.modHome_mem (s : State) (c load : Nat) (f : Ctx → Ctx) : (s.modHome c load f).mem = s.mem := by
  unfold State.modHome
  dsimp only
  split <;> rfl

@[simp] theorem State.modHome_reqs (s : State) (c load : Nat) (f : Ctx → Ctx) : (s.modHome c load f).net.reqs = s.net.reqs := by
  unfold State.modHome
  dsimp only
  split <;> rfl

/-- Ring entries let go change no memory and no request. -/
theorem State.releaseRings_same (s : State) : s.releaseRings.mem = s.mem ∧ s.releaseRings.net.reqs = s.net.reqs := by
  have h : ∀ (l : List RingHold) (t : State),
      (l.foldl (fun t h => t.modHome h.ctx h.load_ fun x => x.modRing h.q fun g => g.put h.n (some h.v)) t).mem = t.mem ∧
      (l.foldl (fun t h => t.modHome h.ctx h.load_ fun x => x.modRing h.q fun g => g.put h.n (some h.v)) t).net.reqs = t.net.reqs := by
    intro l
    induction l with
    | nil => exact fun _ => ⟨rfl, rfl⟩
    | cons x y ih =>
      intro t
      obtain ⟨p, q⟩ := ih (t.modHome x.ctx x.load_ fun z => z.modRing x.q fun g => g.put x.n (some x.v))
      exact ⟨p.trans (State.modHome_mem ..), q.trans (State.modHome_reqs ..)⟩
  unfold State.releaseRings
  dsimp only
  exact h _ _

@[simp] theorem State.dropReq_mem (s : State) (i : Nat) : (s.dropReq i).mem = s.mem := by
  unfold State.dropReq
  exact (State.releaseRings_same _).1

@[simp] theorem State.dropReq_reqs (s : State) (i : Nat) : (s.dropReq i).net.reqs = s.net.reqs.filter fun q => q.id ≠ i := by
  unfold State.dropReq
  exact (State.releaseRings_same _).2

/-- A request that is over is no longer there. -/
@[simp] theorem State.dropReq_req? (s : State) (i : Nat) : (s.dropReq i).req? i = none := by
  simp [State.req?, List.find?_eq_none]

@[simp] theorem State.deliverFault_mem (s : State) (f : FaultInfo) (unit die c : Nat) : (s.deliverFault f unit die c).mem = s.mem :=
  (deliverTo_same s false f unit die c).mem

/-- A request held at its port changes no memory. -/
@[simp] theorem State.holdReq_mem (s : State) (q : Req) (cls code : Nat) (loops : List Nat) : (s.holdReq q cls code loops).mem = s.mem := by
  unfold State.holdReq
  dsimp only
  split
  · rfl
  · split <;> simp

@[simp] theorem State.takeFault_mem (s : State) (u : UnitId) (a : Act) (j cls code port addr : Nat) :
    (s.takeFault u a j cls code port addr).mem = s.mem := (takeFault_same s u a j cls code port addr).mem

end Sys2Proof.Machine
end

