-- ==== Sys2Proof/Tests/Slice0.lean ====
section
/-! SUPPORT. Small tests: ill-formed terms that the check refuses, words of the spec, results that the spec states, and for every
statement with hypotheses a state and operands that meet them. -/
namespace Sys2Proof.Tests
open Sys2Proof.Machine Sys2Proof.Claims

-- one theorem after another: each takes a thread of its own otherwise
set_option Elab.async false

/-! ### Helpers -/

/-- A record of scalars of I64 that reads its own two ports and delivers nowhere. -/
def rec0 : Rec := ⟨0, .i64, .scalar, .port, .port, .none, .none, .none, 0, 0⟩

/-- An activation of a unit whose record 1 is of form o, with A and B on its ports and K written to t0 by record 0. -/
def act1 (u : UnitId) (o : Op) (r : Rec) (A B K : Val) : Act :=
  { loneAct (o.encode r) with
    w := Waiting.fresh .frame 64 u 0 0 0 [] 0
    blk := ⟨64, 1, 4, 16, 0xFFFF, [0, o.encode r], [0, 0], []⟩
    recs := [⟨.skipped, none, none, none, none, []⟩, ⟨.idle, some A, some B, predToken r.pq, none, []⟩]
    temps := [⟨0, 0, K, []⟩] }

/-- The reset state in which record 1 of an activation fires. -/
def state1 (u : UnitId) (a : Act) : State :=
  { State.reset.putAct u a with sched := { State.reset.sched with cur := some (u, 1) } }

/-- A firing on element 0, its activation and its state changed by h and g. -/
def fire1 (o : Op) (r : Rec) (A B : Val) (K : Val := Val.zero .pair) (h : Act → Act := id) (g : State → State := id) : Firing :=
  let a := h (act1 (.element 0) o r A B K)
  ⟨g (state1 (.element 0) a), .element 0, 1, a, r, A, B⟩

/-- The firing opens, as a test. -/
def opensB (f : Firing) (o : Op) : Bool :=
  decide (f.s.firing = some (f.u, f.j, f.a)) && decide (gate f.s f.u f.a f.j o f.r = .go ⟨f.u, f.j, f.a.ctx, f.r, f.A, f.B⟩)

theorem opens_of {f : Firing} {o : Op} (h : opensB f o = true) : f.opens o := by
  simp only [opensB, Bool.and_eq_true, decide_eq_true_eq] at h
  exact h

/-- Some firing of form o opens and meets P. -/
def Meets (o : Op) (P : Firing → Prop) : Prop := ∃ f : Firing, f.opens o ∧ P f

theorem meets {o : Op} {P : Firing → Prop} (f : Firing) (h : opensB f o = true) (p : P f) : Meets o P := ⟨f, opens_of h, p⟩

/-- A scalar of a number. -/
def sc (n : Nat) : Val := Val.ofNat n

/-! ### Well-formedness (06 R120): each check refuses a term -/

/-- ADD of port a and a literal to output port 3. -/
def addLit : Rec := { rec0 with fn := 1, ty := .i32, b := .lit, d0 := .out 3, lit := 0xFFFFFFFB }

theorem test_wellformed_add : Instr.wellFormed (.add addLit) = true := by decide +kernel
theorem test_wellformed_event : Instr.wellFormed .commitMoment = true := rfl
/-- An FN that is not assigned to the opcode. -/
theorem test_illformed_variant : fieldFault .widest .add { addLit with fn := 2 } = 5 := by decide +kernel
/-- A float type for an integer form. -/
theorem test_illformed_type : fieldFault .widest .add { addLit with ty := .f32 } = 7 := by decide +kernel
/-- A course shape for an integer form. -/
theorem test_illformed_shape : fieldFault .widest .add { addLit with sh := .course } = 8 := by decide +kernel
/-- A single-source form whose unread selector is not 0xA. -/
theorem test_illformed_selector : fieldFault .widest .neg { rec0 with d0 := .out 0 } = 10 := by decide +kernel
/-- A required destination that is absent. -/
theorem test_illformed_destination : fieldFault .widest .add { addLit with d0 := .none } = 12 := by decide +kernel
/-- An AX bit that must be zero. -/
theorem test_illformed_reserved : fieldFault .widest .add { addLit with ax := 1 } = 13 := by decide +kernel
/-- BEXT with pos + len beyond the width (08 R157). -/
theorem test_illformed_range :
    fieldFault .widest .bext { rec0 with ty := .i8, b := .lit, d0 := .out 0, lit := 0x0701 } = 14 := by decide +kernel
/-- DGET outside a block of class 2, a privileged form outside a Newel, and a ring outside the mask. -/
theorem test_illformed_class :
    fieldFault { FetchEnv.widest with cls := 0 } .dget { rec0 with ty := .i64, sh := .pair, b := .zero, d0 := .out 0 } = 3 := by
  decide +kernel
theorem test_illformed_privilege :
    fieldFault { FetchEnv.widest with newel := false, sys := false } .thrt { rec0 with ty := .n64 } = 6 := by decide +kernel
theorem test_illformed_ring :
    fieldFault { FetchEnv.widest with ringMask := 0 } .rfill { rec0 with ty := .n64, a := .zero, b := .zero, d0 := .out 0 } = 11 := by
  decide +kernel
theorem test_illformed_terms :
    Instr.wellFormed (.add { addLit with fn := 2 }) = false ∧ Instr.wellFormed (.add { addLit with ty := .f32 }) = false ∧
    Instr.wellFormed (.add { addLit with sh := .course }) = false ∧ Instr.wellFormed (.neg { rec0 with d0 := .out 0 }) = false ∧
    Instr.wellFormed (.add { addLit with d0 := .none }) = false ∧ Instr.wellFormed (.add { addLit with ax := 1 }) = false ∧
    Instr.wellFormed (.bext { rec0 with ty := .i8, b := .lit, d0 := .out 0, lit := 0x0701 }) = false := by decide +kernel

/-! ### Words of the spec: their bits as it writes them, and the instruction it gives them to -/

/-- EXIT A, #0 (06, the worked block). -/
theorem test_word_exit : decodeTableWord 96 0x0100_0240_0000_0000_0000_0000 =
    some (.exitOp { rec0 with b := .lit }) := by decide +kernel
/-- STEER to n2.a and n3.a (08, the example of STEER). -/
theorem test_word_steer : decodeTableWord 96 0x0600_0002_0841_8000_0000_0000 =
    some (.steer { rec0 with d0 := .node 2 .a, d1 := .node 3 .a }) := by decide +kernel
/-- EXITX t2 (16). -/
theorem test_word_exitx : decodeTableWord 96 0x0301_0E80_0000_0000_0000_0000 =
    some (.exitx { rec0 with ty := .n64, a := .temp 2, b := .zero }) := by decide +kernel
/-- ADD stamp, #65536 -> n3.b, n6.b (12, scat n0). -/
theorem test_word_add : decodeTableWord 96 0x1000_3242_0D43_2000_0001_0000 =
    some (.add { rec0 with a := .stamp, b := .lit, d0 := .node 3 .b, d1 := .node 6 .b, lit := 0x10000 }) := by decide +kernel
/-- SELP (16, ftok n4). -/
theorem test_word_selp : decodeTableWord 96 0x2B01_0242_1800_0001_FFFF_FFF0 =
    some (.selp { rec0 with ty := .n64, b := .lit, d0 := .node 6 .a, ax := 1, lit := 0xFFFFFFF0 }) := by decide +kernel
/-- CGETF.base.cap A -> n1.a, its fields written out: OP 0x30, FN 1, TY 0xD, SH 0b10, SB 0xA, D0 n1.a. -/
theorem test_word_cgetf :
    decodeTableWord 96 (0x30#8 ++ 1#4 ++ 0xD#4 ++ 2#2 ++ 0#4 ++ 0xA#4 ++ 0#3 ++ 0b01000000100#11 ++ 0#11 ++ 0#13 ++ 0#32).toNat =
    some (.cgetf { rec0 with fn := 1, ty := .cap, sh := .pair, b := .zero, d0 := .node 1 .a }) := by decide +kernel
/-- ICVT.f32 stamp -> t0 (06, the worked block). -/
theorem test_word_icvt : decodeTableWord 96 0x4C08_3284_0000_0000_0000_0000 =
    some (.icvt { rec0 with ty := .f32, a := .stamp, b := .zero, d0 := .temp 0 }) := by decide +kernel
/-- VADD.f32 of port a and the ring of AX[7:4], on false, to o0 (01 M34 to M36). -/
theorem test_word_vadd : decodeTableWord 96 0x5008_42D6_0000_0100_0000_0000 =
    some (.vadd { rec0 with ty := .f32, sh := .course, b := .ring, pq := .onFalse, d0 := .out 0, ax := 0x100 }) := by decide +kernel
/-- VBCST.f32 t0 -> o0, n2.a (06, the worked block). -/
theorem test_word_vbcst : decodeTableWord 96 0x6408_4686_0041_0000_0000_0000 =
    some (.vbcst { rec0 with ty := .f32, sh := .course, a := .temp 0, b := .zero, d0 := .out 0, d1 := .node 2 .a }) := by
  decide +kernel
/-- HFWD (14, fwd n0). -/
theorem test_word_hfwd : decodeTableWord 96 0x7008_6E82_0400_0000_0000_B601 =
    some (.hfwd { rec0 with ty := .f32, sh := .course, a := .ring, b := .zero, d0 := .node 1 .a, lit := 0xB601 }) := by decide +kernel
/-- HBIAS.f32 A, #-5.0, n3 (14, rd n1). -/
theorem test_word_hbias : decodeTableWord 96 0x7608_4242_0800_0003_C0A0_0000 =
    some (.hbias { rec0 with ty := .f32, sh := .course, b := .lit, d0 := .node 2 .a, ax := 3, lit := 0xC0A00000 }) := by decide +kernel
/-- RADV zero, q1, #1 (11, n1). -/
theorem test_word_radv : decodeTableWord 96 0x8201_2A80_0000_0000_0000_0011 =
    some (.radv { rec0 with ty := .n64, a := .zero, b := .zero, lit := 0x11 }) := by decide +kernel
/-- STSET zero, B (12, tap n4) and FSTS of block 3, port 1 (12, scat n4). -/
theorem test_word_stset : decodeTableWord 96 0x9400_2800_0000_0000_0000_0000 = some (.stset { rec0 with a := .zero }) ∧
    decodeTableWord 96 0x8808_0000_0000_0000_0000_1003 = some (.fsts { rec0 with ty := .f32, lit := 0x1003 }) := by decide +kernel
/-- LD.f32 A, #1500 -> o0, n4.a (19, wait n3). -/
theorem test_word_ld : decodeTableWord 96 0xA008_0246_0042_0000_0000_05DC =
    some (.ld { rec0 with ty := .f32, b := .lit, d0 := .out 0, d1 := .node 4 .a, lit := 0x5DC }) := by decide +kernel
/-- ST.i64 t2, B, #16 (21, w2 n5). -/
theorem test_word_st : decodeTableWord 96 0xA100_0C00_0000_0000_0000_0010 =
    some (.st { rec0 with a := .temp 2, lit := 0x10 }) := by decide +kernel
/-- CMB.fadd.f32 A, o0, #4 (17). -/
theorem test_word_cmb : decodeTableWord 96 0xB388_0280_0000_0000_0000_0030 =
    some (.cmb { rec0 with fn := 8, ty := .f32, b := .zero, lit := 0x30 }) := by decide +kernel
/-- MTASK t1, t2 (13 R271). -/
theorem test_word_mtask : decodeTableWord 96 0xC102_4A80_0000_0002_0000_0000 =
    some (.mtask { rec0 with ty := .i32, sh := .course, a := .temp 1, b := .zero, ax := 2 }) := by decide +kernel
/-- CPY A, B, t3, #5, #2, cnt (17). -/
theorem test_word_cpy : decodeTableWord 96 0xD001_8000_0000_0003_0000_2085 =
    some (.cpy { rec0 with ty := .n64, sh := .pair, ax := 3, lit := 0x2085 }) := by decide +kernel
/-- BARW zero, t2, #9 -> n4.a (17 R317). -/
theorem test_word_barw : decodeTableWord 96 0xD801_28C2_1000_0000_0000_0009 =
    some (.barw { rec0 with ty := .n64, a := .zero, b := .temp 2, d0 := .node 4 .a, lit := 9 }) := by decide +kernel
/-- COLL.gather (19, go n17). -/
theorem test_word_coll : decodeTableWord 96 0xDA08_8000_0000_0003_0000_2000 =
    some (.collGather { rec0 with ty := .f32, sh := .pair, ax := 3, lit := 0x2000 }) := by decide +kernel
/-- XSECT zero, q0, q1 -> n1.a (15). -/
theorem test_word_xsect : decodeTableWord 96 0xE001_AA82_0400_0000_0000_0010 =
    some (.xsect { rec0 with ty := .n64, sh := .pair, a := .zero, b := .zero, d0 := .node 1 .a, lit := 0x10 }) := by decide +kernel
/-- SMXM A, B, t1, t2 -> o0, o1 (15). -/
theorem test_word_smxm : decodeTableWord 96 0xE908_4006_00C0_8011_0000_0000 =
    some (.smxm { rec0 with ty := .f32, sh := .course, d0 := .out 0, d1 := .out 1, ax := 0x11 }) := by decide +kernel
/-- SPACC under a predicate (16, mstep n14). -/
theorem test_word_spacc : decodeTableWord 96 0xE408_0008_0000_0000_0000_0000 =
    some (.spacc { rec0 with ty := .f32, pq := .onTrue }) := by decide +kernel
/-- PHASE zero, #20, #8, #500 (13). -/
theorem test_word_phase : decodeTableWord 96 0xF001_2A80_0000_0000_007D_1C14 =
    some (.phase { rec0 with ty := .n64, a := .zero, b := .zero, lit := 0x7D1C14 }) := by decide +kernel
/-- CRD zero, #0x0105 -> n1.a (20). -/
theorem test_word_crd : decodeTableWord 96 0xF301_2A82_0400_0000_0000_0105 =
    some (.crd { rec0 with ty := .n64, a := .zero, b := .zero, d0 := .node 1 .a, lit := 0x105 }) := by decide +kernel
/-- TLBI t1, t2, #0x42 (20). -/
theorem test_word_tlbi : decodeTableWord 96 0xF501_08C0_0000_0000_0000_0042 =
    some (.tlbi { rec0 with ty := .n64, a := .temp 1, b := .temp 2, lit := 0x42 }) := by decide +kernel
/-- RETRY t1, port, and the cancelling RETRY of program 21 (20; 21, h n9). -/
theorem test_word_retry : decodeTableWord 96 0xFB01_0A80_0000_0000_0000_0000 =
      some (.retryPort { rec0 with ty := .n64, a := .temp 1, b := .zero }) ∧
    decodeTableWord 96 0xFB01_0A8A_2C00_0000_0000_0004 =
      some (.retryPort { rec0 with ty := .n64, a := .temp 1, b := .zero, pq := .onTrue, d0 := .node 11 .a, lit := 4 }) := by
  decide +kernel
/-- CWR A, #0x306 -> o0 (22, r n1). -/
theorem test_word_cwr : decodeTableWord 96 0xF401_0286_0000_0000_0000_0306 =
    some (.cwr { rec0 with ty := .n64, b := .zero, d0 := .out 0, lit := 0x306 }) := by decide +kernel
/-- THRT A, B, and BALL zero, #8 -> n1.a (22). -/
theorem test_word_thrt : decodeTableWord 96 0xFF01_0000_0000_0000_0000_0000 = some (.thrt { rec0 with ty := .n64 }) ∧
    decodeTableWord 96 0xF201_2A82_0400_0000_0000_0007 =
      some (.ball { rec0 with ty := .n64, a := .zero, b := .zero, d0 := .node 1 .a, lit := 7 }) := by decide +kernel
/-- A reserved selector, a reserved type and an opcode that is not assigned are refused. -/
theorem test_word_refused : decodeTableWord 96 0x1000_3A42_0D43_2000_0001_0000 = none ∧
    decodeTableWord 96 0x100F_3242_0D43_2000_0001_0000 = none ∧ decodeTableWord 96 0x0F00_0000_0000_0000_0000_0000 = none := by
  decide +kernel

/-! ### Results that the spec states, or that follow from it by hand, each of one step -/

/-- A record of scalars that delivers to output port 0. -/
def recO : Rec := { rec0 with d0 := .out 0 }

/-- What one firing delivers at output port 0: its bits and its tag, with the flags that the activation has then. -/
def told (i : Rec → Instr) (o : Op) (r : Rec) (A B : Val) (K : Val := Val.zero .pair) : Option (Nat × Bool × BitVec 6) :=
  match exec (i r) (fire1 o r A B K).s with
  | .next t => (t.act (.element 0)).bind fun a => (a.outs.head?.bind (·.val)).map fun v => (v.bits.toNat, v.cap, a.flags)
  | _ => none

/-- The class and code of the fault that one firing takes. -/
def stopsWith (i : Rec → Instr) (o : Op) (r : Rec) (A B : Val) (h : Act → Act := id) : Option (Nat × Nat) :=
  let f := fire1 o r A B (h := h)
  match exec (i r) f.s with
  | .next t => if (t.act (.element 0)).isNone then some ((slice (t.ctx 0).ft 0 8).toNat, (slice (t.ctx 0).ft 16 16).toNat) else none
  | _ => none

/-- A tagged pair. -/
def cp (n : Nat) : Val := ⟨.pair, BitVec.ofNat 512 n, true⟩

/-- The capability of the example after R168: 512 bytes from 0x3F00, cursor 0x4000, load and store. -/
def cap0 : Val := cp 0x0030_0000_2001_0000_0000_0000_0000_4000

/-- The fields of a capability form. -/
def recC : Rec := { recO with ty := .cap, sh := .pair }

/-- CINC by 0x200, by 0xD00, by 0x1000 and by -0x200 (08, after R168). -/
theorem test_cinc :
    told .cinc .cinc recC cap0 (sc 0x200) = some (0x0030_0000_2003_0000_0000_0000_0000_4200, true, 0) ∧
    told .cinc .cinc recC cap0 (sc 0xD00) = some (0x0030_0000_200E_0000_0000_0000_0000_4D00, true, 0) ∧
    told .cinc .cinc recC cap0 (sc 0x1000) = some (0x0030_0000_2001_0000_0000_0000_0000_5000, false, 0) ∧
    told .cinc .cinc recC cap0 (sc 0xFFFF_FFFF_FFFF_FE00) = some (0x0030_0000_2001_0000_0000_0000_0000_3E00, false, 0) := by
  decide +kernel
/-- CSETB.exact of 0x80 bytes; of 0x200 a fault with code 3 (08, after R168). -/
theorem test_csetb :
    told .csetb .csetb recC cap0 (sc 0x80) = some (0x0030_0000_0800_0000_0000_0000_0000_4000, true, 0) ∧
    stopsWith .csetb .csetb recC cap0 (sc 0x200) = some (2, 3) := by decide +kernel
/-- CPERM to load only (08, after R168). -/
theorem test_cperm : told .cperm .cperm recC cap0 (sc 1) = some (0x0010_0000_2001_0000_0000_0000_0000_4000, true, 0) := by
  decide +kernel
/-- CGETF: base 0x3F00, top 0x4100 (08, after R168). -/
theorem test_cgetf : told .cgetf .cgetf { recC with fn := 1 } cap0 (sc 0) = some (0x3F00, false, 0) ∧
    told .cgetf .cgetf { recC with fn := 2 } cap0 (sc 0) = some (0x4100, false, 0) := by decide +kernel
/-- An 8 KiB capability at 0x1000 needs e = 2 and sz = 0x800 (08, after R168). -/
theorem test_cap_exponent : capEncode 0x1000 0x3000 = (2, 0x1000, 0x3000) := by decide +kernel

/-- ADD.sat of I8: 127 + 1 stays 127 with sat; wrapping it is -128. -/
theorem test_add : told .add .add { recO with fn := 1, ty := .i8 } (sc 127) (sc 1) = some (127, false, flagSat) ∧
    told .add .add { recO with ty := .i8 } (sc 127) (sc 1) = some (0xFFFF_FFFF_FFFF_FF80, false, 0) := by decide +kernel
/-- SUB of N8 wraps to 255. -/
theorem test_sub : told .sub .sub { recO with ty := .n8 } (sc 0) (sc 1) = some (255, false, 0) := by decide +kernel
/-- MULH of I8: -128 times -128 is 16384, whose high half is 64. -/
theorem test_mulh : told .mulh .mulh { recO with ty := .i8 } (sc 0x80) (sc 0x80) = some (64, false, 0) := by decide +kernel
/-- MAD adds t0. -/
theorem test_mad : told .mad .mad recO (sc 3) (sc 4) (sc 5) = some (17, false, 0) := by decide +kernel
/-- DIV and REM of -7 by 2 truncate towards zero: -3 and -1. -/
theorem test_div : told .div .div { recO with ty := .i8 } (sc 0xF9) (sc 2) = some (2 ^ 64 - 3, false, 0) ∧
    told .rem .rem { recO with ty := .i8 } (sc 0xF9) (sc 2) = some (2 ^ 64 - 1, false, 0) := by decide +kernel
/-- The least I8 by -1, and a trapped dz (08 R155). -/
theorem test_div_corners : told .div .div { recO with ty := .i8 } (sc 0x80) (sc 0xFF) = some (2 ^ 64 - 128, false, flagOf) ∧
    stopsWith .div .div recO (sc 1) (sc 0) (fun a => { a with trap := 2 }) = some (5, 1) := by decide +kernel
/-- SHL.sat of I8: 64 by 1 saturates to 127. -/
theorem test_shl : told .shl .shl { recO with fn := 1, ty := .i8 } (sc 64) (sc 1) = some (127, false, flagSat) := by decide +kernel
/-- SHR.asr and SHR.lsr of 0x80 in I8 by 1, and by more than the width. -/
theorem test_shr : told .shr .shr { recO with fn := 1, ty := .i8 } (sc 0x80) (sc 1) = some (2 ^ 64 - 64, false, 0) ∧
    told .shr .shr { recO with ty := .i8 } (sc 0x80) (sc 1) = some (64, false, 0) ∧
    told .shr .shr { recO with fn := 1, ty := .n8 } (sc 0x80) (sc 99) = some (255, false, 0) := by decide +kernel
/-- ROT.left of 0x81 in N8 by 1 is 3; CLZ of 1 in N16 is 15; BREV of 1 in N8 is 0x80. -/
theorem test_bits : told .rot .rot { recO with ty := .n8 } (sc 0x81) (sc 1) = some (3, false, 0) ∧
    told .clz .clz { recO with ty := .n16, b := .port } (sc 1) (sc 0) = some (15, false, 0) ∧
    told .brev .brev { recO with ty := .n8 } (sc 1) (sc 0) = some (0x80, false, 0) := by decide +kernel
/-- BEXT of bits 4 to 7 of 0xA5, signed: -6; BINS puts 3 there. -/
theorem test_fields : told .bext .bext { recO with ty := .i16, lit := 0x0304 } (sc 0xA5) (sc 0) = some (2 ^ 64 - 6, false, 0) ∧
    told .bins .bins { recO with ty := .n16, lit := 0x0304 } (sc 0xA5) (sc 3) = some (0x35, false, 0) := by decide +kernel
/-- CMP.lt of -1 and 1: 1 for I8, 0 for N8. -/
theorem test_cmp : told .cmp .cmp { recO with fn := 2, ty := .i8 } (sc 0xFF) (sc 1) = some (1, false, 0) ∧
    told .cmp .cmp { recO with fn := 2, ty := .n8 } (sc 0xFF) (sc 1) = some (0, false, 0) := by decide +kernel

/-- FADD.f32: 1 + 2^-24 is a tie that goes to 1, inexact; up it is 1 + 2^-23. -/
theorem test_fadd :
    told .fadd .fadd { recO with ty := .f32 } (sc 0x3F800000) (sc 0x33800000) = some (0x3F800000, false, flagNx) ∧
    told .fadd .fadd { recO with fn := 2, ty := .f32 } (sc 0x3F800000) (sc 0x33800000) = some (0x3F800001, false, flagNx) := by
  decide +kernel
/-- FDIV: 1 by -0 is -infinity with dz; 0 by 0 is the canonical NaN with nv (09 R172). -/
theorem test_fdiv :
    told .fdiv .fdiv { recO with ty := .f32 } (sc 0x3F800000) (sc 0x80000000) = some (0xFF800000, false, flagDz) ∧
    told .fdiv .fdiv { recO with ty := .f32 } (sc 0) (sc 0) = some (0x7FC00000, false, flagNv) := by decide +kernel
/-- FSQRT of 2 in F16 is 0x3DA8; FRSQ of 4 in F32 is 0.5. -/
theorem test_fsqrt : told .fsqrt .fsqrt { recO with ty := .f16 } (sc 0x4000) (sc 0) = some (0x3DA8, false, flagNx) ∧
    told .frsq .frsq { recO with ty := .f32 } (sc 0x40800000) (sc 0) = some (0x3F000000, false, 0) := by decide +kernel
/-- FMIN of +0 and -0 is -0; FCLS of the least positive subnormal is bit 7. -/
theorem test_fmin : told .fmin .fmin { recO with ty := .f32 } (sc 0) (sc 0x80000000) = some (0x80000000, false, 0) ∧
    told .fcls .fcls { recO with ty := .f32 } (sc 1) (sc 0) = some (0x80, false, 0) := by decide +kernel
/-- FCMP.lt with a quiet NaN is 0 with nv. -/
theorem test_fcmp : told .fcmp .fcmp { recO with fn := 2, ty := .f32 } (sc 0x7FC00000) (sc 0) = some (0, false, flagNv) := by
  decide +kernel
/-- FCVT.f16 of 65520 in F32 overflows to infinity; to E8, 1.5 is 127. -/
theorem test_fcvt : told .fcvt .fcvt { recO with ty := .f16, lit := 8 } (sc 0x477FF000) (sc 0) = some (0x7C00, false, flagOf ||| flagNx) ∧
    told .fcvt .fcvt { recO with ty := .e8, lit := 8 } (sc 0x3FC00000) (sc 0) = some (127, false, 0) := by decide +kernel
/-- ICVT.i8 of 300.0 is 127 with nv; FRND of 2.5 is 2. -/
theorem test_icvt : told .icvt .icvt { recO with ty := .i8, lit := 8 } (sc 0x43960000) (sc 0) = some (127, false, flagNv) ∧
    told .frnd .frnd { recO with ty := .f32 } (sc 0x40200000) (sc 0) = some (0x40000000, false, flagNx) := by decide +kernel

/-- LIT.i8 sign-extends its 8 bits; TGET.iter and TSET of A. -/
theorem test_lit : told .litOp .litOp { recO with ty := .i8, a := .lit, b := .zero, lit := 0x80 } (sc 0) (sc 0) =
    some (2 ^ 64 - 128, false, 0) := by decide +kernel
/-- GATE.true delivers where B[0] is 1 and nothing where it is 0. -/
theorem test_gate : told .gate .gate recO (sc 9) (sc 1) = some (9, false, 0) ∧ told .gate .gate recO (sc 9) (sc 0) = none := by
  decide +kernel
/-- TRAP #7 faults with class 9 and its code. -/
theorem test_trap : stopsWith .trap .trap { rec0 with lit := 7 } (sc 0) (sc 0) = some (9, 7) := by decide +kernel

/-- A course of F32 with these lanes and tail. -/
def cs (lanes : List Nat) (tail : BitVec 16 := 0) : Val := ⟨.course, mkCourse 0x0A 127 tail 32 lanes, false⟩

/-- The fields of a course form of F32. -/
def recV : Rec := { recO with ty := .f32, sh := .course }

/-- VADD of one lane 1.0 and 2.0 in courses of zeros. -/
theorem test_vadd : told .vadd .vadd recV (cs [0x3F800000]) (cs [0x40000000]) = some ((cs [0x40400000]).bits.toNat, false, 0) := by
  decide +kernel
/-- VADD of coefficients whose tails do not agree faults with domain (09 R180). -/
theorem test_vadd_domain : stopsWith .vadd .vadd recV (cs [0x3F800000] 0x2000) (cs [0x40000000] 0x4000) = some (4, 5) := by
  decide +kernel
/-- VSUM of 1, 2 and 3 is 6; VDOT of (1, 2) and (3, 4) is 11. -/
theorem test_vsum : told .vsum .vsum recV (cs [0x3F800000, 0x40000000, 0x40400000]) (sc 0) = some (0x40C00000, false, 0) ∧
    told .vdot .vdot recV (cs [0x3F800000, 0x40000000]) (cs [0x40400000, 0x40800000]) = some (0x41300000, false, 0) := by
  decide +kernel
/-- HGET of a course at level 1, index 3, with Q. -/
theorem test_hget : told .hget .hget { recV with ty := .f32 } (cs [1] (tailOf 1 3 true)) (sc 0) =
    some (0x0A + 256 * 127 + 65536 * (tailOf 1 3 true).toNat, false, 0) := by decide +kernel
/-- The middle of 1.0 and 2.0 is 1.5, and half their difference -0.5 (14, one forward step). -/
theorem test_haar : (haarHalf false (0x3F800000, 0) (0x40000000, 0)).1 = 0x3FC00000 ∧
    (haarHalf true (0x3F800000, 0) (0x40000000, 0)).1 = 0xBF000000 := by decide +kernel

/-! ### Every record form opens: its gate lets it fire on a lone activation with its operands there (02 R33) -/

/-- These forms open with these fields. -/
def allOpen (l : List (Op × Rec)) : Bool := l.all fun x => opensB (fire1 x.1 x.2 (sc 5) (sc 7)) x.1

/-- Forms, part 1. -/
def forms1 : List (Op × Rec) :=
  [(.nop, rec0), (.exitOp, rec0), (.exitp, rec0), (.exitx, rec0), (.pass, rec0), (.gate, rec0),
   (.steer, rec0), (.litOp, rec0), (.tget, rec0), (.tset, rec0), (.callb, rec0),
   (.retb, rec0), (.trap, rec0), (.brk, rec0), (.add, rec0), (.sub, rec0), (.mul, rec0),
   (.mulh, rec0), (.mad, rec0), (.div, rec0), (.rem, rec0), (.neg, rec0), (.abs, rec0),
   (.min, rec0), (.max, rec0), (.shl, rec0), (.shr, rec0)]

theorem witness_forms_open_1 : allOpen forms1 = true := by decide +kernel

/-- Forms, part 2. -/
def forms2 : List (Op × Rec) :=
  [(.andOp, rec0), (.orOp, rec0), (.xorOp, rec0), (.notOp, rec0), (.popc, rec0), (.clz, rec0),
   (.brev, rec0), (.bext, rec0), (.bins, rec0), (.rot, rec0), (.cmp, rec0), (.selp, rec0),
   (.clamp, rec0), (.cgetf, rec0), (.csetb, rec0), (.cinc, rec0), (.csetc, rec0), (.cperm, rec0),
   (.cseal, rec0), (.cunseal, rec0), (.ctag, rec0), (.cdiff, rec0), (.cderiv, rec0), (.fadd, rec0),
   (.fsub, rec0), (.fmul, rec0), (.ffma, rec0), (.fdiv, rec0)]

theorem witness_forms_open_2 : allOpen forms2 = true := by decide +kernel

/-- Forms, part 3. -/
def forms3 : List (Op × Rec) :=
  [(.fsqrt, rec0), (.frsq, rec0), (.fmin, rec0), (.fmax, rec0), (.fcmp, rec0), (.fcls, rec0),
   (.fcvt, rec0), (.icvt, rec0), (.frnd, rec0), (.vadd, rec0), (.vsub, rec0), (.vmul, rec0),
   (.vfma, rec0), (.vmin, rec0), (.vmax, rec0), (.vscl, rec0), (.vcmp, rec0), (.vsel, rec0),
   (.vbit, rec0), (.vshf, rec0), (.vsum, rec0), (.vdot, rec0), (.vrmax, rec0), (.vperm, rec0),
   (.vbcst, rec0), (.vext, rec0), (.vins, rec0), (.vcvt, rec0)]

theorem witness_forms_open_3 : allOpen forms3 = true := by decide +kernel

/-- Forms, part 4. -/
def forms4 : List (Op × Rec) :=
  [(.vqnt, rec0), (.vexp, rec0), (.vln, rec0), (.vrcp, rec0), (.vrsq, rec0), (.vact, rec0),
   (.hfwd, rec0), (.hinv, rec0), (.hthr, rec0), (.hrec, rec0), (.hget, rec0), (.htag, rec0),
   (.hbias, rec0), (.hspan, rec0), (.hcnt, rec0), (.rrd, rec0), (.rwr, rec0), (.radv, rec0),
   (.wadv, rec0), (.rfill, rec0), (.falloc, rec0), (.ffree, rec0), (.flds, rec0), (.fsts, rec0),
   (.sendt, rec0), (.tagn, rec0), (.tagr, rec0), (.dmd, rec0)]

theorem witness_forms_open_4 : allOpen forms4 = true := by decide +kernel

/-- Forms, part 5. -/
def forms5 : List (Op × Rec) :=
  [(.dget, rec0), (.dxfm, rec0), (.stime, rec0), (.stset, rec0), (.land, rec0), (.lfind, rec0),
   (.lrest, rec0), (.silent, rec0), (.ddone, rec0), (.ld, rec0), (.st, rec0), (.ldc, rec0),
   (.stc, rec0), (.ldq, rec0), (.stq, rec0), (.pref, rec0), (.ldx, rec0), (.stx, rec0),
   (.lds, rec0), (.sts, rec0), (.fence, rec0), (.acq, rec0), (.rel, rec0), (.aop, rec0),
   (.acas, rec0), (.afadd, rec0), (.cmb, rec0), (.cmbi, rec0)]

theorem witness_forms_open_5 : allOpen forms5 = true := by decide +kernel

/-- Forms, part 6. -/
def forms6 : List (Op × Rec) :=
  [(.ared, rec0), (.mldb, rec0), (.mtask, rec0), (.mrow, rec0), (.macc, rec0), (.meor, rec0),
   (.mspl, rec0), (.mrst, rec0), (.mzro, rec0), (.mpln, rec0), (.mqry, rec0), (.mcut, rec0),
   (.cpy, rec0), (.cpyq, rec0), (.twall, rec0), (.twany, rec0), (.tffr, rec0), (.tclr, rec0),
   (.bari, rec0), (.barv, rec0), (.barw, rec0), (.barq, rec0), (.collGather, rec0), (.collRsum, { rec0 with fn := 1 }),
   (.collAsum, { rec0 with fn := 2 }), (.collBcast, { rec0 with fn := 3 }), (.cxpt, rec0), (.xsect, rec0)]

theorem witness_forms_open_6 : allOpen forms6 = true := by decide +kernel

/-- Forms, part 7. -/
def forms7 : List (Op × Rec) :=
  [(.fibrd, rec0), (.fibwr, rec0), (.stopn, rec0), (.spacc, rec0), (.spfl, rec0), (.pxlt, rec0),
   (.kvapp, rec0), (.kvlen, rec0), (.smxm, rec0), (.smxf, rec0), (.phase, rec0), (.phend, rec0),
   (.ball, rec0), (.crd, rec0), (.cwr, rec0), (.tlbi, rec0), (.tlbs, rec0), (.iret, rec0),
   (.prio, rec0), (.ctxlLoad, rec0), (.ctxlResume, { rec0 with fn := 1 }), (.ctxe, rec0), (.retryPort, rec0), (.retryFrame, { rec0 with lit := 1 }),
   (.wfe, rec0), (.evsig, rec0), (.migr, rec0), (.thrt, rec0)]

theorem witness_forms_open_7 : allOpen forms7 = true := by decide +kernel

/-- MERGE with the token of port a alone, of port b alone, and on a Newel with both. -/
def merge1 (u : UnitId) (a b : Option Val) (A B : Val) : Firing :=
  let x := { act1 u .mergeOp rec0 A B (Val.zero .pair) with recs := [⟨.skipped, none, none, none, none, []⟩, ⟨.idle, a, b, none, none, []⟩] }
  ⟨state1 u x, u, 1, x, rec0, A, B⟩

theorem witness_merge : opensB (merge1 (.element 0) (some (sc 5)) none (sc 5) (Val.zero .scalar)) .mergeOp = true ∧
    opensB (merge1 (.element 0) none (some (sc 7)) (sc 7) (sc 7)) .mergeOp = true ∧
    opensB (merge1 (.newel 0) (some (sc 5)) (some (sc 7)) (sc 5) (sc 7)) .mergeOp = true := by decide +kernel

/-! ### For the statements about record forms: states and operands that meet their hypotheses, clause by clause -/

/-- A firing opens and meets a condition. -/
def hit (o : Op) (r : Rec) (A B : Val) (p : Firing → Bool) (K : Val := Val.zero .pair) (h : Act → Act := id)
    (g : State → State := id) : Bool :=
  opensB (fire1 o r A B K h g) o && p (fire1 o r A B K h g)

/-- What hits meets. -/
theorem hit_meets {o : Op} {r : Rec} {A B K : Val} {p : Firing → Bool} {h : Act → Act} {g : State → State}
    (e : hit o r A B p K h g = true) : Meets o fun f => p f = true := by
  simp only [hit, Bool.and_eq_true] at e
  exact ⟨_, opens_of e.1, e.2⟩

/-- All of these hold. -/
def allOf (l : List Bool) : Bool := l.all id

/-- The context 0 changed. -/
def inCtx (f : Ctx → Ctx) (s : State) : State := s.modCtx 0 f

theorem witness_FlowForms : allOf
    [hit .gate rec0 (sc 9) (sc 1) fun f => f.b0 = decide (f.r.fn = 0),
     hit .gate { rec0 with fn := 1 } (sc 9) (sc 0) fun f => f.b0 = decide (f.r.fn = 0),
     hit .gate rec0 (sc 9) (sc 0) fun f => f.b0 ≠ decide (f.r.fn = 0),
     hit .steer rec0 (sc 9) (sc 1) fun f => f.b0 = true, hit .steer rec0 (sc 9) (sc 2) fun f => f.b0 = false,
     hit .litOp { rec0 with ty := .i32 } (sc 0) (sc 0) fun f => f.r.ty.signed = true ∧ 32 ≤ f.r.ty.width,
     hit .litOp { rec0 with ty := .i16 } (sc 0) (sc 0) fun f => f.r.ty.signed = true ∧ f.r.ty.width < 32,
     hit .litOp { rec0 with ty := .n8 } (sc 0) (sc 0) fun f => f.r.ty.signed = false,
     hit .tget rec0 (sc 0) (sc 0) fun f => f.lit 0 2 = 0, hit .tget { rec0 with lit := 1 } (sc 0) (sc 0) fun f => f.lit 0 2 = 1,
     hit .tget { rec0 with lit := 2 } (sc 0) (sc 0) fun f => f.lit 0 2 = 2,
     hit .tget { rec0 with lit := 3 } (sc 0) (sc 0) fun f => f.lit 0 2 = 3,
     hit .exitp rec0 (sc 0) (sc 1) fun f => f.b0 = true, hit .exitp rec0 (sc 0) (sc 0) fun f => f.b0 = false] = true := by
  decide +kernel

/-- The widest tagged capability of a space with permissions, exponent 61, its cursor x. -/
def wide (space perm x : Nat) : Val := ⟨.pair, (capOf (BitVec.ofNat 12 perm) space 0 61 2048 0 x).setWidth 512, true⟩

/-- A capability with object type. -/
def sealedCap (perm otype x : Nat) : Val := ⟨.pair, (capOf (BitVec.ofNat 12 perm) 0 otype 61 2048 0 x).setWidth 512, true⟩

/-- A capability of exactly n units of one byte from b, its cursor there. -/
def small (space perm b n : Nat) : Val := ⟨.pair, (capOf (BitVec.ofNat 12 perm) space 0 0 n 0 b).setWidth 512, true⟩

theorem test_wide : capBase ((wide 0 0xFFF 0x40).bits.setWidth 128) = 0 ∧
    capTop ((wide 0 0xFFF 0x40).bits.setWidth 128) = 2 ^ 72 ∧ capBase ((small 0 1 64 12).bits.setWidth 128) = 64 ∧
    capTop ((small 0 1 64 12).bits.setWidth 128) = 76 := by decide +kernel

theorem witness_CallbChecksItsTarget :
    let t (A : Val) (p : Firing → Bool) : Bool := hit .callb recC A (sc 0) p
    let fits (f : Firing) : Bool := decide (capBase f.pa ≤ capCursor f.pa ∧ capCursor f.pa + 12 ≤ capTop f.pa)
    let plain (f : Firing) : Bool := f.ta && decide (capOtype f.pa = 0)
    let may (f : Firing) : Bool := plain f && decide (capSpace f.pa = 0) && capHasPerm f.pa 0x010
    allOf [t (small 0 0x010 64 12) fun f => may f && decide (capCursor f.pa % 64 = 0) && fits f,
      t (sc 0) fun f => f.ta = false, t (sealedCap 0x010 1 64) fun f => f.ta = true ∧ capOtype f.pa ≠ 0,
      t (wide 1 0x010 64) fun f => plain f && decide (capSpace f.pa ≠ 0),
      t (wide 0 0x00F 64) fun f => plain f && decide (capSpace f.pa = 0) && !(capHasPerm f.pa 0x010),
      t (small 0 0x010 65 12) fun f => may f && decide (capCursor f.pa % 64 ≠ 0),
      t (small 0 0x010 64 11) fun f => may f && decide (capCursor f.pa % 64 = 0) && !(fits f)] = true := by
  decide +kernel

/-- A fault of class 10, and one of class 9 in a context without a trap graph. -/
theorem witness_TrapAndBrkTakeTheirFault : (State.reset.ctx 0).image.trapOp? = none := rfl

theorem witness_IntegerArithmetic :
    allOf ([Op.add, .sub, .mul, .mulh, .mad, .neg, .abs, .min, .max, .shl].map fun o =>
      hit o { rec0 with fn := 1, ty := .i8 } (sc 0x80) (sc 0xFF) fun f => f.r.ty.isInt) = true := by decide +kernel

theorem witness_DivisionAndItsCorners :
    let corner (f : Firing) : Bool := decide (f.r.ty.signed = true ∧ f.na = least f.r.ty ∧ f.nb = -1)
    allOf ([Op.div, .rem].flatMap fun o =>
      [hit o { rec0 with ty := .i8 } (sc 0x80) (sc 1) fun f => f.r.ty.isInt && decide (f.nb ≠ 0) && !(corner f),
       hit o { rec0 with ty := .i8 } (sc 0) (sc 0) fun f => decide (f.r.ty.isInt = true ∧ f.nb = 0 ∧ 0 ≤ f.na),
       hit o { rec0 with ty := .i8 } (sc 0xFF) (sc 0) fun f => decide (f.r.ty.isInt = true ∧ f.nb = 0 ∧ f.na < 0),
       hit o { rec0 with ty := .i64 } (sc (2 ^ 63)) (sc (2 ^ 64 - 1)) fun f => f.r.ty.isInt && corner f,
       hit o rec0 (sc 1) (sc 0) (h := fun a => { a with trap := 2 })
         fun f => decide (f.r.ty.isInt = true ∧ f.nb = 0 ∧ bit f.found.trap 1 = true),
       hit o { rec0 with ty := .i8 } (sc 0x80) (sc 0xFF) (h := fun a => { a with trap := 4 })
         fun f => f.r.ty.isInt && corner f && bit f.found.trap 2]) = true := by
  decide +kernel

theorem witness_ShiftRight : allOf
    [hit .shr { rec0 with ty := .i8 } (sc 0x80) (sc 8) fun f => f.r.ty.isInt && f.r.fn = 0,
     hit .shr { rec0 with fn := 1, ty := .n8 } (sc 0x80) (sc 8) fun f => f.r.ty.isInt && f.r.fn = 1] = true := by decide +kernel

theorem witness_LogicAndSelectForms :
    allOf ([hit .rot rec0 (sc 1) (sc 65) fun f => f.r.ty.isInt && f.r.fn = 0,
      hit .rot { rec0 with fn := 1 } (sc 1) (sc 65) fun f => f.r.ty.isInt && f.r.fn ≠ 0,
      hit .bext { rec0 with ty := .i8, lit := 0x0700 } (sc 1) (sc 65)
        fun f => decide (f.r.ty.isInt = true ∧ f.r.ty.signed = true ∧ f.lit 0 6 + (f.lit 8 6 + 1) ≤ f.r.ty.width),
      hit .bext { rec0 with ty := .n8, lit := 0x0007 } (sc 1) (sc 65)
        fun f => decide (f.r.ty.isInt = true ∧ f.r.ty.signed = false ∧ f.lit 0 6 + (f.lit 8 6 + 1) ≤ f.r.ty.width),
      hit .bins { rec0 with lit := 0x003F } (sc 1) (sc 65) fun f => decide (f.r.ty.isInt = true ∧ f.lit 0 6 + (f.lit 8 6 + 1) ≤ f.r.ty.width),
      hit .cmp { rec0 with fn := 5 } (sc 1) (sc 65) fun f => decide (f.r.ty.isInt = true ∧ f.r.fn.toNat ≤ 5),
      hit .selp { rec0 with ty := .b16 } (sc 1) (sc 65) (K := sc 1) fun f => decide (f.r.ty.code.toNat ≤ 10 ∧ bit f.K.bits 0 = true),
      hit .selp rec0 (sc 1) (sc 65) (K := sc 2) fun f => decide (f.r.ty.code.toNat ≤ 10 ∧ bit f.K.bits 0 = false)] ++
      [Op.andOp, .orOp, .xorOp, .notOp, .brev, .popc, .clz, .clamp].map fun o => hit o rec0 (sc 1) (sc 2) fun f => f.r.ty.isInt) = true := by
  decide +kernel

theorem witness_CapabilityForms :
    let plain (f : Firing) : Bool := f.ta && decide (capOtype f.pa = 0)
    allOf ((List.range 8).map (fun n => hit .cgetf { recC with fn := BitVec.ofNat 4 n } cap0 (sc 0) fun f => f.r.fn = BitVec.ofNat 4 n) ++
      (List.range 2).map (fun n => hit .ctag { recC with fn := BitVec.ofNat 4 n } cap0 (sc 0) fun f => f.r.fn = BitVec.ofNat 4 n) ++
      [hit .cinc recC cap0 (sc 0xD00) fun f => plain f && capHolds f.pa f.moved,
       hit .cinc recC cap0 (sc 0x1000) fun f => plain f && !(capHolds f.pa f.moved),
       hit .cinc recC (sc 5) (sc 1) fun f => f.ta = false,
       hit .cinc recC (sealedCap 1 255 0) (sc 1) fun f => f.ta = true ∧ capOtype f.pa ≠ 0,
       hit .csetc recC cap0 (sc 0x4EFF) fun f => plain f && capHolds f.pa (f.pb.setWidth 72).toNat,
       hit .csetc recC cap0 (sc 0x4F00) fun f => plain f && !(capHolds f.pa (f.pb.setWidth 72).toNat),
       hit .csetc recC (sc 5) (sc 1) fun f => f.ta = false,
       hit .csetc recC (sealedCap 1 255 0) (sc 1) fun f => f.ta = true ∧ capOtype f.pa ≠ 0,
       hit .cperm recC cap0 (sc 1) fun f => plain f, hit .cperm recC (sc 5) (sc 1) fun f => f.ta = false,
       hit .cperm recC (sealedCap 1 1 0) (sc 1) fun f => f.ta = true ∧ capOtype f.pa ≠ 0]) = true := by
  decide +kernel

theorem witness_CapabilityForms_moves : capHolds ((cap0.bits).setWidth 128) 0x4EFF = true ∧ capHolds ((cap0.bits).setWidth 128) 0x3F00 = true := by
  decide +kernel

theorem witness_CsetbNarrowsBounds :
    let nt (f : Firing) : Nat := capCursor f.pa + (slice f.pb 0 73).toNat
    let e (f : Firing) := capEncode (capCursor f.pa) (nt f)
    let plain (f : Firing) : Bool := f.ta && decide (capOtype f.pa = 0)
    let inside (f : Firing) : Bool := plain f && decide (nt f ≤ 2 ^ 72 ∧ capBase f.pa ≤ capCursor f.pa ∧ nt f ≤ capTop f.pa)
    let exact (f : Firing) : Bool := decide ((e f).2.1 = capCursor f.pa ∧ (e f).2.2 = nt f)
    let big : Val := ⟨.pair, (capOf 3 0 0 1 2049 0 0).setWidth 512, true⟩
    allOf [hit .csetb recC cap0 (sc 0x100) fun f => inside f && exact f,
      hit .csetb { recC with fn := 1 } (wide 0 3 0) (sc 4097) fun f => inside f && f.r.fn ≠ 0 && !(exact f),
      hit .csetb recC (sc 1) (sc 1) fun f => f.ta = false,
      hit .csetb recC (sealedCap 1 1 0) (sc 1) fun f => f.ta = true ∧ capOtype f.pa ≠ 0,
      hit .csetb recC cap0 (sc 0x101) fun f => plain f && !(inside f),
      hit .csetb recC big (sc 4097) fun f => inside f && f.r.fn = 0 && !(exact f),
      hit .csetb { recC with fn := 1 } ⟨.pair, (capOf 3 0 0 0 4095 0 1).setWidth 512 + 4094, true⟩ (sc 0)
        fun f => inside f && exact f] = true := by
  decide +kernel

theorem witness_SealingAndDeriving :
    let plain (f : Firing) : Bool := f.ta && decide (capOtype f.pa = 0)
    let shut (f : Firing) : Bool := f.ta && decide (capOtype f.pa ≠ 0)
    let may (f : Firing) (perm : Nat) : Bool := f.tb && decide (capOtype f.pb = 0) && capHasPerm f.pb perm
    let inB (f : Firing) : Bool := decide (capBase f.pb ≤ capCursor f.pb ∧ capCursor f.pb < capTop f.pb)
    let ok (f : Firing) (perm : Nat) : Bool := may f perm && inB f
    let type (f : Firing) : Bool := decide (1 ≤ capCursor f.pb ∧ capCursor f.pb ≤ 255)
    let past : Val := ⟨.pair, (capMove (capOf 0x180 0 0 0 1 0 5) 1 6).setWidth 512, true⟩
    allOf [hit .cseal recC cap0 (wide 0 0x080 255) fun f => plain f && ok f 0x080 && type f,
      hit .cseal recC (sc 0) (wide 0 0x080 255) fun f => f.ta = false,
      hit .cseal recC (sealedCap 1 3 0) (wide 0 0x080 255) fun f => shut f,
      hit .cseal recC cap0 (sc 1) fun f => plain f && !f.tb,
      hit .cseal recC cap0 (sealedCap 0x080 1 1) fun f => plain f && f.tb && decide (capOtype f.pb ≠ 0),
      hit .cseal recC cap0 (wide 0 0x100 255) fun f => plain f && f.tb && decide (capOtype f.pb = 0) && !(capHasPerm f.pb 0x080),
      hit .cseal recC cap0 past fun f => plain f && may f 0x080 && !(inB f),
      hit .cseal recC cap0 (wide 0 0x080 256) fun f => plain f && ok f 0x080 && !(type f),
      hit .cunseal recC (sealedCap 0x201 7 0) (wide 0 0x300 7) fun f => shut f && ok f 0x100 && capCursor f.pb = capOtype f.pa && capHasPerm f.pb 0x200,
      hit .cunseal recC (sealedCap 0x201 7 0) (wide 0 0x100 7) fun f => shut f && ok f 0x100 && capCursor f.pb = capOtype f.pa && !(capHasPerm f.pb 0x200),
      hit .cunseal recC (sc 0) (wide 0 0x100 7) fun f => f.ta = false, hit .cunseal recC cap0 (wide 0 0x100 7) fun f => plain f,
      hit .cunseal recC (sealedCap 0x201 7 0) (sc 7) fun f => shut f && !f.tb,
      hit .cunseal recC (sealedCap 0x201 7 0) (sealedCap 0x100 1 7) fun f => shut f && f.tb && decide (capOtype f.pb ≠ 0),
      hit .cunseal recC (sealedCap 0x201 7 0) (wide 0 0x080 7) fun f => shut f && f.tb && decide (capOtype f.pb = 0) && !(capHasPerm f.pb 0x100),
      hit .cunseal recC (sealedCap 0x201 6 0) past fun f => shut f && may f 0x100 && !(inB f),
      hit .cunseal recC (sealedCap 0x201 7 0) (wide 0 0x100 8) fun f => shut f && ok f 0x100 && capCursor f.pb ≠ capOtype f.pa,
      hit .cderiv recC cap0 (sc 0) fun f => slice f.pa 102 2 = 0 ∧ capExp f.pa ≤ 61 ∧ capSpace f.pa ≤ 5,
      hit .cderiv recC (cp (2 ^ 102)) (sc 0) fun f => slice f.pa 102 2 ≠ 0 ∨ 61 < capExp f.pa,
      hit .cderiv recC (cp (62 * 2 ^ 96)) (sc 0) fun f => slice f.pa 102 2 ≠ 0 ∨ 61 < capExp f.pa,
      hit .cderiv recC (cp (6 * 2 ^ 112)) (sc 0) fun f => slice f.pa 102 2 = 0 ∧ capExp f.pa ≤ 61 ∧ 5 < capSpace f.pa] = true := by
  decide +kernel

/-- A float type, as a test. -/
def isFloat (f : Firing) : Bool := f.r.ty = .f32 ∨ f.r.ty = .f16 ∨ f.r.ty = .b16

/-- A number is finite, as a test. -/
def isFin (x : FNum) : Bool :=
  match x with
  | .fin _ _ _ => true
  | _ => false

theorem isFin_finite {x : FNum} (h : isFin x = true) : finite x := by
  cases x with
  | fin n m e => exact ⟨n, m, e, rfl⟩
  | inf n => cases h
  | nan s => cases h

/-- The fields of a float form. -/
def recF : Rec := { recO with ty := .f32 }

/-- At the greatest finite number of each format, and at a tie. -/
theorem witness_RoundingIsNearest : (∀ fm ∈ [f32, f16, b16], |valueOf (readFmt fm (fm.infBits - 1))| ≤ greatestOf fm) ∧
    |valueOf (.fin true 3 (-25))| ≤ greatestOf f16 ∧ isFin (readFmt f16 (f16.infBits - 1)) = true ∧
    valueBits f16 (f16.infBits - 1) = 65504 := by decide +kernel

theorem witness_FloatArithmeticIsExact : finite (.fin true 3 (-2)) ∧ finite (.fin false 0 0) ∧ finite (readFmt b16 0x7F7F) ∧
    valueOf (.fin true 3 (-2)) ≠ 0 ∧ 0 ≤ valueOf (.fin false 0 0) ∧ 0 < valueOf (readFmt b16 0x7F7F) :=
  ⟨⟨_, _, _, rfl⟩, ⟨_, _, _, rfl⟩, isFin_finite (by decide +kernel), by decide +kernel, by decide +kernel, by decide +kernel⟩

theorem witness_FloatFormsComplete :
    allOf ([Op.fadd, .fsub, .fmul, .ffma, .fdiv, .fsqrt, .frsq, .fmin, .fmax].flatMap fun o =>
      [hit o recF (sc 1) (sc 2) isFloat, hit o { recF with ty := .f16, fn := 4 } (sc 1) (sc 2) isFloat,
       hit o { recF with ty := .b16, fn := 8 } (sc 1) (sc 2) isFloat]) = true := by decide +kernel

theorem witness_FloatSpecialCases :
    let nan : Val := sc 0x7F800001
    let inf : Val := sc 0x7F800000
    let ninf : Val := sc 0xFF800000
    let one : Val := sc 0x3F800000
    let nz : Val := sc 0x80000000
    allOf ([Op.fadd, .fsub, .fmul, .fdiv, .fmin, .fmax, .ffma].map (fun o => hit o recF nan one fun f => isFloat f && f.fa.isNan) ++
      [Op.fadd, .fsub, .fmul, .fdiv, .fmin, .fmax, .ffma].map (fun o => hit o recF one nan fun f => isFloat f && f.fb.isNan) ++
      [Op.fsqrt, .frsq].map (fun o => hit o recF nan one fun f => isFloat f && f.fa.isNan) ++
      [Op.fsqrt, .frsq].map (fun o => hit o recF (sc 0x80000001) one fun f => isFloat f && !f.fa.isNan && !f.fa.isZero && f.fa.neg?) ++
      [Op.fmul, .ffma].map (fun o => hit o recF nz inf fun f => isFloat f && f.fa.isZero && f.fb.isInf) ++
      [Op.fmul, .ffma].map (fun o => hit o recF ninf (sc 0) fun f => isFloat f && f.fa.isInf && f.fb.isZero) ++
      [hit .ffma recF one one (K := nan) fun f => isFloat f && f.fk.isNan && !(f.fa.isZero && f.fb.isInf) && !(f.fa.isInf && f.fb.isZero),
       hit .frnd recF nan one fun f => isFloat f && (readFmt f.fmt f.bitsA).isNan,
       hit .fcvt { recF with ty := .f16, lit := 8 } nan one fun f => isFloat f && f.lit 0 4 = 8 && (readFmt f32 (f.A.word.toNat % 2 ^ 32)).isNan,
       hit .fcvt { recF with lit := 9 } (sc 0x7C01) one fun f => isFloat f && f.lit 0 4 = 9 && (readFmt f16 (f.A.word.toNat % 2 ^ 16)).isNan,
       hit .fcvt { recF with lit := 10 } (sc 0x7F81) one fun f => isFloat f && f.lit 0 4 = 10 && (readFmt b16 (f.A.word.toNat % 2 ^ 16)).isNan,
       hit .fadd recF inf ninf fun f => isFloat f && f.fa = .inf false && f.fb = .inf true,
       hit .fsub recF ninf ninf fun f => isFloat f && f.fa = .inf true && f.fb = .inf true,
       hit .ffma recF inf one (K := ninf) fun f => isFloat f && (mulNum f.fa f.fb).1 = .inf false && f.fk = .inf true,
       hit .fdiv recF nz (sc 0) fun f => isFloat f && f.fa.isZero && f.fb.isZero, hit .fdiv recF inf ninf fun f => isFloat f && f.fa.isInf && f.fb.isInf,
       hit .fdiv { recF with fn := 4 } (sc 1) nz fun f => isFloat f && isFin f.fa && !f.fa.isZero && f.fb.isZero,
       hit .fsqrt recF nz one fun f => isFloat f && f.fa.isZero, hit .frsq recF nz one fun f => isFloat f && f.fa.isZero,
       hit .frsq recF inf one fun f => isFloat f && f.fa = .inf false,
       hit .fmin recF nz (sc 0) fun f => isFloat f && f.fa.isZero && f.fb.isZero,
       hit .fmax recF nz (sc 0) fun f => isFloat f && f.fa.isZero && f.fb.isZero]) = true := by
  decide +kernel

theorem witness_FloatCompareAndClassify_zeros : (FNum.fin true 0 0).isZero = true ∧ (FNum.fin false 0 0).isZero = true ∧ finite (.fin true 0 0) ∧
    fieldFault .widest .fcmp { recF with fn := 6 } = 99 ∧ fieldFault .widest .fcmp { recF with fn := 7 } ≠ 99 :=
  ⟨rfl, rfl, ⟨_, _, _, rfl⟩, by decide +kernel, by decide +kernel⟩

theorem witness_FloatCompareAndClassify :
    let cls (p : Nat) (q : Bool → Nat → Nat → Bool) : Bool := hit .fcls recF (sc p) (sc 0) fun f => isFloat f && q f.parts.1 f.parts.2.1 f.parts.2.2
    allOf [hit .fcmp { recF with fn := 6 } (sc 1) (sc 2) fun f => decide (f.r.fn.toNat ≤ 6) && !(readFmt f.fmt f.bitsA).isNan,
      hit .fcmp { recF with fn := 5 } (sc 0x7FC00000) (sc 2) fun f => decide (f.r.fn.toNat ≤ 6) && (readFmt f.fmt f.bitsA).isNan,
      hit .fcmp { recF with fn := 1 } (sc 1) (sc 0x7F800001) fun f => decide (f.r.fn.toNat ≤ 6) && (readFmt f.fmt (f.B.word.toNat % 2 ^ 32)).isNan,
      cls 0x7FBFFFFF fun _ e x => e = 255 ∧ x ≠ 0 ∧ x < 2 ^ 22, cls 0x7FC00000 fun _ e x => e = 255 ∧ 2 ^ 22 ≤ x,
      cls 0xFF800000 fun n e x => n = true ∧ e = 255 ∧ x = 0, cls 0x80800000 fun n e _ => n = true ∧ 0 < e ∧ e < 255,
      cls 0x807FFFFF fun n e x => n = true ∧ e = 0 ∧ x ≠ 0, cls 0x80000000 fun n e x => n = true ∧ e = 0 ∧ x = 0,
      cls 0 fun n e x => n = false ∧ e = 0 ∧ x = 0, cls 1 fun n e x => n = false ∧ e = 0 ∧ x ≠ 0,
      cls 0x7F7FFFFF fun n e _ => n = false ∧ 0 < e ∧ e < 255, cls 0x7F800000 fun n e x => n = false ∧ e = 255 ∧ x = 0] = true := by
  decide +kernel

theorem witness_FloatConversions :
    let from_ (f : Firing) (t : Ty) : FNum := readFmt (fmtOf t) (f.A.word.toNat % 2 ^ t.width)
    let e8 : Rec := { recF with ty := .e8 }
    let int : Rec := { recF with ty := .i8 }
    let li (r : Rec) (n : Nat) : Rec := { r with lit := BitVec.ofNat 32 n }
    allOf ([(8, Ty.f32, 0x3F800000, 0x7F800000, 0x7FC00000), (9, .f16, 0x3C00, 0x7C00, 0x7E00), (10, .b16, 0x3F80, 0x7F80, 0x7FC0)].flatMap fun t =>
      [hit .fcvt (li { recF with ty := .f16 } t.1) (sc t.2.2.1) (sc 0) fun f => isFloat f && f.lit 0 4 = t.1,
       hit .fcvt (li e8 t.1) (sc t.2.2.1) (sc 0) fun f => f.lit 0 4 = t.1 && decide (0 < valueOf (from_ f t.2.1)),
       hit .fcvt (li e8 t.1) (sc t.2.2.2.2) (sc 0) fun f => f.lit 0 4 = t.1 && (from_ f t.2.1).isNan,
       hit .fcvt (li e8 t.1) (sc 0) (sc 0) fun f => f.lit 0 4 = t.1 && (from_ f t.2.1).isZero,
       hit .fcvt (li e8 t.1) (sc (2 ^ t.2.1.width - 1)) (sc 0) fun f => f.lit 0 4 = t.1,
       hit .fcvt (li e8 t.1) (sc t.2.2.2.1) (sc 0) fun f => f.lit 0 4 = t.1 && from_ f t.2.1 = .inf false,
       hit .icvt (li int t.1) (sc t.2.2.2.2) (sc 0) fun f => f.lit 0 4 = t.1 && (from_ f t.2.1).isNan,
       hit .icvt (li int t.1) (sc t.2.2.2.1) (sc 0) fun f => f.lit 0 4 = t.1 && (from_ f t.2.1).isInf,
       hit .icvt (li int t.1) (sc t.2.2.1) (sc 0) fun f => f.lit 0 4 = t.1 && isFin (from_ f t.2.1)]) = true ∧
    allOf [hit .fcvt (li recF 14) (sc 255) (sc 0) fun f => isFloat f && f.lit 0 4 = 14,
      hit .fcvt (li e8 14) (sc 254) (sc 0) fun f => f.r.ty = .e8 && f.lit 0 4 = 14,
      hit .icvt (li recF 6) (sc 0x80) (sc 0) fun f => isFloat f && f.lit 0 4 = Ty.i8.code.toNat, hit .frnd recF (sc 1) (sc 0) isFloat] = true := by
  decide +kernel

/-- What an answer gives, as a test. -/
def got {ε α : Type} (x : Except ε α) : Option α :=
  match x with
  | .ok a => some a
  | .error _ => none

/-- The operands of a course form that its checks let pass. -/
def oA (f : Firing) : Option COp := got (readCourse f.r.ty f.A.bits)
def oB (f : Firing) : Option COp := got (readCOp f.r f.r.b f.B)
def oK (f : Firing) : Option COp := got (readCourse f.r.ty f.K.bits)
/-- The operands of a rec form at level 0. -/
def rA (f : Firing) : Option COp := (oA f).bind fun a => got (reconstruct f.x f.found f.j f.r f.r.a (slice f.r.ax 0 4).toNat a)
def rB (f : Firing) : Option COp := (oB f).bind fun a => got (reconstruct f.x f.found f.j f.r f.r.b (slice f.r.ax 4 4).toNat a)

/-- Both operands meet a condition. -/
def both (f : Firing) (p : COp → COp → Bool) : Bool := ((oA f).bind fun a => (oB f).map fun b => p a b).getD false
/-- All three operands meet a condition. -/
def all3 (f : Firing) (p : COp → COp → COp → Bool) : Bool :=
  ((oA f).bind fun a => (oB f).bind fun b => (oK f).map fun c => p a b c).getD false

/-- A ring with entries, its rates and its kind, at its start. -/
def ringOf (q : Nat) (kind : RingKind) (l : List Val) (give take : Nat) : Ring :=
  { q := q, kind := kind, depth := l.length, give := give, take := take, cons := 0, prod := 0, data := none, haar := 0, tile := 1,
    slots := l.map some, rd := 0, wr := l.length, freed := 0, dreg := ⟨[], none, 1, []⟩ }

/-- A context with these rings. -/
def withRings (l : List Ring) (s : State) : State := inCtx (fun x => { x with rings := l }) s

/-- A tile of two courses of F32 at level 1: 1.5 and -0.5 in lane 0, which are 1 and 2 in time. -/
def tile2 : List Val := [cs [0x3FC00000] (tailOf 1 0 false), cs [0xBF000000] (tailOf 1 1 false)]
/-- The const ring 0 that holds it. -/
def tileRing : State → State := withRings [ringOf 0 .const tile2 0 0]
/-- The fields of a rec form whose operands are both the course at the head of ring 0. -/
def recR : Rec := { recV with a := .ring, b := .ring, ax := 0 }
/-- A course at level 1, index 0. -/
def lev1 : Val := cs [0x3FC00000] (tailOf 1 0 false)

theorem witness_CoursesAndTheirLanes :
    let c := mkCourse 255 255 (tailOf 7 127 true) 80 [1, 2, 3, 4, 5, 2 ^ 80]
    let bad (n : Nat) : Course := BitVec.ofNat 512 n
    allOf [80 * [1, 2, 3, 4, 5, 2 ^ 80].length ≤ 480, crsK c = 127, crsL c = 7, crsZ (mkCourse 10 0 0 1 []), crsFmt (bad 0x18) = 0x18,
      crsFmt (bad 0x19) = 0x19, fmtShape (crsFmt (bad 0xFF)) = none ∧ crsFmt (bad 0xFF) ≠ 0x18 ∧ crsFmt (bad 0xFF) ≠ 0x19,
      fmtShape (crsFmt (cs [1]).bits) ≠ none ∧ crsFmt (cs [1]).bits ≠ fmtCode .f16,
      fmtShape (crsFmt (bad (10 + 2 ^ 499))) ≠ none ∧ crsFmt (bad (10 + 2 ^ 499)) = fmtCode .f32 ∧ slice (bad (10 + 2 ^ 499)) 496 4 ≠ 0,
      fmtShape (crsFmt (cs [1]).bits) ≠ none ∧ crsFmt (cs [1]).bits = fmtCode .f32 ∧ slice (cs [1]).bits 496 4 = 0] = true := by
  decide +kernel

theorem witness_CourseLanesAreRounded : (List.replicate 15 (FNum.inf true)).length = Ty.f32.count ∧
    (List.replicate 30 FNum.zero).length = Ty.b16.count := by decide +kernel

/-- Past the greatest code, at it, and below it. -/
theorem witness_CourseLanesAreRounded_taper : ∀ n ∈ [8, 6],
    valueOf (taperNum n (2 ^ (n - 1) - 1)) < |valueOf (.fin true 1 200)| ∧ |valueOf (.fin true 3 (-1))| ≤ valueOf (taperNum n (2 ^ (n - 1) - 1)) := by
  decide +kernel

/-- 1, 256, -256 and the least subnormal of binary32, and a number that is neither zero nor negative. -/
theorem witness_ElementaryFunctionsAreNear : (∀ p ∈ [0x3F800000, 0x43800000, 0xC3800000, 1], p < 2 ^ 32 ∧ isFin (readFmt f32 p) = true) ∧
    valueOf (readFmt f32 0x3F800000) = 1 ∧ valueOf (readFmt f32 0x43800000) = 256 ∧ valueOf (readFmt f32 0xC3800000) = -256 ∧
    0 < valueOf (readFmt f32 1) ∧ valueOf (readFmt f32 1) < 1 := by decide +kernel

/-- The first entry of a tile that breaks a condition: a format, a tail, a level. -/
theorem witness_OperandsReconstruct_codes :
    let ok (l : Nat) (byPlace : Bool) (k : Nat) (d : Course) : Bool := crsFmt d = fmtCode .f32 && slice d 496 4 = 0#4 && crsL d = l && (!byPlace || crsK d = k)
    let t8 : Course := mkCourse (fmtCode .t8) 127 0 8 [1]
    let bad : Course := BitVec.ofNat 512 (10 + 2 ^ 499)
    allOf [ok 1 true 0 lev1.bits, crsFmt t8 ≠ fmtCode .f32, crsFmt bad = fmtCode .f32 && slice bad 496 4 ≠ 0,
      crsFmt (cs [1]).bits = fmtCode .f32 && slice (cs [1]).bits 496 4 = 0 && crsL (cs [1]).bits ≠ 1, crsL lev1.bits = 1 && crsK lev1.bits ≠ 1] = true := by
  decide +kernel

theorem witness_OperandsReconstruct :
    let s := tileRing (state1 (.element 0) (act1 (.element 0) .vexp recR lev1 lev1 lev1))
    let a := act1 (.element 0) .vexp recR lev1 lev1 lev1
    let x := s.ctx 0
    let o : Option COp := got (readCourse .f32 lev1.bits)
    allOf [(o.map (·.l)) = some 1, (o.map (·.bcast)) = some false, (got (readCourse .f32 (cs [1]).bits)).map (·.l) = some 0,
      ((ringTile x a 1 0 0 (tileLen x 0)).map fun t => tileCode .f32 1 true t) = some 99,
      ((ringTile x a 1 0 0 (tileLen x 0)).map fun t => tileCode .f16 1 true t) = some 6,
      (got (readCourse .i32 (mkCourse (fmtCode .i32) 127 (tailOf 1 0 false) 32 [1]))).map (·.l) = some 1] = true := by
  decide +kernel

theorem witness_LaneForms :
    let z : Val := cs [0x3F800000]
    let ic (t : Ty) (l : List Nat) : Val := ⟨.course, mkCourse (fmtCode t) 127 0 t.width l, false⟩
    let ri : Rec := { recV with ty := .i8 }
    let t8 : Val := ⟨.course, mkCourse (fmtCode .t8) 127 0 8 [0x40], false⟩
    let rt : Rec := { recV with ty := .t8 }
    let match_ (a b : COp) : Bool := a.bcast || b.bcast || (a.l = 0 && b.l = 0) || (a.l = b.l && a.k = b.k)
    let const (f : Firing) (b : COp) : Bool := nonZeroBcast f.r f.r.b b
    allOf ([Op.vadd, .vsub].flatMap (fun o =>
        [hit o recV lev1 lev1 fun f => both f fun a b => !(const f b) && match_ a b && a.l = 1,
         hit o { recV with b := .lit, lit := 0x3F800000, a := .ring } lev1 (Val.ofWord (litWord .f32 0x3F800000)) (g := tileRing)
           fun f => both f (fun _ b => const f b) && (rA f).isSome,
         hit o recV lev1 (cs [1] (tailOf 1 1 false)) fun f => both f fun a b => !(const f b) && !(match_ a b)]) ++
      [hit .vmul recV lev1 z fun f => both f fun a b => a.l = 1 && b.l = 0,
       hit .vmul recR lev1 lev1 (g := tileRing) fun f => both f (fun a b => 0 < a.l && 0 < b.l) && (rA f).isSome && (rB f).isSome,
       hit .vfma recV z z (K := z) fun f => all3 f fun a b c => a.l = 0 && b.l = 0 && c.l = 0,
       hit .vfma recV lev1 z (K := lev1) fun f => all3 f fun a b c => 0 < a.l && b.l = 0 && c.l = a.l && c.k = a.k,
       hit .vfma recV z lev1 (K := lev1) fun f => all3 f fun a b c => a.l = 0 && 0 < b.l && c.l = b.l && c.k = b.k,
       hit .vfma recV lev1 lev1 (K := z) fun f => all3 f fun a b _ => 0 < a.l && 0 < b.l,
       hit .vfma recV lev1 z (K := z) fun f => all3 f fun a b c => 0 < a.l && b.l = 0 && c.l ≠ a.l,
       hit .vfma recV z lev1 (K := cs [1] (tailOf 1 1 false)) fun f => all3 f fun a b c => a.l = 0 && 0 < b.l && c.k ≠ b.k,
       hit .vfma recV z z (K := lev1) fun f => all3 f fun a b c => a.l = 0 && b.l = 0 && 0 < c.l,
       hit .vscl recV z (sc 0x40000000) fun f => (oA f).isSome && f.r.fn = 0] ++
      [Op.vmin, .vmax].map (fun o => hit o recR lev1 lev1 (g := tileRing) fun f => f.r.fn = 0 && (rA f).isSome && (rB f).isSome) ++
      [hit .vcmp { recV with fn := 5 } z z fun f => both f (fun _ b => !b.bcast) && f.r.fn.toNat ≤ 5 && (rA f).isSome && (rB f).isSome,
       hit .vcmp { recV with b := .zero } lev1 (Val.zero .pair) fun f => both f fun _ b => b.bcast && !(const f b),
       hit .vsel recV z z (K := z) fun f => all3 f fun a b c => match_ a b && match_ a c && !(isTaper f.r.ty),
       hit .vsel rt t8 t8 (K := t8) fun f => all3 f fun a b c => match_ a b && match_ a c && isTaper f.r.ty,
       hit .vbit { ri with fn := 2 } (ic .i8 [1]) (ic .i8 [3]) fun f => f.r.ty.isInt && both f match_ && f.r.fn.toNat ≤ 2,
       hit .vshf recV z z fun f => (oA f).isSome && f.r.fn = 0, hit .vshf { recV with fn := 1 } z z fun f => (oA f).isSome && f.r.fn = 1,
       hit .vperm recV z (ic .i8 [1]) fun f => (oA f).isSome && crsFmt f.B.bits = 0x01,
       hit .vperm recV z z fun f => (oA f).isSome && crsFmt f.B.bits ≠ 0x01, hit .vbcst ri (sc 5) (sc 0) fun f => f.r.ty.isInt,
       hit .vbcst recV (sc 5) (sc 0) isFloat, hit .vbcst rt (sc 5) (sc 0) fun f => isTaper f.r.ty,
       hit .vext ri (ic .i8 [1]) (sc 0) fun f => f.r.ty.isInt && (oA f).isSome, hit .vext recV z (sc 0) fun f => isFloat f && (oA f).isSome,
       hit .vext rt t8 (sc 0) fun f => isTaper f.r.ty && (oA f).isSome, hit .vins recV z (sc 1) fun f => !(isTaper f.r.ty) && (oA f).isSome,
       hit .vins rt t8 (sc 1) fun f => isTaper f.r.ty && (oA f).isSome]) = true := by
  decide +kernel

theorem witness_LaneReductions :
    let z : Val := cs [0x3F800000, 0x40000000]
    let ic (l : List Nat) : Val := ⟨.course, mkCourse (fmtCode .i8) 127 0 8 l, false⟩
    let ri : Rec := { recV with ty := .i8 }
    allOf [hit .vsum ri (ic [1, 255]) (sc 0) fun f => f.r.ty.isInt && (oA f).isSome,
      hit .vsum recV z (sc 0) fun f => !f.r.ty.isInt && ((oA f).map fun a => a.nums.all isFin && sumOf a.nums = 3) = some true,
      hit .vsum recV (cs [0x7F800001]) (sc 0) fun f => ((oA f).map fun a => a.nums.any (·.isNan)) = some true,
      hit .vdot ri (ic [1]) (ic [2]) fun f => f.r.ty.isInt && both f fun a b => a.l = 0 || b.l = 0,
      hit .vdot recV z z fun f => both f fun a b => a.nums.all isFin && b.nums.all isFin && a.l = 0 &&
        (List.zipWith (fun y w => valueOf y * valueOf w) a.nums b.nums).sum = 5,
      hit .vdot recR lev1 lev1 (g := tileRing) fun f => both f (fun a b => 0 < a.l && 0 < b.l) && (rA f).isSome && (rB f).isSome,
      hit .vrmax ri (ic [1, 255]) (sc 0) fun f => ((oA f).map fun a => a.l = 0 && a.ints.contains 1 && a.ints.all (· ≤ 1)) = some true,
      hit .vrmax recR lev1 lev1 (g := tileRing) fun f => ((rA f).map fun c => c.nums.all (fun y => isFin y && valueOf y ≤ 2) &&
        c.nums.any fun y => valueOf y = 1 || valueOf y = 2) = some true] = true ∧
    valueOf (.fin false 3 0) = 3 ∧ valueOf (.fin false 5 0) = 5 := by
  decide +kernel

theorem witness_ConversionsAndFunctions :
    let z : Val := cs [0x3F800000]
    allOf ([hit .vqnt { recV with fn := 3 } z (sc 0x3F800000) fun f => (oA f).isSome && f.r.fn ≠ 4,
        hit .vqnt { recV with fn := 4 } z (sc 0x3F800000) fun f => (oA f).isSome && f.r.fn = 4,
        hit .vcvt { recV with a := .ring, ty := .i32, lit := 0x1001 } z z (g := withRings [ringOf 0 .const [z] 0 0, ringOf 1 .stream [z] 1 0])
          fun f => f.lit 9 4 = Ty.f32.code.toNat && f.r.ty.count = 15 && (got (readCourse .f32 z.bits)).isSome &&
            got (ringEntries f.x f.found f.j (slice f.r.ax 0 4).toNat (slice f.r.ax 8 5).toNat 1) = some [z.bits] &&
            ringSpot f.x f.found f.j (f.lit 0 4) (f.lit 4 5) 1 = .at_ 0] ++
      [Op.vexp, .vln, .vrcp, .vrsq].flatMap (fun o => [hit o recV z z fun f => (rA f).isSome,
        hit o recR lev1 lev1 (g := tileRing) fun f => ((rA f).map (·.recon)) = some 1]) ++
      (List.range 5).map fun n => hit .vact { recV with fn := BitVec.ofNat 4 n } z z fun f => (rA f).isSome && f.r.fn = BitVec.ofNat 4 n) = true := by
  decide +kernel

/-! ### For the statements about groups 0x7 to 0x9 -/

/-- The rings of a Haar move: a const source 0 of a tile and a stream target 1 with room for it. -/
def moveRings (tile : List Val) : State → State := withRings [ringOf 0 .const tile 0 0, ringOf 1 .stream tile tile.length 0]
/-- A tile of two courses at level 0, and one at two levels. -/
def flat2 : List Val := [cs [0x3FC00000] 0, cs [0xBF000000] (tailOf 0 1 false)]
def odd2 : List Val := [cs [0x3FC00000] (tailOf 1 0 false), cs [0xBF000000] 0]

theorem witness_HaarForms_tiles :
    let z := (Val.zero .course)
    let move (o : Op) (lit : Nat) (tile : List Val) (p : Nat → Firing → Bool) : Bool :=
      hit o { recV with lit := BitVec.ofNat 32 lit } z z (g := moveRings tile) fun f =>
        match (got (f.from_ (2 ^ f.lit 12 3))).bind fun l => got (haarTile .f32 (f.lit 12 3) false l) with
          | none => p 9 f
          | some l0 => p l0 f
    let lands (f : Firing) : Bool := ringSpot f.x f.found f.j (f.lit 0 4) (f.lit 4 5) (2 ^ f.lit 12 3) = .at_ 0
    allOf [move .hfwd 0x1201 flat2 fun l0 f => l0 ≤ f.lit 9 3 && lands f, move .hfwd 0x1201 tile2 fun l0 f => l0 = 1 && f.lit 9 3 = 1 && lands f,
      move .hfwd 0x1001 tile2 fun l0 f => l0 ≠ 9 && f.lit 9 3 < l0, move .hfwd 0x1201 odd2 fun l0 _ => l0 = 9,
      move .hinv 0x1001 tile2 fun l0 f => l0 ≠ 9 && f.lit 9 3 ≤ l0 && lands f, move .hinv 0x1201 tile2 fun l0 f => l0 = 1 && f.lit 9 3 = 1 && lands f,
      move .hinv 0x1201 flat2 fun l0 f => l0 < f.lit 9 3, move .hinv 0x1001 odd2 fun l0 _ => l0 = 9,
      isFin (readFmt f32 0x3FC00000), isFin (.fin false 1 (-1)), valueOf (.fin false 1 (-1)) = (valueOf (readFmt f32 0x3FC00000) + valueOf (readFmt f32 0xBF000000)) / 2,
      isFin (.fin false 1 0), valueOf (.fin false 1 0) = (valueOf (readFmt f32 0x3FC00000) - valueOf (readFmt f32 0xBF000000)) / 2] = true := by
  decide +kernel

theorem witness_HaarForms :
    let z := (Val.zero .pair)
    let outside (n : Nat) (f : Firing) : Bool := n < crsL f.A.bits || 2 ^ n ≤ crsK f.A.bits
    let approx (n : Nat) (f : Firing) : Bool := crsL f.A.bits = 0 || crsK f.A.bits < 2 ^ n / 2 ^ crsL f.A.bits
    let ok (f : Firing) : Bool := (oA f).isSome
    let det : Val := cs [0xBF000000] (tailOf 1 1 false)
    let past : Val := cs [0xBF000000] (tailOf 1 2 false)
    let rT : Rec := { recV with lit := 1 }
    let rB : Rec := { recV with ax := 1 }
    let ic : Val := ⟨.course, mkCourse (fmtCode .i8) 127 0 8 [1, 0, 2], false⟩
    let thr (n : Nat) (v : FNum) (p : Bool) : Bool := isFin v && isFin (readFmt f32 n) && decide (|valueOf v| < valueOf (readFmt f32 n)) == p
    let tileIs (f : Firing) (l0 : Nat) : Bool :=
      ((got (f.from_ (2 ^ f.lit 8 3))).bind fun l => got (haarTile .f32 (f.lit 8 3) true l)) = some l0
    let span (A : Val) (p : Firing → Bool) : Bool := hit .hspan rT A z fun f => checkCourse f.A.bits = 99 && p f
    allOf [hit .hthr rT lev1 z fun f => ok f && !(outside (f.lit 0 3) f) && approx (f.lit 0 3) f,
      hit .hthr rT det z fun f => ok f && !(outside (f.lit 0 3) f) && !(approx (f.lit 0 3) f),
      hit .hthr rT past z fun f => ok f && outside (f.lit 0 3) f, thr 0x3F800000 (.fin true 1 0) false, thr 0x3F800001 (.fin true 1 0) true,
      hit .hbias rB det (sc 0x3F800000) fun f => ok f && !(outside (slice f.r.ax 0 3).toNat f) && !(approx (slice f.r.ax 0 3).toNat f),
      hit .hbias rB lev1 (sc 0x3F800000) fun f => ok f && !f.r.ty.isInt && f.r.fn = 0 && !(outside (slice f.r.ax 0 3).toNat f) &&
        approx (slice f.r.ax 0 3).toNat f,
      hit .hbias rB past (sc 0x3F800000) fun f => ok f && outside (slice f.r.ax 0 3).toNat f,
      hit .hrec { recV with lit := 0x101 } z z (g := tileRing) fun f => tileIs f 1,
      hit .hrec { recV with lit := 0x101 } z z (g := moveRings flat2) fun f => tileIs f 0,
      hit .htag recV lev1 (sc 0xFFF0) fun f => ok f && slice f.B.word 0 4 = 0#4, hit .htag recV lev1 (sc 8) fun f => ok f && slice f.B.word 0 4 ≠ 0#4,
      hit .hcnt { recV with ty := .i8 } ic z fun f => ok f && f.r.ty.isInt, hit .hcnt recV lev1 z fun f => ok f && !f.r.ty.isInt,
      span (cs [1] (tailOf 0 1 false)) fun f => !(outside (f.lit 0 3) f) && crsL f.A.bits = 0,
      span lev1 fun f => !(outside (f.lit 0 3) f) && 0 < crsL f.A.bits && crsK f.A.bits < 2 ^ f.lit 0 3 / 2 ^ crsL f.A.bits,
      span det fun f => !(outside (f.lit 0 3) f) && 1 ≤ crsL f.A.bits && crsK f.A.bits = 2 ^ f.lit 0 3 / 2 ^ 1 + 0,
      span past fun f => outside (f.lit 0 3) f] = true := by
  decide +kernel

/-- The windows of a ring as an activation of its operator finds them at begin: h0, fill, w0, free. -/
def withView (q h fill w free : Nat) (a : Act) : Act := { a with views := [⟨q, h, w, fill, free⟩] }
/-- Ring 0 a stream of three entries, of which an activation takes and gives two. -/
def stream0 (c p : Nat) : State → State :=
  withRings [{ ringOf 0 .stream [lev1, lev1, lev1] 2 2 with cons := c, prod := p }]

theorem witness_RingForms :
    let kind (f : Firing) : Option RingKind := (f.x.ring? (f.lit 0 4)).map (·.kind)
    let g (f : Firing) : Ring := (f.x.ring? (f.lit 0 4)).getD (ringOf 9 .const [] 0 0)
    let st (o : Op) (A B lit : Nat) (p : Firing → Bool) : Bool :=
      hit o { rec0 with lit := BitVec.ofNat 32 lit } (sc A) (sc B) (g := stream0 0 1) fun f => kind f = some .stream && p f
    let co (o : Op) (A B lit : Nat) (p : Firing → Bool) : Bool :=
      hit o { rec0 with lit := BitVec.ofNat 32 lit } (sc A) (sc B) (g := tileRing) fun f => kind f = some .const && p f
    allOf [st .rrd 1 0 0 fun f => f.gone 0 true + f.A.word.toNat < (g f).take, st .rrd 2 0 0 fun f => (g f).take ≤ f.gone 0 true + f.A.word.toNat,
      co .rrd 1 0 0 fun f => f.gone 0 true + f.A.word.toNat < (g f).depth,
      st .rwr 7 1 0 fun f => f.gone 0 false + f.B.word.toNat + 1 ≤ (g f).give, st .rwr 7 2 0 fun f => (g f).give ≤ f.gone 0 false + f.B.word.toNat,
      co .rwr 7 0 0 fun _ => true,
      st .radv 7 0 0x20 fun f => f.gone 0 true + f.lit 4 6 ≤ (g f).take, st .radv 7 0 0x30 fun f => (g f).take < f.gone 0 true + f.lit 4 6,
      co .radv 7 0 0 fun _ => true,
      st .wadv 7 0 0x20 fun f => f.gone 0 false + f.lit 4 6 ≤ (g f).give, st .wadv 7 0 0x30 fun f => (g f).give < f.gone 0 false + f.lit 4 6,
      co .wadv 7 0 0 fun _ => true,
      st .rfill 0 0 0 fun f => (g f).cons = f.found.op f.x && (g f).prod ≠ f.found.op f.x,
      hit .rfill rec0 (sc 0) (sc 0) (g := stream0 1 0) fun f => (g f).cons ≠ f.found.op f.x && (g f).prod = f.found.op f.x] = true := by
  decide +kernel

/-- Block 0 of context 0 at 0x80, with a frame of it under tag 5 that holds this operand or none. -/
def framed (v : Option Val) : State → State :=
  inCtx fun x => { x with
    image := { x.image with blocks := [⟨0x80, 0, 0, 0, ⟨0x80, 1, 1, 1, 0, [], [], []⟩⟩] }
    waiting := [{ Waiting.fresh .frame 0x80 (.element 0) 5 0 0 [] 0 with slots := [⟨v, none, 0⟩] }] }

theorem witness_FrameAndTagForms :
    let tagB (f : Firing) : TagWord := BitVec.ofNat 2 f.a.ctx ++ slice f.B.word 0 34
    let slot (f : Firing) : Option (Option (Option Val)) := (f.x.block? (f.lit 0 12)).bind fun b =>
      (f.s.frame? f.a.ctx b.ptr (tagB f)).map fun w => (w.slots[f.lit 12 5]?).bind (·.val)
    let fl (g : State → State) (B : Nat) (p : Firing → Bool) : Bool := hit .flds rec0 (sc 0) (sc B) (g := g) fun f => (f.x.block? 0).isSome && p f
    allOf [fl (framed (some (sc 9))) 5 fun f => slot f = some (some (sc 9)), fl (framed none) 5 fun f => slot f = some none,
      fl (framed (some (sc 9))) 6 fun f => slot f = none,
      hit .tagn rec0 (sc 0) (sc 0) (fun f => f.x.live.length < f.x.tagEff) (g := inCtx fun x => { x with tagSet := 1 }),
      hit .tagn rec0 (sc 0) (sc 0) (fun f => f.x.tagEff ≤ f.x.live.length) (g := inCtx fun x => { x with tagSet := 1, live := [⟨7, true, 0, false⟩] })] = true := by
  decide +kernel

/-! ### For the statements about demand, memory and streams -/

/-- The access may be made, as a test. -/
def accB (f : Firing) (p : Pair) (tagged : Bool) (spaces : List Nat) (perm x n : Nat) (store : Bool) : Bool :=
  decide (tagged = true ∧ capOtype p = 0 ∧ capSpace p ∈ spaces ∧ capHasPerm p perm = true ∧ capBase p ≤ x ∧ x + n ≤ capTop p ∧
    (capSpace p = 1 → isElement f.u = true ∧ x + n ≤ f.x.scratch ∧ (store = true → f.x.inQueue x n = false)) ∧
    (capSpace p = 4 → x < 2 ^ 56) ∧ (capSpace p = 5 → x < 2 ^ 32))

theorem accB_iff {f p tagged spaces perm x n store} :
    accB f p tagged spaces perm x n store = true ↔ f.access p tagged spaces perm x n store := decide_eq_true_iff

/-- A number of stream time, as a test. -/
def timeB (t : Int) : Bool := decide (-(2 ^ 47) ≤ t ∧ t < 2 ^ 47)

/-- Operator 0, bounded or unbounded, with a landing interval and an origin; what it has landed. -/
def withOp (state landing : Nat) (origin : Option Int) (marks : List Int) : State → State :=
  inCtx fun x => { x with
    image := { x.image with ops := [⟨0, 1, none, false, false, state, origin, none, none, 1, 0, 0, 1, landing⟩] }
    ops := [⟨[], [], [], none, [], [], none, true, 0, marks, 0, [], [], false, 0, 0, 0⟩] }

/-- A sink 3 fed by an edge in context 0, with a residency. -/
def sinkFed (r : Residence) : State → State :=
  inCtx fun x => { x with status := r, edges := [⟨0, 0, .sink 3, 0, 1, [], false, ⟨[], none, 1, []⟩, []⟩] }

theorem witness_DemandForms :
    let c (f : Firing) := if bit f.r.lit 6 then f.lit 4 2 else f.a.ctx
    let lo (f : Firing) := timeOf f.A.word
    let hi (f : Firing) := timeOf f.B.word
    let times (f : Firing) : Bool := timeB (lo f) && timeB (hi f)
    let whole (f : Firing) : Bool := times f && decide (lo f ≤ hi f ∧ hi f - lo f + 1 ≤ 4096)
    let fed (f : Firing) : Bool := (f.s.ctx (c f)).edges.any fun e => e.cons = .sink (f.lit 0 4)
    let st (f : Firing) := (f.s.ctx (c f)).status
    let d (lit A B : Nat) (g : State → State) (p : Firing → Bool) : Bool := hit .dmd { rec0 with lit := BitVec.ofNat 32 lit } (sc A) (sc B) p (g := g)
    allOf [d 3 0 4095 (sinkFed .resident) fun f => whole f && st f = .resident && fed f,
      d 0x43 5 5 (sinkFed .evicting) fun f => whole f && st f = .evicting && fed f,
      d 3 0 1 (sinkFed .absent) fun f => whole f && st f = .absent, d 3 0 1 (sinkFed .loading) fun f => whole f && st f = .loading,
      d 4 0 1 (sinkFed .resident) fun f => whole f && st f = .resident && !(fed f),
      d 3 1 0 id fun f => times f && decide (hi f < lo f), d 3 0 (2 ^ 47) id fun f => !(times f),
      d 3 0 4096 id fun f => times f && decide (4096 < hi f - lo f + 1),
      d 3 (2 ^ 64 - 2 ^ 47) (2 ^ 64 - 2 ^ 47) (sinkFed .resident) fun f => whole f && fed f,
      hit .dget rec0 (sc 1) (sc 1) fun f => f.r.fn = 0, hit .dget { rec0 with fn := 1 } (sc 1) (sc 1) fun f => f.r.fn = 1,
      hit .dxfm { rec0 with lit := 0x100000 } (sc 1) (sc 1) fun f => bit f.r.lit 20,
      hit .dxfm { rec0 with lit := 0xFFFFF } (sc 1) (sc 1) fun f => bit f.r.lit 20 = false,
      hit .stime rec0 (sc 1) (sc 1) (fun f => f.oper.state = 2) (g := withOp 2 8 none []),
      hit .stime rec0 (sc 1) (sc 1) (fun f => f.oper.state ≠ 2) (g := withOp 0 0 none []),
      hit .stset rec0 (sc 1) (sc (2 ^ 47 - 1)) fun f => timeB (hi f), hit .stset rec0 (sc 1) (sc (2 ^ 47)) fun f => !(timeB (hi f))] = true := by
  decide +kernel

theorem witness_LandingForms :
    let marks (f : Firing) : List Int := (f.found.opState f.x).landings.filter fun c => decide (c ≤ timeOf f.A.word)
    let area (f : Firing) (perm : Nat) : Bool := accB f f.pb f.tb [0] perm (capCursor f.pb) 262144 false && capCursor f.pb % 4096 = 0
    allOf [hit .lfind rec0 (sc 8) (sc 0) (fun f => marks f = [0, 8]) (g := withOp 2 8 none [0, 8, 16]),
      hit .lfind rec0 (sc 8) (sc 0) (fun f => marks f = [] && f.oper.origin = some 4) (g := withOp 2 8 (some 4) [16]),
      hit .lfind rec0 (sc 8) (sc 0) (fun f => marks f = [] && f.oper.origin = none) (g := withOp 2 8 none []),
      hit .silent rec0 (sc 8) (sc 0) (fun f => f.oper.state ≠ 2) (g := withOp 1 0 none []),
      hit .silent rec0 (sc 8) (sc 0) (fun f => f.oper.state = 2 && 1 ≤ f.oper.landing) (g := withOp 2 1 none []),
      hit .land { rec0 with lit := 64 } (wide 0 1 0) (wide 0 2 4096)
        fun f => accB f f.pa f.ta [0, 1] 0x001 (capCursor f.pa) (f.lit 0 12) false && area f 0x002,
      hit .lrest { rec0 with lit := 64 } (wide 0 2 0) (wide 0 1 4096) (fun f => f.found.w.restore &&
        accB f f.pa f.ta [0, 1] 0x002 (capCursor f.pa) (f.lit 0 12) true && area f 0x001 && 1 ≤ f.oper.landing)
        (h := fun a => { a with w := { a.w with restore := true } }) (g := withOp 2 1 none []),
      hit .lrest { rec0 with lit := 64 } (wide 0 2 0) (wide 0 1 4096) fun f => !f.found.w.restore] = true := by
  decide +kernel

/-- One code for each check of R164, and a pass at the last byte in bounds. -/
theorem witness_AccessChecksInOrder :
    let p (v : Val) : Pair := v.bits.setWidth 128
    capOtype (p (sealedCap 1 7 0)) ≠ 0 ∧ capSpace (p (wide 6 1 0)) = 6 ∧ bit (0x0E : BitVec 8) (capSpace (p (wide 0 1 0))) = false ∧
    capPerm (p (wide 0 1 0)) &&& 3 ≠ 3 ∧ capBase (p (small 0 1 64 8)) = 64 ∧ capTop (p (small 0 1 64 8)) = 72 ∧ 64 + 8 ≤ 72 ∧ ¬(65 + 8 ≤ 72) := by
  decide +kernel

/-- A course of I32. -/
def ic32 (l : List Nat) : Val := ⟨.course, mkCourse (fmtCode .i32) 127 0 32 l, false⟩
/-- A course of 15 indices that are skipped but for the first, which are these. -/
def idx (l : List Nat) : Val := ic32 (l ++ List.replicate (15 - l.length) 0x80000000)

theorem witness_LoadForms :
    let z := Val.zero .pair
    let ld (r : Rec) (A : Val) (p : Firing → Bool) : Bool :=
      hit .ld r A z fun f => (f.r.sh ≠ .scalar || f.r.ty.isInt || isFloat f) && p f
    let ok (f : Firing) : Bool := accB f f.pa f.ta (dataSpaces f.r) (permIn f.pa 0x001) (f.at_ f.pa) (bytesOf f.r) false
    let part (s : State) : State := inCtx (fun x => { x with part := 0x01000000 }) s
    let code (f : Firing) : Nat := capAccess f.pa f.ta (if f.r.sh = .scalar ∧ f.r.ty.width = 64 then 0x3B else 0x1B) (permIn f.pa 0x001)
      (f.at_ f.pa) (bytesOf f.r) (if isElement f.u then f.x.scratch else 0)
    allOf ([ld rec0 (wide 0 1 0) fun f => ok f && f.at_ f.pa % 8 = 0, ld { rec0 with lit := 0xFFFFFFFF } (wide 0 1 0) fun f => f.at_ f.pa = 2 ^ 72 - 1,
      ld rec0 (wide 0 1 4) fun f => ok f && f.at_ f.pa % 8 ≠ 0, ld rec0 (wide 5 0x401 0) fun f => ok f && f.at_ f.pa % 8 = 0,
      ld { rec0 with ty := .f16, lit := 2 } (wide 4 1 0) fun f => ok f && f.at_ f.pa % 2 = 0, ld { rec0 with sh := .course } (wide 3 1 0) fun f => ok f,
      ld { rec0 with sh := .pair, lit := 8 } (wide 0 5 8) fun f => ok f && f.at_ f.pa % 16 = 0,
      hit .ld rec0 (wide 1 1 32760) z (fun f => ok f && capSpace f.pa = 1) (g := part),
      hit .ld rec0 (wide 1 1 32768) z (fun f => !(ok f) && code f = 8) (g := part),
      ld rec0 (sc 0) fun f => code f = 1, ld rec0 (sealedCap 1 7 0) fun f => code f = 2, ld rec0 (wide 2 1 0) fun f => code f = 9,
      ld rec0 (wide 0 2 0) fun f => code f = 5, ld rec0 (small 0 1 64 7) fun f => code f = 8,
      hit .ldc recV (wide 0 1 64) z fun f => accB f f.pa f.ta [0, 3, 4] (permIn f.pa 0x001) (f.at_ f.pa) 64 false && f.at_ f.pa % 64 = 0,
      hit .lds rec0 (wide 2 1 8) z fun f => accB f f.pa f.ta [2] 0x001 (f.at_ f.pa) 8 false && f.at_ f.pa % 8 = 0,
      hit .acq rec0 (wide 0 0x21 8) z fun f => accB f f.pa f.ta [0] 0x021 (capCursor f.pa) 8 false && capCursor f.pa % 8 = 0,
      hit .ldx recV (wide 0 1 64) (idx [3, 0xFFFFFFFF]) fun f => checkTyped .i32 f.B.bits = 99 &&
        (indexLanes f.r.ty (capCursor f.pa) f.B.bits).map (·.2) = [76, 60] &&
        (indexLanes f.r.ty (capCursor f.pa) f.B.bits).all fun x =>
          accB f f.pa f.ta [0, 1, 3, 4] 0x001 x.2 (f.r.ty.width / 8) false && x.2 % (f.r.ty.width / 8) = 0,
      hit .ldx recV (wide 0 1 64) lev1 fun f => checkTyped .i32 f.B.bits ≠ 99]) = true := by
  decide +kernel

theorem witness_StoreForms :
    let st (r : Rec) (A B : Val) (p : Firing → Bool) : Bool := hit .st r A B p
    let ok (f : Firing) (need : Nat) : Bool :=
      accB f f.pb f.tb (dataSpaces f.r) (permIn f.pb (0x002 ||| need)) (f.at_ f.pb) (bytesOf f.r) true
    let rc : Rec := { recV with ax := 0 }
    let f32 (n : Nat) : Val := cs [n]
    allOf [st rec0 (sc 5) (wide 0 2 8) fun f => f.r.ty.isInt && ok f 0 && f.at_ f.pb % bytesOf f.r = 0,
      st rec0 (sc 5) (sc 0) fun f => f.r.sh = .scalar && !f.tb,
      st rc lev1 (wide 0 2 64) fun f => f.r.sh = .course && !(bit f.r.ax 3) && ok f 0 && f.at_ f.pb % 64 = 0,
      st { rc with ax := 8 } lev1 (wide 4 2 64) fun f => f.r.sh = .course && bit f.r.ax 3 && checkTyped f.r.ty f.A.bits = 99 && ok f 0 && f.at_ f.pb % 64 = 0,
      st { rec0 with sh := .pair } (sc 5) (wide 0 2 16) fun f => f.r.sh = .pair && !f.ta && ok f 0 && f.at_ f.pb % 16 = 0,
      st { rec0 with sh := .pair } cap0 (wide 0 10 16) fun f => f.r.sh = .pair && f.ta && ok f 8 && f.at_ f.pb % 16 = 0,
      st { rec0 with sh := .pair } (sc 5) (wide 0 2 8) fun f => f.r.sh ≠ .scalar && !f.ta && ok f 0 && f.at_ f.pb % bytesOf f.r ≠ 0,
      st rc lev1 (wide 0 2 32) fun f => f.r.sh = .course && ok f 0 && f.at_ f.pb % bytesOf f.r ≠ 0,
      hit .sts rec0 (sc 1) (wide 2 2 8) fun f => accB f f.pb f.tb [2] 0x002 (f.at_ f.pb) 8 true && f.at_ f.pb % 8 = 0,
      hit .stc { recV with ty := .f16, b := .port } lev1 (wide 0 2 64) (fun f => accB f f.pb f.tb [0, 3, 4] 0x002 (f.at_ f.pb) 64 true && f.at_ f.pb % 64 = 0 &&
        ringTile f.x f.found f.j 0 0 ((f.r.ty.count + 14) / 15) = some [(f32 1).bits, (f32 2).bits] &&
        [(f32 1).bits, (f32 2).bits].all fun c => checkTyped .f32 c = 99 && crsL c = crsL (f32 1).bits) (g := withRings [ringOf 0 .const [f32 1, f32 2] 0 0]),
      hit .stx recV lev1 (wide 0 2 64) (K := idx [0]) fun f => checkTyped f.r.ty f.A.bits = 99 && checkTyped .i32 f.K.bits = 99 &&
        (indexLanes f.r.ty (capCursor f.pb) f.K.bits).length = 1 && (indexLanes f.r.ty (capCursor f.pb) f.K.bits).all fun x =>
          accB f f.pb f.tb [0, 1, 3, 4] 0x002 x.2 (f.r.ty.width / 8) true && x.2 % (f.r.ty.width / 8) = 0] = true := by
  decide +kernel

theorem witness_StreamsAndOrder :
    let counts (f : Firing) : List Nat := (streamDesc f.K.bits).1.map Int.toNat
    let addrs (f : Firing) (p : Pair) : List Nat := (streamOffs (counts f) (streamDesc f.K.bits).2).map fun o => (((capCursor p : Int) + o) % 2 ^ 72).toNat
    let typed (f : Firing) : Bool := checkTyped .i32 f.K.bits = 99
    let sound (f : Firing) : Bool := typed f && decide (∀ n ∈ (streamDesc f.K.bits).1, 1 ≤ n) &&
      decide ((streamDesc f.K.bits).1.foldl (· * ·) 1 ≤ 32) && (streamDesc f.K.bits).2.all (fun d => decide (d % 64 = 0))
    let five : State → State := withRings [ringOf 0 .stream (List.replicate 32 lev1) 32 32]
    let desc : Val := ic32 [4, 8, 1, 1, 64, 256]
    let r : Rec := { recV with b := .port }
    allOf ([hit .ldq r (wide 0 1 0) (sc 0) (fun f => sound f && (addrs f f.pa).all (fun x => accB f f.pa f.ta [0, 3, 4] 0x001 x 64 false && x % 64 = 0) &&
        ringSpot f.x f.found f.j 0 0 (streamCount (counts f)) = .at_ 0 && streamCount (counts f) = 32) (K := desc) (g := five),
      hit .stq r (Val.zero .pair) (wide 0 2 0) (fun f => sound f && (addrs f f.pb).all (fun x => accB f f.pb f.tb [0, 3, 4] 0x002 x 64 true && x % 64 = 0) &&
        ringAdvance f.x f.found f.j 0 (streamCount (counts f)) = .at_ 32) (K := desc) (g := five),
      hit .rel rec0 (wide 0 0x21 8) (sc 0) fun f => accB f f.pa f.ta [0] 0x021 (capCursor f.pa) 8 false && capCursor f.pa % 8 = 0] ++
      [Op.ldq, .stq].flatMap fun o => [hit o r (wide 0 3 0) (wide 0 3 0) (fun f => typed f && !(sound f)) (K := ic32 [33, 1, 1, 1]),
        hit o r (wide 0 3 0) (wide 0 3 0) (fun f => typed f && !(sound f)) (K := ic32 [0, 1, 1, 1]),
        hit o r (wide 0 3 0) (wide 0 3 0) (fun f => typed f && !(sound f)) (K := ic32 [1, 1, 1, 1, 32])]) = true := by
  decide +kernel

/-! ### For the statements about groups 0xB to 0xF -/

/-- A page table from 0 whose ASID 0 maps the first 2^30 addresses by this leaf. -/
def mapped (leaf : Word) (s : State) : State :=
  [(0, 0x1001), (0x1000, 0x2001), (0x2000, 0x3001), (0x3000, 0x4001), (0x4000, leaf.toNat)].foldl
    (fun s x => { s with mem := Memory.store s.mem x.1 (natBytes x.2 8) }) s

/-- Node 3 of bay 0, of two rows and seventeen columns. -/
def withNode (s : State) : State :=
  inCtx (fun x => { x with nodes := [⟨0, 3, 2, 17, false, 2, 17, false, [((1, 16), 0x3F800000)], [], 0, [], []⟩] }) s
/-- A scratchpad of 32 KiB. -/
def withPad : State → State := inCtx fun x => { x with part := 0x01000000 }
/-- A task descriptor: one row of one F16 element, K in one piece. -/
def desc1 : Val := ic32 [0, 0, 0, 0, 64, fmtCode .f16]

theorem witness_AtomicForms :
    let ok (f : Firing) : Bool := (f.r.ty.isInt || isFloat f) && accB f f.pa f.ta [0, 1, 3] 0x023 (f.at_ f.pa) (f.r.ty.width / 8) true &&
      f.at_ f.pa % (f.r.ty.width / 8) = 0
    let float (o : Op) : Bool := o = .afadd
    allOf ([Op.aop, .acas, .afadd].flatMap (fun o =>
        let r : Rec := { rec0 with ty := if float o then .f32 else .n64 }
        [hit o r (wide 0 0x23 8) (sc 1) fun f => ok f && f.r.d0 = .none, hit o { r with d0 := .out 15 } (wide 3 0x23 8) (sc 1) fun f => ok f && f.r.d0 = .out 15,
         hit o r (wide 1 0x23 28664) (sc 1) (fun f => ok f && capSpace f.pa = 1) (g := withPad), hit o r (sc 0) (sc 1) fun f => !f.ta]) ++
      [hit .ared { recV with b := .port } lev1 (wide 0 0x23 64) fun f => checkTyped f.r.ty f.A.bits = 99 &&
         accB f f.pb f.tb [0, 3] 0x023 (f.at_ f.pb) 64 true && f.at_ f.pb % 64 = 0,
       hit .ared { recV with b := .port } lev1 (wide 1 0x23 64) (fun f => checkTyped f.r.ty f.A.bits = 99 &&
         accB f f.pb f.tb [1] 0x023 (f.at_ f.pb) 64 true && f.at_ f.pb % 64 = 0) (g := withPad),
       hit .cmb recV lev1 (sc 0) fun f => checkTyped f.r.ty f.A.bits = 99, hit .cmb rec0 lev1 (sc 0) fun f => f.r.sh ≠ .course,
       hit .cmbi recV lev1 (sc 0) fun f => checkTyped f.r.ty f.A.bits = 99, hit .cmbi rec0 lev1 (sc 0) fun f => f.r.sh ≠ .course]) = true := by
  decide +kernel

theorem witness_MatrixForms :
    let k (f : Firing) : Nat := f.lit 4 8 + 1
    let lines (f : Firing) : Bool := capCursor f.pa % 64 = 0 && f.B.word.toNat % 64 = 0
    let area (f : Firing) (perm more : Nat) (store : Bool) : Bool :=
      accB f f.pa f.ta [0, 1] perm (capCursor f.pa) (f.node.size + more) store && capCursor f.pa % 64 = 0
    let inN (f : Firing) : Bool := decide (f.lit 6 9 < f.node.rows ∧ f.lit 15 10 < f.node.cols)
    let typed (f : Firing) : Bool := checkTyped .i32 f.K.bits = 99
    let at_ (row col : Nat) : Rec := { rec0 with lit := BitVec.ofNat 32 (3 + row * 2 ^ 6 + col * 2 ^ 15) }
    allOf [hit .mldb { rec0 with ty := .t8 } (wide 1 1 0) (sc 64) (fun f => accB f f.pa f.ta [1] 0x001 (capCursor f.pa) (k f * f.B.word.toNat) false && lines f) (g := withPad),
      hit .mldb { rec0 with ty := .f16 } (wide 0 1 0) (sc 64) fun f => accB f f.pa f.ta [0] 0x001 (capCursor f.pa) (k f * f.B.word.toNat) false && lines f,
      hit .mtask rec0 (wide 0 1 64) (sc 0) (fun f => typed f && !(descBad f.K.bits) && accB f f.pa f.ta [0, 1] 0x001 (capCursor f.pa)
        (((readDesc f.K.bits).m - 1) * (readDesc f.K.bits).stride + rowCourses (readDesc f.K.bits).afmt (readDesc f.K.bits).k * 64) false &&
        capCursor f.pa % 64 = 0) (K := desc1),
      hit .mtask rec0 (wide 0 1 64) (sc 0) (fun f => typed f && descBad f.K.bits) (K := ic32 [0, 0, 0, 0, 65]),
      hit .mrow (at_ 1 16) (sc 0) (sc 0) inN (g := withNode), hit .mrow (at_ 1 17) (sc 0) (sc 0) (fun f => !(inN f)) (g := withNode),
      hit .mrow (at_ 2 0) (sc 0) (sc 0) (fun f => !(inN f)) (g := withNode),
      hit .macc (at_ 1 16) lev1 (sc 0) (fun f => checkTyped .f32 f.A.bits = 99 && inN f) (g := withNode),
      hit .macc (at_ 1 17) lev1 (sc 0) (fun f => checkTyped .f32 f.A.bits = 99 && !(inN f)) (g := withNode),
      hit .meor (at_ 0 0) (wide 0 2 64) (sc 65535) (fun f => 1 ≤ f.B.word.toNat && f.B.word.toNat ≤ 65535 && area f 0x002 0 true) (g := withNode),
      hit .meor (at_ 0 0) (wide 0 2 64) (sc 65536) fun f => 65535 < f.B.word.toNat, hit .meor (at_ 0 0) (wide 0 2 64) (sc 0) fun f => f.B.word.toNat = 0,
      hit .mspl (at_ 0 0) (wide 1 2 64) (sc 0) (fun f => area f 0x002 64 true) (g := withPad),
      hit .mrst (at_ 0 0) (wide 0 1 64) (sc 0) (fun f => area f 0x001 64 false) (g := withNode)] = true := by
  decide +kernel

theorem witness_EngineForms :
    let n (f : Firing) : Nat := f.K.word.toNat
    let go (f : Firing) (a b : List Nat) (x y al bl : Nat) : Bool :=
      accB f f.pa f.ta a 0x001 (capCursor f.pa) x false && capCursor f.pa % al = 0 &&
      accB f f.pb f.tb b 0x002 (capCursor f.pb) y true && capCursor f.pb % bl = 0 &&
      decide (capSpace f.pa = 4 → capCursor f.pa + x ≤ 2 ^ 56) && decide (capSpace f.pb = 4 → capCursor f.pb + y ≤ 2 ^ 56)
    let coll (f : Firing) (i : Nat) : Nat := ((laneInts .i32 f.K.bits).getD i 0).toNat
    let four (f : Firing) (op x y : Nat) : Bool := checkTyped .i32 f.K.bits = 99 && collCode f.s op (laneInts .i32 f.K.bits) = 99 && go f [0] [0] x y 4 4
    let wrong (f : Firing) (op : Nat) : Bool := checkTyped .i32 f.K.bits = 99 && collCode f.s op (laneInts .i32 f.K.bits) ≠ 99
    let d : Val := ic32 [2, 0, 3, 0, 9, 0, 1, 0]
    let c (o : Op) (fn : BitVec 4) (K : Val) (p : Firing → Bool) : Bool := hit o { rec0 with fn := fn } (wide 0 1 64) (wide 0 2 4096) p (K := K)
    allOf [hit .cpy rec0 (wide 0 1 64) (wide 4 2 (2 ^ 56 - 1)) (fun f => n f = 1 && go f [0, 1, 3, 4] [0, 1, 3, 4] 1 1 1 1) (K := sc 1),
      hit .cpy rec0 (wide 3 1 64) (wide 0 2 64) (fun f => n f = 2 ^ 30 && go f [0, 1, 3, 4] [0, 1, 3, 4] (n f) (n f) 1 1) (K := sc (2 ^ 30)),
      hit .cpy rec0 (wide 3 1 64) (wide 0 2 64) (fun f => 2 ^ 30 < n f) (K := sc (2 ^ 30 + 1)), hit .cpy rec0 (wide 3 1 64) (wide 0 2 64) (fun f => n f = 0) (K := sc 0),
      hit .cpyq rec0 (wide 0 1 64) (wide 0 2 64) (fun f => n f % 64 = 0 && go f [0] [0] (59 * n f + 64) 3840 64 64) (K := sc 128),
      hit .cpyq rec0 (wide 0 1 64) (wide 1 2 64) (fun f => n f % 64 = 0 && capSpace f.pb = 1 && go f [0, 1] [0, 1] (59 * n f + 64) 3840 64 64) (K := sc 128) (g := withPad),
      hit .cpyq rec0 (wide 0 1 64) (wide 1 2 64) (fun f => n f % 64 ≠ 0) (K := sc 32),
      hit .cxpt rec0 (wide 0 1 4096) (wide 0 2 64) (fun f => n f = 262144 && go f [0] [0, 1] (4096 * n f) (8 * n f) 4096 8) (K := sc 262144),
      hit .cxpt rec0 (wide 0 1 4096) (wide 0 2 64) (fun f => n f = 0) (K := sc 0),
      hit .cxpt rec0 (wide 0 1 4096) (wide 0 2 64) (fun f => 262144 < n f) (K := sc 262145),
      c .collGather 0 d fun f => four f 0 (4 * coll f 2) (4 * coll f 0 * coll f 2), c .collRsum 1 d fun f => four f 1 (4 * coll f 0 * coll f 2) (4 * coll f 2),
      c .collAsum 2 d fun f => four f 2 (4 * coll f 2) (4 * coll f 2), c .collBcast 3 d fun f => four f 3 (4 * coll f 2) (4 * coll f 2),
      c .collGather 0 (ic32 [1, 0, 3, 0, 9, 0, 1, 0]) fun f => wrong f 0, c .collRsum 1 (ic32 [2, 2, 3, 0, 9, 0, 1, 0]) fun f => wrong f 1,
      c .collAsum 2 (ic32 [2, 0, 0, 0, 9, 0, 1, 0]) fun f => wrong f 2, c .collBcast 3 (ic32 [2, 0, 3, 0, 9, 0, 1, 2]) fun f => wrong f 3] = true := by
  decide +kernel

theorem witness_TagsAndBarriers :
    let tags (w : Word) : State → State := inCtx fun x => { x with tags := [⟨0, w, []⟩] }
    let bars (ph : Bool) (ws : List (UnitId × Nat)) : State → State := inCtx fun x => { x with bars := [⟨0, 5, 2, 0, 1, 0, ph, ws⟩] }
    let r5 : Rec := { rec0 with lit := 5 }
    allOf [hit .twall rec0 (sc 0) (sc 6) (fun f => f.doneTags = f.B.word) (g := tags 7), hit .twall rec0 (sc 0) (sc 6) (fun f => f.doneTags ≠ f.B.word) (g := tags 5),
      hit .twany rec0 (sc 0) (sc 6) (fun f => f.doneTags ≠ 0) (g := tags 4), hit .twany rec0 (sc 0) (sc 0) fun f => f.B.word = 0,
      hit .twany rec0 (sc 0) (sc 6) (fun f => f.doneTags = 0 && f.B.word ≠ 0) (g := tags 1),
      hit .tffr rec0 (sc 0) (sc (2 ^ 64 - 1)) (fun f => bit f.doneTags 63 && (List.range 63).all fun k => !(bit f.doneTags k)) (g := tags (1#64 <<< 63)),
      hit .tffr rec0 (sc 0) (sc 1) (fun f => bit f.doneTags 0) (g := tags 1), hit .tffr rec0 (sc 0) (sc 1) fun f => f.doneTags = 0,
      hit .barv { rec0 with lit := 447 * 128 } (sc 0) (sc 1) fun f => f.lit 7 9 < 448, hit .barv { rec0 with lit := 0x1FF * 128 } (sc 0) (sc 1) fun f => f.lit 7 9 = 0x1FF,
      hit .barw r5 (sc 0) (sc 0) (fun f => f.bar.phase ≠ bit f.B.bits 0) (g := bars true []),
      hit .barw r5 (sc 0) (sc 1) (fun f => f.bar.phase = bit f.B.bits 0 && f.bar.waiters = []) (g := bars true []),
      hit .barw r5 (sc 0) (sc 1) (fun f => f.bar.phase = bit f.B.bits 0 && f.bar.waiters.contains (f.u, f.j)) (g := bars true [(.element 0, 1)])] = true ∧
    (let b : Barrier := ⟨0, 5, 2, 0, 1, 0, false, [(.element 0, 1)]⟩
     0 < b.expArr.toNat ∧ b.expBytes = 0 ∧ b.arr + 0xFFFE ≤ 0xFFFF ∧ b.bytes + (2 ^ 40 - 1) < 2 ^ 40) := by
  decide +kernel

theorem witness_SparseForms :
    let z := Val.zero .pair
    let fib (l : List (Nat × Nat)) : List Val := l.map fun x => fibreTok x.1 x.2
    let two : State → State := withRings [ringOf 0 .const (fib [(1, 7), (4, 9), (0xFFFFFFF0, 0)]) 0 0, ringOf 1 .const (fib [(2, 7), (4, 8), (0xFFFFFFF0, 0)]) 0 0]
    let out (f : Firing) : Option (Nat × Nat × Nat) := match xsectLoop 8194 f.x f.found f.j (f.lit 0 4) (f.lit 4 4) 0 0 none none with
      | .out p n m => some (p, n, m)
      | _ => none
    let spa (f : Firing) : Spa := spaSeen f.s f.found ⟨f.u, f.j, f.a.ctx, f.r, f.A, f.B⟩ (f.lit 0 2)
    let toks (f : Firing) : List Val := ((spa f).vals.map fun x => fibreTok x.1 (spaOut f.r.ty x.2).1) ++ [fibreTok (0xFFFFFFF0 + f.lit 2 3) 0]
    let entry (f : Firing) : Nat := (((capCursor f.pb : Int) + 8 * (f.A.word.toInt / 2 ^ f.lit 0 4)) % 2 ^ 72).toNat
    let coord (f : Firing) : Nat := (slice f.A.word 0 32).toNat
    let summed : State → State := inCtx fun x => { x with
      rings := [ringOf 0 .stream [z, z] 2 0]
      elems := [(.element 0, ⟨0, 0, 0, 1, [], [⟨0, [(5, 0x3F800000)]⟩]⟩)] }
    allOf [hit .xsect { rec0 with lit := 0x10 } z z (fun f => out f = some (4 + 2 ^ 32 * 9 + 2 ^ 64 * 8, 2, 2)) (g := two),
      hit .fibrd rec0 (wide 0 1 64) z fun f => accB f f.pa f.ta [0, 1, 3, 4] 0x001 (f.at_ f.pa) 128 false && f.at_ f.pa % 64 = 0,
      hit .fibwr rec0 z (wide 0 2 64) (fun f => accB f f.pb f.tb [0, 1, 3, 4] 0x002 (f.at_ f.pb) 128 true && f.at_ f.pb % 64 = 0 &&
        (got (fibreTake 15 f.x f.found f.j (slice f.r.ax 0 4).toNat 0)).map List.length = some 3) (g := two),
      hit .spacc recF (sc 4095) (sc 1) fun f => f.r.ty = .f32 && coord f < 4096, hit .spacc { recF with ty := .f16 } (sc 4095) (sc 1) fun f => f.r.ty = .f16 && coord f < 4096,
      hit .spacc recF (sc 4096) (sc 1) fun f => 4096 ≤ coord f,
      hit .spfl recF z z (fun f => (toks f).length = 2 && (f.x.ring? 0).map (·.depth) = some 2 && ringSpot f.x f.found f.j 0 0 (toks f).length = .at_ 0) (g := summed),
      hit .pxlt rec0 (sc 3) (wide 0 1 64) fun f => 0 ≤ f.A.word.toInt && accB f f.pb f.tb [0, 1] 0x001 (entry f) 8 false && entry f % 8 = 0,
      hit .pxlt rec0 (sc (2 ^ 64 - 1)) (wide 0 1 64) fun f => f.A.word.toInt < 0,
      hit .kvapp rec0 (wide 0 0x23 64) (sc 0) (fun f => 0 ≤ f.B.word.toInt && checkTyped .f32 f.K.bits = 99 &&
        accB f f.pa f.ta [0] 0x023 (capCursor f.pa) (64 * (f.lit 0 4 + 1)) true && capCursor f.pa % 64 = 0) (K := lev1),
      hit .kvapp rec0 (wide 0 0x23 64) (sc (2 ^ 64 - 1)) fun f => f.B.word.toInt < 0,
      hit .kvlen rec0 (wide 0 0x23 64) (sc (2 ^ 64 - 1)) fun f => -1 ≤ f.B.word.toInt && accB f f.pa f.ta [0] 0x023 (capCursor f.pa) 16 true && capCursor f.pa % 64 = 0,
      hit .kvlen rec0 (wide 0 0x23 64) (sc (2 ^ 64 - 2)) fun f => f.B.word.toInt < -1,
      hit .smxm recV (cs [1]) (cs [2]) fun f => (got (tripCourse f.A.bits)).isSome && (got (tripCourse f.B.bits)).isSome,
      hit .smxf recV (cs [1]) (sc 0) fun f => (got (tripCourse f.A.bits)).isSome] = true := by
  decide +kernel

/-- A leaf of tier 0 for all four accesses. -/
def leaf0 : Word := 0xF03

theorem witness_SystemForms :
    let other (f : Firing) : Ctx := f.s.ctx (f.lit 0 2)
    let pend (f : Firing) : BitVec 32 := (f.s.newels.getD (unitDie f.u) Newel.reset).pending &&& slice f.B.word 0 32
    let ctxeOk (f : Firing) : Bool := capAccess f.pa f.ta 0x01 0x00A (capBase f.pa) 0 0 = 99
    let st (x : Residence) : State → State := inCtx fun y => { y with status := x, place := [.element 0], part := 0x01010101 }
    let event (l : List Nat) (s : State) : State := s.modNewel 0 fun n => { n with queued := l.map fun i => (i, 0, 0) }
    let tl (n : Nat) (s : State) : State := { s with net := { s.net with tlbis := [⟨0, n, 0, 1, 0, false, [], false, []⟩] } }
    let mw (f : Firing) : Except Nat Walk := walk f.s f.x.asid (capCursor f.pa)
    let mok (f : Firing) : Nat := capAccess f.pa f.ta 0x01 0x800 (capCursor f.pa) 1 0
    let cxe (x : Residence) (p : Firing → Bool) : Bool := hit .ctxe rec0 (wide 0 10 0) (sc 0) (fun f => ctxeOk f && (other f).status = x && p f) (g := st x)
    allOf [hit .tlbs rec0 (sc 0) (sc 0) (fun f => f.s.net.tlbis.all fun t => f.found.began < t.step) (g := tl 2) (h := fun a => { a with began := 1 }),
      hit .tlbs rec0 (sc 0) (sc 0) (fun f => f.s.net.tlbis.any fun t => t.step ≤ f.found.began) (g := tl 1) (h := fun a => { a with began := 1 }),
      hit .ctxlLoad rec0 (wide 2 1 0) (sc 0) fun f => capAccess f.pa f.ta 0x05 0x001 (capCursor f.pa) 256 0 = 99,
      hit .ctxlResume { rec0 with fn := 1 } (wide 0 1 0) (sc 0) fun f => capAccess f.pa f.ta 0x05 0x001 (capBase f.pa) 1 0 = 99,
      cxe .resident fun f => (other f).saveSize ≤ capTop f.pa - capBase f.pa, cxe .absent fun _ => true, cxe .loading fun _ => true, cxe .evicting fun _ => true,
      hit .ctxe rec0 (small 0 10 0 16) (sc 0) (fun f => ctxeOk f && (other f).status = .resident && capTop f.pa - capBase f.pa < (other f).saveSize) (g := st .resident),
      hit .wfe rec0 (sc 0) (sc 0) fun f => slice f.B.word 0 32 = 0#32, hit .wfe rec0 (sc 0) (sc 2) (fun f => slice f.B.word 0 32 ≠ 0#32 && pend f = 0) (g := event [0]),
      hit .wfe rec0 (sc 0) (sc (2 ^ 31)) (fun f => bit (pend f) 31 && (List.range 31).all fun k => !(bit (pend f) k)) (g := event [0, 31]),
      hit .migr rec0 (wide 0 0x800 0) (Val.ofWord leaf0) (fun f => mok f = 99 && migrCode f.s (mw f) f.B.word = 0 && (got (mw f)).isSome) (g := mapped leaf0),
      hit .migr rec0 (wide 0 0x800 0) (sc 0) (fun f => mok f = 99 && migrCode f.s (mw f) f.B.word = 3) (g := mapped leaf0),
      hit .migr rec0 (wide 0 0x800 0) (sc 0) fun f => mok f = 99 && migrCode f.s (mw f) f.B.word = 1, hit .migr rec0 (sc 0) (sc 0) fun f => mok f = 1,
      hit .thrt rec0 (sc 63) (sc 15) fun f => bit f.A.word 6 = false, hit .thrt rec0 (sc 64) (sc 16) fun f => bit f.A.word 6,
      State.reset.ballastFor (.element 0) 0 8 ≤ 8, ((State.reset.modCtx 0 fun x => { x with prio := 1 }).ctx 0).prio ≠ 0] = true := by
  decide +kernel

/-! ### For the statements about the machine as a whole, ends, commits, tokens and demand registers -/

/-- The subject of the event changed. -/
def sub (f : Subject → Subject) (s : State) : State := { s with sched := { s.sched with subject := f s.sched.subject } }

theorem witness_StepRunsTheInstruction :
    let s (w : Record) : State := { State.reset.putAct (.element 0) { act1 (.element 0) .add recO (sc 1) (sc 2) (sc 0) with
      blk := ⟨64, 1, 4, 16, 0xFFFF, [0, w], [0, 0], []⟩ } with
      sched := { State.reset.sched with agenda := [⟨1, 1, .fire (.element 0) 1⟩, ⟨0, 0, .event .kpStep default⟩] } }
    let env (w : Record) : FetchEnv := ((s w).act (.element 0)).elim default fun a => actEnv (s w) (.element 0) a
    let w := Op.add.encode recO
    let bad : Record := 0xCF#8 ++ 0#88
    let t : State := { State.reset with sched := { State.reset.sched with agenda := [⟨1, 1, .event .kpStep default⟩] } }
    allOf [(s w).sched.agenda = [⟨1, 1, .fire (.element 0) 1⟩, ⟨0, 0, .event .kpStep default⟩],
      ((s w).act (.element 0)).bind (fun a => a.blk.nodes[1]?) = some w,
      got (decodeRecord (env w) w) = some (.add recO),
      got (decodeRecord (env bad) bad) = none,
      Instr.kpStep.record? = none,
      (t.begin ⟨1, 1, .event .kpStep default⟩ []).off .kpStep = false] = true := by decide +kernel

theorem witness_Encoding : fieldFault .widest .add { recO with ty := .n8, fn := 1, b := .lit, lit := 0xFFFFFFFF, d0 := .out 15 } = 99 ∧
    got (decodeRecord .widest (Op.cmb.encode { rec0 with fn := 8, ty := .f32, sh := .course, b := .zero, lit := 0xFFFF })) = some (.cmb { rec0 with fn := 8, ty := .f32, sh := .course, b := .zero, lit := 0xFFFF }) := by decide +kernel

/-- A canonical memory that is not empty, a step and a firing. -/
theorem witness_MemoryStaysCanonical :
    let s : State := { State.reset with mem := Memory.store [] 64 [1, 0, 2], sched := { State.reset.sched with agenda := [⟨0, 0, .event .kpStep default⟩] } }
    s.mem = [(64, 1), (66, 2)] ∧ Memory.wf s.mem = true ∧ (match step s with | .next _ => true | _ => false) = true ∧
    (Instr.add rec0).record?.isSome = true ∧
    (match exec (.add rec0) (fire1 .add rec0 (sc 1) (sc 2)).s with | .next _ => true | _ => false) = true := by decide +kernel

theorem witness_MemoryReads : Memory.wf [(64, 1), (66, 2)] = true ∧ (64 ≤ 66 ∧ 66 < 64 + 3) ∧ ¬(64 ≤ 67 ∧ 67 < 64 + 3) := by decide +kernel

theorem witness_RecordsFire :
    let r : Rec := { rec0 with pq := .onTrue, a := .temp 0, b := .port }
    let a (p b : Option Val) : Act := { act1 (.element 0) .add r (sc 1) (sc 2) (sc 9) with
      recs := [⟨.fired, none, none, none, none, []⟩, ⟨.idle, none, b, p, none, []⟩], temps := [⟨0, 0, sc 9, []⟩, ⟨1, 0, sc 8, []⟩] }
    let m (x y : Option Val) : Act := { act1 (.element 0) .mergeOp rec0 (sc 1) (sc 2) (sc 9) with
      recs := [⟨.nullified, none, none, none, none, []⟩, ⟨.idle, x, y, none, none, []⟩] }
    let x := a (some (sc 1)) (some (sc 2))
    x.stage = .running ∧ x.info 1 = some (.add, r) ∧ (x.slot 1).st = .idle ∧ (x.slot 0).st.settled = true ∧
    (state1 (.element 0) x).firing = some (.element 0, 1, x) ∧ (x.slot 1).p = some (sc 1) ∧ bit (sc 1).bits 0 = decide (r.pq = .onTrue) ∧
    ((a none none).slot 1).p = none ∧ ((a (some (sc 2)) none).slot 1).p = some (sc 2) ∧ bit (sc 2).bits 0 ≠ decide (r.pq = .onTrue) ∧
    ((a (some (sc 1)) none).slot 1).b = none ∧ r.b = .port ∧ (x.slot 1).b ≠ none ∧ r.a ≠ .ring ∧
    (⟨0, 0, sc 9, []⟩ : TempWrite) ∈ x.temps ∧ 0 < 1 ∧ ((⟨1, 0, sc 8, []⟩ : TempWrite).j < 1) = False ∧
    ((m (some (sc 5)) none).slot 1).a = some (sc 5) ∧ ((m (some (sc 5)) none).slot 1).b = none ∧
    ((m none (some (sc 5))).slot 1).b = some (sc 5) ∧ ((m none (some (sc 5))).slot 1).a = none ∧ (m none none).info 1 = some (.mergeOp, rec0) := by
  decide +kernel

theorem witness_CompletionDelivers : ({ rec0 with d1 := .node 0 .b } : Rec).d1 = .node 0 .b ∧
    (∀ d ∈ [(Dest.out 3, some (sc 1)), (Dest.temp 2, none)], ¬(∃ n, d.1 = .node n .a ∧ n.val = 0 ∧ d.2.isSome)) ∧ 1 < (act1 (.element 0) .add rec0 (sc 1) (sc 2) (sc 0)).recs.length ∧
    ({ rec0 with d0 := .node 0 .p } : Rec).d0 = .node 0 .p ∧ (0 : Fin 128).val < (act1 (.element 0) .add rec0 (sc 1) (sc 2) (sc 0)).recs.length := by
  decide +kernel

theorem witness_FaultsAreTaken :
    let a := act1 (.element 0) .add rec0 (sc 1) (sc 2) (sc 0)
    let s := state1 (.element 0) a
    hit .add { rec0 with fn := 1, ty := .i8 } (sc 127) (sc 1) (fun f => f.r.ty.isInt && f.r.fn = 1 && greatest f.r.ty < f.na + f.nb && bit f.found.trap 5)
      (h := fun a => { a with trap := 32 }) = true ∧
    bit ((5 : BitVec 6) &&& 6) 2 = true ∧ (∀ i < 2, bit ((5 : BitVec 6) &&& 6) i = false) ∧
    s.act (.element 0) = some a ∧ a.ctx < s.ctxs.length ∧ a.effects = [] ∧ a.w.kind = .frame ∧ (s.ctx a.ctx).image.trapOp? = none := by
  decide +kernel

/-- An exit record: mask and successor. -/
def exitWord (mask : BitVec 16) (next : BlockPtr) : Record := 0#14 ++ mask ++ next
/-- An activation on element 0 that has settled, with a block of two outputs and this exit, the exits that it fired and its port writes. -/
def doneAct (mask : BitVec 16) (next : BlockPtr) (exits : List Nat) (ports : List Nat) : Act :=
  { act1 (.element 0) .add rec0 (sc 1) (sc 2) (sc 0) with
    blk := ⟨64, 1, 2, 2, 0, [0], [exitWord mask next], []⟩
    recs := [⟨.fired, none, none, none, none, []⟩], exits := exits
    outs := ports.map fun k => ⟨0, k, some (sc k), none, none⟩ }
/-- It stands on element 0, the subject. -/
def endState (a : Act) : State := sub (fun y => { y with u := .element 0 }) (State.reset.putAct (.element 0) a)

theorem witness_ActivationEnd :
    let ends (a : Act) : Bool := (endState a).sched.subject.u = .element 0 && (endState a).act (.element 0) = some a && a.stage = .running && a.quiet
    let open_ (a : Act) : Bool := a.exits = [0] && 0 < a.blk.exits.length
    let kept (a : Act) : Bool := (List.range a.blk.outputs).all fun k => a.writes k = if bit (a.blk.mask 0) k then 1 else 0
    let a := doneAct 2 0
    allOf [ends (a [] []), ends (a [0, 0] []), ends (a [1] []) && (a [1] []).blk.exits.length ≤ 1,
      !({ a [0] [1] with recs := [⟨.idle, some (sc 1), some (sc 1), none, none, []⟩] } : Act).quiet,
      ends (a [0] []) && open_ (a [0] []) && bit ((a [0] []).blk.mask 0) 1 && (a [0] []).writes 1 = 0,
      ends (a [0] [1, 1]) && bit ((a [0] [1, 1]).blk.mask 0) 1 && (a [0] [1, 1]).writes 1 = 2,
      ends (a [0] [1, 0]) && bit ((a [0] [1, 0]).blk.mask 0) 0 = false && (a [0] [1, 0]).writes 0 ≠ 0 && (a [0] [1, 0]).writes 1 = 1,
      ends (a [0] [1]) && open_ (a [0] [1]) && kept (a [0] [1]) && (a [0] [1]).rateBreach (State.reset.ctx 0) = none && (a [0] [1]).redirs = [] &&
        !((endState (a [0] [1])).chainBreach (.element 0) (a [0] [1]) 2 0 0) && (a [0] [1]).landingCode (State.reset.ctx 0) = 99] = true := by
  decide +kernel

/-- An edge of operator 0's port k to a consumer, with tokens in flight. -/
def edge1 (k : Nat) (c : Consumer) (l : List Token) (blocked : Bool := false) : Edge := ⟨0, k, c, 0, 1, l, blocked, ⟨[], none, 1, []⟩, []⟩
/-- A token of a value under tag 5 and stamp 7. -/
def tok1 (v : Val) (c : Option Comb) : Token := ⟨v, 5, 7, 0, c, ⟨[], []⟩⟩

theorem witness_CommitMoment :
    let a (next : BlockPtr) (l : List (Nat × Effect)) : Act :=
      { doneAct 2 next [0] [1] with stage := .committing 0 next [] false, effects := l, stores := [⟨0, 0, 64, .bytes [1]⟩, ⟨0, 0, 72, .bytes [2]⟩] }
    let s (a : Act) : State := inCtx (fun x => { x with edges := [edge1 1 (.sink 3) []] }) (endState a)
    let ok (a : Act) : Bool := (s a).sched.subject.u = .element 0 && (s a).act (.element 0) = some a && a.recs.all (fun r => !r.st.busy) && a.ctx < (s a).ctxs.length
    let busy : Act := { a 0 [] with recs := [⟨.issued 0, none, none, none, none, []⟩] }
    let x := a 0 []
    allOf [ok x && x.effects = [] && x.w.kind = .frame && !x.w.silent && ((s x).ctx 0).edges = [edge1 1 (.sink 3) []] && x.op ((s x).ctx 0) = 0 &&
        1 < x.blk.outputs && bit (x.blk.mask 0) 1 && (x.outs.find? (fun y => y.port = 1)).bind (·.val) = some (sc 1),
      ok (a 128 [(0, .tset 9)]), ok (a 0 [(0, .stset 9)]), ok (a 0 [(0, .mpln 8)]), ok (a 0 [(0, .throttle 63 false 15)]) && 63 < State.reset.fab.halls.length,
      (busy.recs.any fun r => r.st.busy)] = true := by
  decide +kernel

/-- Block 0 of operator 1 at 0x80, with n inputs, on a unit; the edge i = 0 leads to its port q, and is the subject; frames of context 0. -/
def matchState (u : UnitId) (n q : Nat) (t : Token) (frames : List Waiting) (blocked : Bool := false) : State :=
  sub (fun y => { y with c := 0, e := 0 }) (inCtx (fun x => { x with
    status := .resident, part := 1, place := [u]
    image := { x.image with
      blocks := [⟨0x80, 1, 0, 0, ⟨0x80, 1, n, 1, 0, [], [], []⟩⟩]
      ops := [⟨9, 1, none, false, false, 0, none, none, none, 1, 0, 0, 1, 0⟩, ⟨0, 1, none, false, false, 0, none, none, none, 1, 0, 0, 1, 0⟩] }
    edges := [edge1 0 (.op 1 q) [t] blocked], waiting := frames }) State.reset)
/-- A frame of that block under tag 5 and a stamp. -/
def frame1 (u : UnitId) (st : Stamp) (l : List Slot) : Waiting := Waiting.fresh .frame 0x80 u 5 st 0 l 0

theorem witness_TokensAreMatched :
    let t := tok1 (sc 9) none
    let k : Comb := ⟨0, .i64, .scalar, 2⟩
    let heads (s : State) (t : Token) (bl : Bool) : Bool := s.sched.subject.c = 0 && s.sched.subject.e = 0 && (s.ctx 0).edges = [edge1 0 (.op 1 1) [t] bl] &&
      (((s.ctx 0).ops[0]?).map (·.clones)).getD [] = [] && s.resident 0 && s.follows t.after && (s.ctx 0).edges.all (fun e => !((s.ctx 0).waitsOffered e))
    let enters (s : State) (u : UnitId) : Bool := (((s.ctx 0).ops[1]?).map (·.clones)).getD [] = [] && (s.ctx 0).unitOf 0 = u &&
      (((s.ctx 0).image.ops[1]?).map (·.entry)).getD 0 = 0 && ((s.ctx 0).block? 0).isSome
    let e : UnitId := .element 3
    let none2 : List Slot := [⟨none, none, 0⟩, ⟨none, none, 0⟩]
    let at_ (fr : List Waiting) (t : Token) (p : State → Bool) : Bool := heads (matchState e 2 1 t fr) t false && enters (matchState e 2 1 t fr) e && p (matchState e 2 1 t fr)
    let crowd : State := matchState (.newel 0) 2 1 t (List.replicate 256 (Waiting.fresh .frame 0xC0 (.newel 0) 5 7 0 [] 0)) true
    let sinkS (l : List Ival) : State := sub (fun y => { y with c := 0, e := 0 }) (inCtx (fun x => { x with
      status := .resident, edges := [edge1 0 (.sink 3) [t]], sinks := [⟨3, l, [], [], 0, [], []⟩] }) State.reset)
    allOf [at_ [] t fun s => s.findFrame 0 e 0x80 5 = none && s.framePlace 0 e 3 = some false,
      at_ [frame1 e 7 none2] t fun s => s.findFrame 0 e 0x80 5 = some (frame1 e 7 none2) && got ((none2.getD 1 default).take t) = some ⟨some (sc 9), none, 0⟩,
      at_ [frame1 e 7 none2] (tok1 (sc 9) (some k)) fun s => (s.findFrame 0 e 0x80 5).isSome && (got ((none2.getD 1 default).take (tok1 (sc 9) (some k)))).isSome,
      at_ [frame1 e 7 [⟨none, none, 0⟩, ⟨some (sc 8), none, 0⟩]] t fun s => (s.findFrame 0 e 0x80 5).isSome && s.framePlace 0 e 1 = some false,
      at_ [frame1 e 8 none2] t fun s => (s.findFrame 0 e 0x80 5).any (fun w => w.stamp ≠ t.stamp) && s.framePlace 0 e 1 = some false,
      heads crowd t true && enters crowd (.newel 0) && crowd.findFrame 0 (.newel 0) 0x80 5 = none && crowd.framePlace 0 (.newel 0) 3 = none,
      ((sinkS [⟨7, 7⟩]).ctx 0).sinks.all fun y => y.wants t.stamp.toInt, ((sinkS []).ctx 0).sinks.all fun y => !(y.wants t.stamp.toInt)] = true := by
  decide +kernel

theorem witness_DemandIsReduced :
    let p (lo hi : Int) : Pend := ⟨⟨lo, hi⟩, 0⟩
    let r : DReg := ⟨[p 0 3, p 8 11, p 16 19, p 24 27], some ⟨2, 5⟩, 4, []⟩
    r.pend.Pairwise (fun p q => p.iv.hi + 1 < q.iv.lo) ∧ (∀ p ∈ r.pend, p.iv.lo ≤ p.iv.hi) ∧ r.pend.length ≤ 4 ∧
    (∃ p ∈ r.pend, p.iv.lo ≤ 2) ∧ (13 : Int) ≤ 40 := by decide +kernel

/-! ### For the statements about requests, pages and engines -/

/-- The page of the first 2^30 addresses by a leaf. -/
def page1 (leaf : Word) : Page := ⟨0, 2 ^ 30, leaf⟩
/-- Request 7 of record 1 on element 0. -/
def req1 (space addr : Nat) (kind : ReqKind) (leaf : Word := leaf0) : Req :=
  ⟨7, unitPort (.element 0), 0, 0, 0, .element 0, 1, 64, 5, 7, 0, space, addr, 0, kind, .waiting, none, [page1 leaf], ⟨[], []⟩, []⟩
/-- The state in which it waits and is the subject. -/
def reqS (q : Req) (s : State := State.reset) : State := sub (fun y => { y with id := q.id }) { s with net := { s.net with reqs := [q] } }
/-- The activation that waits for it. -/
def loadAct (o : Op) (r : Rec) (A B : Val) : Act :=
  { act1 (.element 0) o r A B (sc 0) with recs := [⟨.skipped, none, none, none, none, []⟩, ⟨.issued 7, some A, some B, none, none, []⟩] }

/-- The request may be performed and its pages are there, as a test. -/
def ripeB (s : State) (q : Req) : Bool := s.sched.subject.id = q.id && s.req? q.id = some q && s.ripe q
/-- The typed page's leaf. -/
def leafT : Word := leaf0 ||| 4

theorem witness_LoadsReturn :
    let at_ (o : Op) (r : Rec) (B : Val) (q : Req) (g : State → State) (p : State → Act → Bool) : Bool :=
      let a := loadAct o r (sc 0) B
      let s := reqS q (g (State.reset.putAct (.element 0) a))
      ripeB s q && s.act q.unit = some a && (a.slot 1).st = .issued q.id && a.stage = .running && a.info 1 = some (o, r) && p s a
    let clean (s : State) (q : Req) (a : Act) : Bool := !(s.outside q) && s.loadPoison q a = none
    let q0 := req1 0 64 (.load 8 false)
    let qt := req1 0 64 (.load 64 false) leafT
    let crs (s : State) : State := { s with mem := Memory.store s.mem 64 (courseBytes (lev1.bits)) }
    let full (s : State) : State := { s with net := { s.net with structs := [(64, .full)] } }
    let bad (s : State) : State := { s with net := { s.net with poison := [64] } }
    let q2 := req1 2 64 (.load 8 false)
    let qa := req1 0 64 (.acquire 1)
    let qs := req1 1 64 (.load 8 false)
    let below (a : Act) : Act := { a with stores := [⟨0, 1, 64, .bytes [1, 2, 3, 4, 5, 6, 7, 8]⟩] }
    allOf [at_ .ld rec0 (sc 0) q0 id fun s a => clean s q0 a,
      at_ .ld { rec0 with sh := .pair } (sc 0) (req1 0 64 (.load 16 true)) id fun s a => clean s (req1 0 64 (.load 16 true)) a && !(s.allTyped (req1 0 64 (.load 16 true))),
      at_ .ld { rec0 with sh := .pair } (sc 0) (req1 0 64 (.load 16 true) leafT) id fun s a =>
        clean s (req1 0 64 (.load 16 true) leafT) a && s.allTyped (req1 0 64 (.load 16 true) leafT),
      at_ .ld recV (sc 0) qt crs fun s a => clean s qt a && s.allTyped qt &&
        checkTyped recV.ty (BitVec.ofNat 512 (bytesNat (s.loadedBytes qt a s.sched.subject.ext))) = 99,
      at_ .ld recV (sc 0) qt id fun s a => clean s qt a && s.allTyped qt &&
        checkTyped recV.ty (BitVec.ofNat 512 (bytesNat (s.loadedBytes qt a s.sched.subject.ext))) ≠ 99,
      at_ .lds rec0 (sc 0) q2 full fun s a => clean s q2 a && !(a.covers 1 2 64 8) && (s.spot q2 64).any fun x => s.struct? x.key = some .full,
      at_ .lds rec0 (sc 0) q2 id fun s a => clean s q2 a && !(a.covers 1 2 64 8) && (s.spot q2 64).any fun x => s.struct? x.key = none && s.readersAt (s.home x.key) < 4096,
      at_ .acq rec0 (sc 1) qa (fun s => { s with mem := [(64, 1)] }) fun s a => clean s qa a && !(s.allTyped qa) && (a.viewOf s qa.unit 1 rec0).b.word = 1 &&
        ((BitVec.ofNat 64 (bytesNat (s.loadedBytes qa a s.sched.subject.ext)) : Word) - 1).toNat < 2 ^ 63,
      at_ .acq rec0 (sc 1) qa id fun s a => clean s qa a && 2 ^ 63 ≤ ((BitVec.ofNat 64 (bytesNat (s.loadedBytes qa a s.sched.subject.ext)) : Word) - 1).toNat,
      at_ .ld rec0 (sc 0) q0 bad fun s a => !(s.outside q0) && s.loadPoison q0 a = some 64,
      at_ .ld rec0 (sc 0) qs id fun s a => !((s.homeCtx 0 0).usesTasks) && a.below 1 1 = [] && (below a).below 1 1 = (below a).stores,
      !((reqS { q0 with trans := [] }).ripe { q0 with trans := [] })] = true := by
  decide +kernel

theorem witness_RequestsPerform :
    let at_ (q : Req) (g : State → State) (p : State → Spot → Bool) : Bool :=
      let s := reqS q (g State.reset)
      ripeB s q && !(s.outside q) && (s.spot q q.addr).any (p s)
    let st (space : Nat) (d : StoreData) (leaf : Word) : Req := req1 space 64 (.store d) leaf
    let atom (leaf : Word) : Req := req1 0 64 (.atomic 0 .i64 1 0 none (some ⟨1, 5, 7, none, ⟨[], []⟩⟩)) leaf
    let outE : State → State := inCtx fun x => { x with status := .resident, edges := [edge1 1 (.sink 3) []]
                                                        image := { x.image with blocks := [⟨64, 0, 0, 0, default⟩] } }
    let defer (s : State) : State := { s with net := { s.net with structs := [(64, .deferred [])] } }
    let crs (s : State) : State := { s with mem := Memory.store s.mem 64 (courseBytes (lev1.bits)) }
    let kv := req1 0 64 (.kvapp 3 [1]) leafT
    let w0 : Req := { req1 0 64 (.load 8 false) with trans := [] }
    let waits (q : Req) (g : State → State) (p : State → Bool) : Bool := let s := reqS q (g State.reset)
      s.sched.subject.id = q.id && s.req? q.id = some q && q.st = .waiting && p s
    let ptable : State → State := mapped leaf0
    allOf [at_ (st 0 (.bytes [1, 2, 3]) leaf0) id fun s x => !x.typed && s.storeRefusal 0 (.bytes [1, 2, 3]) 64 x = none,
      at_ (st 1 (.scalar .i32 9) leaf0) id fun s x => !x.typed && s.storeRefusal 1 (.scalar .i32 9) 64 x = none,
      at_ (st 0 (.course lev1.bits) leafT) id fun s x => x.typed && s.storeRefusal 0 (.course lev1.bits) 64 x = none,
      at_ (st 2 (.scalar .n64 9) leaf0) id fun s x => s.storeRefusal 2 (.scalar .n64 9) 64 x = none,
      at_ (st 0 (.pair 9 true) leafT) id fun s x => s.storeRefusal 0 (.pair 9 true) 64 x = some (4, 3),
      at_ (atom leaf0) outE fun s x => s.atomicRefusal (atom leaf0) .i64 false x = none && (List.range 8).all (fun i => !(s.poisonedAt (atom leaf0) (64 + i))) &&
        (s.ctx 0).stream = 0 && s.resident 0 && (s.ctx 0).opOf? 64 = some 0 && (s.ctx 0).edges = [edge1 1 (.sink 3) []],
      at_ (atom leafT) id fun s x => s.atomicRefusal (atom leafT) .i64 false x = some (4, 8),
      at_ kv crs fun s x => x.typed && kvCode (s.courseAt x.key) = 99 && !(s.deferredIn x.key 64),
      at_ (req1 0 64 .release) id fun s x => !x.typed && !(s.deferredIn x.key 8), at_ (req1 0 64 .release leafT) id fun _ x => x.typed,
      at_ (st 0 (.bytes [1]) leaf0) defer fun s x => s.storeRefusal 0 (.bytes [1]) 64 x ≠ none,
      waits w0 ptable fun s => s.firstMiss w0 = some (64, none) && (got (walk s w0.asid 64)).isSome,
      waits w0 id fun s => s.firstMiss w0 = some (64, none) && got (walk s w0.asid 64) = none,
      waits (req1 0 64 (.load 8 false) 0xE03) id fun s => s.firstMiss (req1 0 64 (.load 8 false) 0xE03) = some (64, some 2),
      (reqS { w0 with st := .moved }).req? 7 = some { w0 with st := .moved }, 17 < 18 && (State.reset.links.ports[17]?).isSome] = true := by
  decide +kernel

theorem witness_PagesAndOutsideAccess :
    let m (n : Nat) : Migration := ⟨3, 0, 0, 4096, 0x1F03, 0x2F13, 64, 0, n⟩
    let mig (leaf n : Nat) : State := sub (fun y => { y with k := 3 }) { State.reset with
      mem := Memory.store [] 64 (natBytes leaf 8), net := { State.reset.net with migs := [m n], reqs := [req1 0 64 (.load 8 false)] } }
    let tl (done : Bool) (after drain : List Nat) (rs : List Req) : State := sub (fun y => { y with k := 3 }) { State.reset with
      net := { State.reset.net with tlbis := [⟨3, 0, 0, 1, 0, false, after, done, drain⟩], reqs := rs } }
    let q := req1 0 64 (.load 8 false)
    let outer (g : Subject → Subject) (n : Net → Net) : State := sub g { State.reset with net := n State.reset.net }
    let peer (op : PeerOp) (leaf : Option Word) : State := sub (fun y => { y with peer := ⟨5, 64, op⟩ })
      ((leaf.map fun l => { mapped l State.reset with net := { State.reset.net with cache := [⟨⟨4, 0⟩, 0xFFFF, page1 l⟩] } }).getD State.reset)
    let spots (op : PeerOp) (s : State) (need : Need) : Option (List Spot) := got (s.portSpots (peerReq ⟨5, 64, op⟩) (peerReq ⟨5, 64, op⟩).kind.size need)
    let kinds (leaf : Word) : State := mapped leaf State.reset
    allOf [(m 63).copied < (m 63).size / 64 && (mig 0x1F03 63).net.migs = [m 63], (m 64).size / 64 ≤ (m 64).copied && (mig 0x1F03 64).wordAt 64 = (m 64).old,
      (mig 0x1F07 64).wordAt 64 ≠ (m 64).old, (mig 0x1F03 64).net.reqs.all fun z => z.st = .waiting && z.asid = 0 && z.trans.all fun y => y.va < 4096 && 0 < y.va + y.size,
      (frameKey (m 0).old).isSome && (frameKey (m 0).new).isSome && (frameKey (m 0).old).getD 0 + 4096 ≤ (frameKey (m 0).new).getD 0 && Memory.wf (mig 0x1F03 3).mem,
      (mig 0x1F03 3).copiedHdm 0x1000 8, !((mig 0x1F03 3).copiedHdm (0x1000 + 192) 8),
      (kinds 0xF0F).meetsPage (·.cmp) 64 8, !((kinds leaf0).meetsPage (·.cmp) 64 8), (kinds leafT).meetsPage (·.typed) 64 64, !((kinds leaf0).meetsPage (·.typed) 64 64),
      !((peer (.bytes [1, 2]) (some leaf0)).copiedAt 0 64 2),
      (tl false [] [] []).over [], !((tl false [7] [] [q]).over [7]), (tl true [] [7] [{ q with st := .held 3 1 }]).net.reqs.all fun q => q.st.stops,
      (tl true [] [7] [q]).net.reqs.any fun q => !q.st.stops,
      7 < 8 && (State.reset.fab.hbm[7]?).isSome, (List.range 8).all fun i => !(hdmVoid (64 + i)),
      (outer id fun n => { n with poison := [64] }).net.poison.contains ((64 + 3) / 8 * 8), (outer id fun n => n).meetsPage (·.cmp) 64 1 = false,
      (outer id fun n => { n with structs := [(64, .deferred [])] }).deferredIn 64 8, (outer id fun n => n).meetsPage (·.typed) 64 64 = false, spots (.load 8) (peer (.load 8) none) .load = none,
      (spots (.load 8) (peer (.load 8) (some leaf0)) .load).any fun l => l.length = 8 && l.all fun y => y.inside && !y.typed,
      (spots (.bytes [1, 2]) (peer (.bytes [1, 2]) (some leaf0)) .store).any fun l => l.length = 2 && l.all (fun y => y.inside && !y.typed) &&
        (l.head?.all fun x => (peer (.bytes [1, 2]) (some leaf0)).storeRefusal 0 (.bytes [1, 2]) 64 x = none)] = true := by
  decide +kernel

theorem witness_EnginesRun :
    let o (k : EngineKind) (after : List Nat) (started : Bool) : EngineOp :=
      ⟨4, 0, 0, 0, .element 0, 5, 7, 64, k, (wide 0 1 64).bits.setWidth 128, (wide 0 2 4096).bits.setWidth 128, 3, 5, true, after, started, 0, 0, [], [], [], 0, [], [], []⟩
    let s (x : EngineOp) (rs : List Req) (g : State → State := id) : State := sub (fun y => { y with id := 4 })
      (inCtx (fun c => { c with status := .resident }) { g State.reset with net := { (g State.reset).net with engines := [x], reqs := rs } })
    let q := req1 0 64 (.load 8 false)
    let con (after : List Nat) (rs : List Req) : State := sub (fun y => { y with id := 9 })
      (inCtx (fun c => { c with status := .resident }) { State.reset with net := { State.reset.net with contribs := [⟨9, 0, 0, 0, 5, 1, 8, after, none⟩], reqs := rs } })
    let cp := o (.cpy 100) [] false
    let ch : Chunk := ⟨9, 0, 2, 4, 0, 1, 1, 0, false, [], [1, 2, 3, 4]⟩
    let col := o (.coll 0 2 0 4 0 9 0 1 0) [] true
    let arr (h : Chunk) (es : List EngineOp) : State := inCtx (fun c => { c with status := .resident }) <| sub (fun y => { y with k := 2, chunk := h })
      { State.reset with net := { State.reset.net with engines := es } }
    allOf [(s cp [] (mapped leaf0)).engine? 4 = some cp && !((s cp [] (mapped leaf0)).engineHeld 4) && (s cp []).over [] && !cp.started,
      cp.pageFault (s cp [] (mapped leaf0)) (cp.ranges (s cp [] (mapped leaf0)) default) = none,
      cp.pageFault (s cp []) (cp.ranges (s cp []) default) ≠ none, cp.cnt && cp.coll?.isNone, cp.skip = [],
      !((s (o (.cpy 100) [7] false) [q]).over [7]),
      (s (o (.cpy 100) [] true) []).net.reqs = [] && (o (.cpy 100) [] true).collDone 0 && (s cp []).resident 0 && ((s cp []).ctx 0).stream = 0 &&
        !((s (o (.cpy 100) [] true) []).engineHeld 4),
      (con [] []).net.contribs.length = 1 && (con [] []).over [] && (con [] []).resident 0, !((con [7] [q]).over [7]),
      (arr ch []).collOf 9 = none, ((arr { ch with n := 3 } [col]).collOf 9).any fun x => x.2.n ≠ 3 && x.2.op = 0,
      ((arr ch [col]).collOf 9).any fun x => ch.op = x.2.op && ch.n = x.2.n && ch.count = x.2.count && ch.wire = x.2.wire] = true := by
  decide +kernel

/-- A chunk of one header and one data flit that waits at port 2, and another whose flits are not there. -/
theorem witness_EnginesRun_chunk :
    let h : Chunk := ⟨9, 0, 2, 4, 0, 1, 1, 0, false, [], [1, 2, 3, 4]⟩
    let rx : List (Nat × Flit) := (chunkFlits h 0).map fun f => (2, f)
    ((rx.filter fun x => decide (x.1 = 2 ∧ x.2.src = BitVec.ofNat 22 h.srcDev)).take (chunkPayloads h).length).map (fun x => (x.2.kind, x.2.payload)) = chunkPayloads h ∧
    (chunkPayloads h).length = 2 ∧ (([] : List (Nat × Flit)).take 2).map (fun x => (x.2.kind, x.2.payload)) ≠ chunkPayloads h :=
  ⟨rfl, rfl, fun h => by cases h⟩

/-! ### For the statements about matrix tasks, hardware errors, the host and the links -/

/-- A binding of one F16 row of one column in the scratchpad of bay 0. -/
def bind1 : Binding := ⟨0, 0, (wide 1 1 0).bits.setWidth 128, 64, 1, 1, .f16, false, 1⟩
/-- Task 3 of context 0 in bay 0, of a kind, in a state. -/
def task1 (k : TaskKind) (st : TaskState) (seq : Nat := 3) : Task := ⟨seq, 0, k, .element 0, 64, 5, 7, 0, st, 0, false, []⟩
/-- A row of one element under node 3 of bay 0. -/
def rowTask (sp : Nat) : TaskKind := .task ((wide sp 1 0).bits.setWidth 128) true { readDesc desc1.bits with node := 3 } bind1
/-- Context 0 with node 3, a scratchpad and tasks; hall 0 or task 3 the subject. -/
def tasked (k : Nat) (l : List Task) (ws : List Window := []) : State :=
  sub (fun y => { y with k := k }) (inCtx (fun x => { x with status := .resident, place := [.element 0], part := 0x01000000, tasks := l, windows := ws }) (withNode State.reset))

theorem witness_MatrixTasksRun :
    let q : Task := task1 (rowTask 1) .queued
    let load (sp : Nat) : TaskKind := .load 2 { bind1 with cap := (wide sp 1 0).bits.setWidth 128 }
    let picks (s : State) (t : Task) : Bool := s.sched.subject.k = 0 && s.pickTask 0 = some (0, t)
    let busy : List Task := (List.range 7).map fun i => task1 (rowTask 1) (.running i false 0) (10 + i)
    let runs (s : State) (t : Task) : Bool := s.sched.subject.k = 3 && s.task? 3 = some (0, t) && t.seq = 3
    let r (k : TaskKind) : Task := task1 k (.running 0 false 0)
    let quiet (s : State) (t : Task) : Bool := !(s.taskHeld 3) && s.over t.after
    let held (s : State) : State := { s with net := { s.net with reqs := [req1 1 0 (.matrixStop 3)] } }
    let bound (s : State) : State := { s with fab := { s.fab with sets := [(0, { MacroSet.empty with binding := some bind1, cells := [⟨[0], [], 0, false⟩] })] } }
    let rowS := bound (tasked 3 [r (rowTask 1)])
    let x : FNum := .fin false 3 0
    let wide16 : MacroSet := { MacroSet.empty with binding := some { bind1 with b16 := true }, cells := [⟨[0xFF], [5], 0, false⟩] }
    allOf [(tasked 0 []).pickTask 0 = none, picks (tasked 0 [q]) q && (tasked 0 [q]).eligible 0 0 q,
      picks (tasked 0 (q :: busy)) q && (tasked 0 (q :: busy)).setFor 0 0 q = none,
      picks (tasked 0 [task1 (load 1) .queued]) (task1 (load 1) .queued) && (tasked 0 [task1 (load 1) .queued]).setFor 0 0 (task1 (load 1) .queued) = some 0,
      picks (tasked 0 [q]) q && (tasked 0 [q]).setFor 0 0 q = some 0 && ((tasked 0 [q]).ctx 0).windows = [],
      picks (tasked 0 [q] [⟨0, 0, 9999, 32, true⟩]) q && ((tasked 0 [q] [⟨0, 0, 9999, 32, true⟩]).ctx 0).declaredIn 0 + ((tasked 0 [q]).ctx 0).macrosOf q = 32,
      (tasked 3 [task1 (rowTask 1) (.deferred 2 500)]).task? 3 = some (0, task1 (rowTask 1) (.deferred 2 500)), 0 + 250 * 6 ≤ 1500,
      runs (held (tasked 3 [r (rowTask 1)])) (r (rowTask 1)) && (held (tasked 3 [r (rowTask 1)])).taskHeld 3,
      runs (tasked 3 [r (load 1)]) (r (load 1)) && quiet (tasked 3 [r (load 1)]) (r (load 1)) &&
        (got ((tasked 3 [r (load 1)]).cellsFor 0 0 (r (load 1)) bind1 default)).isSome,
      runs (tasked 3 [r (load 0)]) (r (load 0)) && quiet (tasked 3 [r (load 0)]) (r (load 0)) &&
        (got ((tasked 3 [r (load 0)]).cellsFor 0 0 (r (load 0)) { bind1 with cap := (wide 0 1 0).bits.setWidth 128 } default)).isNone,
      runs rowS (r (rowTask 1)) && quiet rowS (r (rowTask 1)) && !((rowS.ctx 0).pairTask (r (rowTask 1))) && (rowS.macroSet 0).binding = some bind1 &&
        ((got (readRows (fun i => (rowS.loadSets [0] bind1 (rowS.macroSet 0).cells).rowAt 0 0 (r (rowTask 1)) ((wide 1 1 0).bits.setWidth 128) .f16 64 1 i 0
          default) [0])).any fun rows => (((rowS.loadSets [0] bind1 (rowS.macroSet 0).cells).applyRows 0 (r (rowTask 1)) { readDesc desc1.bits with node := 3 }
            bind1 .f16 ([0].zip rows) ((rowS.loadSets [0] bind1 (rowS.macroSet 0).cells).macroSet 0)).task? 3).isSome),
      [FNum.zero].all FNum.isZero, !([FNum.inf true].all FNum.isZero) && [FNum.inf true].any FNum.wild,
      !([x].all FNum.isZero) && !([x].any FNum.wild) && topExp [x] = some 1,
      (wide16.cells[0]?).any fun y => !y.wild && y.low = [5], wide16.binding.any (·.b16), (rowS.macroSet 0).binding.any fun y => !y.b16,
      (rowS.ctx 0).there && (rowS.ctx 0).tasks.any fun k => k.running && k.set? = some 0 && ((rowS.ctx 0).setsOf k 0).contains 0,
      (tasked 0 [q]).ctxs.all fun y => y.tasks.all fun k => !k.running,
      (inCtx (fun y => { y with nodes := y.nodes.map fun n => { n with got := 2, releases := [(2, 5, 0, 64, 5, 7)] } }) (withNode State.reset)).ctx 0 |>.nodeStill 0 3,
      (State.reset.macroSet 447).spares.length < 2, 2 ≤ [(0, 32), (1, 33)].length] = true := by
  decide +kernel

theorem witness_HardwareErrors :
    let a := act1 (.element 0) .add rec0 (sc 1) (sc 2) (sc 0)
    let s := sub (fun y => { y with u := .element 0 }) (State.reset.putAct (.element 0) a)
    let there : State := inCtx (fun x => { x with status := .resident, place := [.element 0], replay := true }) State.reset
    let d (l : List (Nat × Nat)) : State := { State.reset with fab := { State.reset.fab with dies := [⟨[0, 1, 2, 3], false, none, l, []⟩] } }
    let low : State := { State.reset with fab := { State.reset.fab with halls := [{ Hall.reset with mv := 700 }] } }
    let out : State := { State.reset with
      net := { State.reset.net with reqs := [{ req1 3 (5 * 2 ^ 50) (.load 8 false) with trans := [] }] }
      links := { State.reset.links with ports := [⟨0, 0, false, 0, 0, 0, [], true, false⟩], locals := [0, 0, 0, 0, 0, 0] } }
    allOf [s.sched.subject.u = .element 0 && s.act (.element 0) = some a && (s.ctx a.ctx).status ≠ .loading && a.ctx < s.ctxs.length,
      State.reset.act (.element 0) = none, (there.ctx 0).there && (there.ctx 0).inBay 0 && (there.ctx 0).onUnit (.element 0), (there.putAct (.element 0) a).act (.element 0) = some a && a.ctx = 0,
      ((d []).fab.dies[dieOfBay 111]?).any fun y => y.elems.all fun z => z.1 / 8 ≠ 111, ((d [(888, 8)]).fab.dies[dieOfBay 111]?).any fun y => y.elems.any fun z => z.1 / 8 = 111,
      (there.ctx 0).replay && there.unitsOn 0 = [] && !(there.engineRuns 0) && (there.ctx 0).bays.all fun b => !(there.fab.failed.contains b),
      !(State.reset.ctx 0).replay, (low.fab.halls[0]?).any fun x => x.uv && x.mv.toNat < 800,
      (out.links.ports[0]?).isSome && out.net.reqs.all fun q => q.st = .waiting && out.outside q && (match out.outMsg q with | .space3 e _ _ => out.route e = some 0 | _ => false),
      (State.reset.macroSet 447).spares.length < 2, (State.reset.fab.halls[63]?).isSome && (State.reset.fab.dies[dieOfHall 63]?).isSome] = true := by
  decide +kernel

theorem witness_HostAndLinks :
    let post (hi lo k : Nat) (len rest : Nat) (st : Residence) (n : Nat) : State := sub (fun y => { y with off := 0, len := len, data := BitVec.ofNat 256 (lo + 2 ^ 48 * hi + 2 ^ 96 * k + 2 ^ 100 * rest) }) (sinkFed st { State.reset with
      host := { State.reset.host with opened := true, queues := [List.replicate n (3, ⟨0, 0⟩), [], [], []] } })
    let whole (s : State) : Bool := s.host.opened && s.sched.subject.len = 16 && s.sched.subject.off % 16 = 0
    let plain (s : State) : Bool := whole s && slice s.sched.subject.data 100 28 = 0
    let named (s : State) : Bool := plain s && (s.ctx 0).status = .resident && (s.ctx 0).edges.any fun e => e.cons = .sink (slice s.sched.subject.data 96 4).toNat
    let lo (s : State) : Int := (slice s.sched.subject.data 0 48).toInt
    let hi (s : State) : Int := (slice s.sched.subject.data 48 48).toInt
    let mail (r : BitVec 192) (m : MailboxRead) : State := sub (fun y => { y with mail := m }) { State.reset with host := { State.reset.host with stat := 0x100, latched := r } }
    let bad (r : BitVec 192) : Bool := (slice r 64 30).toNat = 0 || (slice r 0 56).toNat % 64 ≠ 0 || 2 ^ 56 < (slice r 0 56).toNat + (slice r 64 30).toNat
    let good : BitVec 192 := BitVec.ofNat 192 (64 + 2 ^ 64 * 64)
    let port (f : Flit) : State := sub (fun y => { y with k := 0, flit := f }) { State.reset with
      links := { State.reset.links with ports := [⟨0, 0, false, 0, 9, 5, [default], true, false⟩], locals := [99, 0], id := 0 } }
    let fl (crc : Bool) (seq : BitVec 8) (vc : BitVec 8) (dst : BitVec 22) (p : State → Bool) : Bool :=
      let s := port ⟨crc, vc, dst, 0, 0, seq, 0⟩
      ((s.acked 0 0 none).links.ports[0]?).any (fun x => x.seq = 9) && p s
    let ch : Chunk := ⟨9, 0, 2, 4, 0, 1, 1, 0, false, [], [1, 2, 3, 4]⟩
    allOf [(post 1 0 3 8 0 .resident 0).host.opened && !(whole (post 1 0 3 8 0 .resident 0)), whole (post 1 0 3 16 1 .resident 0) && !(plain (post 1 0 3 16 1 .resident 0)),
      plain (post 1 0 3 16 0 .absent 0) && ((post 1 0 3 16 0 .absent 0).ctx 0).status ≠ .resident,
      plain (post 1 0 4 16 0 .resident 0) && !(named (post 1 0 4 16 0 .resident 0)),
      named (post 0 1 3 16 0 .resident 0) && hi (post 0 1 3 16 0 .resident 0) < lo (post 0 1 3 16 0 .resident 0),
      named (post 4096 0 3 16 0 .resident 0) && 4096 < hi (post 4096 0 3 16 0 .resident 0) - lo (post 4096 0 3 16 0 .resident 0) + 1,
      named (post 4095 0 3 16 0 .resident 63) && hi (post 4095 0 3 16 0 .resident 63) - lo (post 4095 0 3 16 0 .resident 63) + 1 ≤ 4096 &&
        ((post 4095 0 3 16 0 .resident 63).host.queues.getD 0 []).length = 63,
      64 ≤ ((post 4095 0 3 16 0 .resident 64).host.queues.getD 0 []).length, 3 < State.reset.host.refs.length && 3 < State.reset.host.why.length,
      bit State.reset.host.stat 8 = false && bit State.reset.host.haStat 1 = false, bit (1 : Word) 0 && slice (1 : Word) 1 63 = 0#63, slice (3 : Word) 1 63 ≠ 0#63,
      bit (mail 0 default).host.stat 8 && bad 0, bit (mail good default).host.stat 8 && !(bad good), ((mail 0 default).carryOut 0 default).2 = some 10, (port default).links.ports.any (fun x => x.unacked ≠ []),
      fl false 9 0 0 fun _ => true, fl true 8 0 0 fun _ => true, fl true 9 4 0 fun _ => true, fl true 9 1 0 fun s => s.links.id.toNat = 0,
      fl true 9 2 0 fun s => s.heldBytes 0 < 65536, fl true 9 2 0 fun s => 65536 ≤ ({ s with net := { s.net with heldChunk := List.replicate 512 (0, ch) } } : State).heldBytes 0,
      fl true 9 3 0 fun s => s.links.id.toNat = 0, fl true 9 3 1 fun s => s.route 1 = some 0] = true := by
  decide +kernel

/-! ### For the statements about contexts, demand, power and scheduling -/

/-- Numbers as bytes, little-endian, with their byte counts. -/
def fields (l : List (Nat × Nat)) : List Byte := l.flatMap fun x => natBytes x.1 x.2
/-- Bytes whose 32-bit words sum to zero once the word at an offset, zero before, is set (06 R110). -/
def checked (off : Nat) (l : List Byte) : List Byte :=
  let sum := sumNat ((List.range ((l.length + 3) / 4)).map fun i => fieldAt l (4 * i) 4)
  l.take off ++ natBytes ((2 ^ 32 - sum % 2 ^ 32) % 2 ^ 32) 4 ++ l.drop (off + 4)
/-- A block of class any with one EXIT node and one exit, no port (06 R107, R109, R115). -/
def block1 : List Byte := checked 0 (natBytes (0xB5#8 ++ 0#7 ++ 0#3 ++ 0#5 ++ 0#5 ++ 0#16 ++ 3#4 ++ 0#8 ++ 0#40).toNat 12 ++
  natBytes (Op.exitOp.encode { rec0 with a := .stamp, b := .lit }).toNat 12 ++ natBytes (0xE0#8 ++ 0#88).toNat 12)
/-- An image of one operator with that block, at 0x8000, launched at level 5 (06 R404). -/
def image1 : List Byte := checked 32 (fields ([(0x3158424C, 4), (1, 2), (256, 2), (448, 8), (0x8000, 8), (0x5_0000_0001, 8), (0, 32),
  (256, 8), (64, 4), (1, 4), (320, 8), (16, 4), (1, 4), (384, 8), (36, 4), (1, 4), (0, 144)] ++
  [(0, 2), (1, 2), (0, 2), (0xFFFF, 2), (0xFF, 1), (0, 1), (1, 2), (0, 52)] ++ [(384, 4), (0, 60)]) ++ block1 ++ List.replicate 28 0)

theorem witness_HostAndLinks_image :
    let m : MailboxRead := ⟨false, [], image1⟩
    let r : BitVec 192 := BitVec.ofNat 192 (64 + 2 ^ 64 * image1.length)
    let h := readHead (image1.take image1.length)
    h.good = true ∧ ((mailCopy h.base image1).pieces.any ((State.reset.mapMail m.maps).pieceBad (lwAsid h.launch) false)) = true ∧
    (State.reset.carryOut r m).2 = none := by
  decide +kernel

theorem witness_ContextsComeAndGo :
    let img := req1 0 64 (.image ((wide 0 1 64).bits.setWidth 128) false 0)
    let a : Act := { act1 (.element 0) .ctxlLoad rec0 (wide 0 1 64) (sc 0) (sc 0) with recs := [⟨.skipped, none, none, none, none, []⟩, ⟨.issued 7, none, none, none, none, []⟩] }
    let s : State := sub (fun y => { y with u := .element 0 }) (reqS img (mapped leaf0 (State.reset.putAct (.element 0) a)))
    let img2 := req1 0 0x8000 (.image ((wide 0 1 0x8000).bits.setWidth 128) false 0)
    let t : State := sub (fun y => { y with u := .element 0 }) (reqS img2 (mapped leaf0 (State.reset.putAct (.element 0) a)))
    let s2 : State := { t with mem := Memory.store t.mem 0x8000 image1 }
    let z (w : Bool) : SaveArea := ⟨(wide 0 10 0).bits.setWidth 128, 0, 0, w⟩
    let ev (w : Bool) : State := sub (fun y => { y with c := 0 }) (inCtx (fun x => { x with status := .evicting, area := some (z w), place := [.element 0] }) (mapped leaf0 State.reset))
    let saved : Req := req1 0 64 (.image ((wide 0 1 64).bits.setWidth 128) true 0)
    let back : State := mapped leaf0 { State.reset with net := { State.reset.net with saves := [⟨64, 2, Ctx.reset⟩] } }
    let r : Residency := ⟨false, (wide 0 1 0x8000).bits.setWidth 128, 0x5_0000_0000, 0⟩
    let full (c : Ctx) : State := sub (fun y => { y with resid := r }) { State.reset with ctxs := [c, c, c, c] }
    let res (prio : BitVec 4) (base : Nat) : Ctx := { Ctx.reset with status := .resident, prio := prio, image := { Image.blank with base := base } }
    allOf [s.sched.subject.u = .element 0 && s.act (.element 0) = some a && s.net.reqs = [img] && s.mayPerform img && (a.slot 1).st = .issued 7 && a.info 1 = some (.ctxlLoad, rec0) &&
        (match s.loadImage img false ((wide 0 1 64).bits.setWidth 128) 0 none s.sched.subject.ext with | .refused _ _ => true | _ => false),
      s2.net.reqs = [img2] && s2.mayPerform img2 &&
        (match s2.loadImage img2 false ((wide 0 1 0x8000).bits.setWidth 128) 0 none s2.sched.subject.ext with | .loaded _ _ => true | _ => false),
      ((ev false).ctx 0).status = .evicting && ((ev false).ctx 0).area = some (z false) && (ev false).unitsOn 0 = [] && !((ev false).copyRuns 0) &&
        ((ev false).areaPages (z false) ((ev false).ctx 0).saveSize).isSome,
      ((ev true).ctx 0).area = some (z true) && (((ev true).areaPages (z true) 1).map List.length) = some 1 && (ev true).host.resid = [],
      (full (res 3 0x8000)).residentFor r = some 0, (full (res 3 0)).residentFor r = none && (full (res 3 0)).host.reserve = none &&
        [0, 1, 2, 3].all (fun c => ((full (res 3 0)).ctx c).status ≠ .absent) && (lwPrio r.launch).toNat = 5, ((full (res 3 0)).ctx 0).there,
      (match back.loadSave saved false ((wide 0 1 64).bits.setWidth 128) none default with | .loaded c _ => c = 2 | _ => false), ((full (res 3 0)).ctx 0).status ≠ .evicting] = true := by
  decide +kernel

/-- Context 0 resident, its operator 0 of this description and state, with a source block at 0x80 as its entry. -/
def served (d : OpDesc) (st : OpState) (g : Ctx → Ctx := id) : State :=
  sub (fun y => { y with c := 0, k := 0 }) (inCtx (fun x => g { x with
    status := .resident, part := 1, place := [.element 0], ops := [st]
    image := { x.image with ops := [d], blocks := [⟨0x80, 0, 0, 0, ⟨0x80, 1, 1, 1, 0, [], [], []⟩⟩] } }) State.reset)
/-- An operator's description: unbounded or not, its rtf block, its origin. -/
def desc0 (state : Nat) (rtf : Option Nat) (origin : Option Int) : OpDesc := ⟨0, 1, rtf, true, false, state, origin, none, none, 1, 0, 0, 1, 8⟩
/-- An operator's state with issue counter, rtf queue, queue, whether its state is valid, at which time, and landings. -/
def ops0 (issue rtf q : List Ival) (valid : Bool) (t : Int) (lands : List Int) : OpState := ⟨issue, rtf, q, none, [], [], none, valid, t, lands, 0, [], [], false, 0, 0, 0⟩

theorem witness_DemandsAndClones :
    let snk (w : List Ival) (pend : List Ival) (q : List (Nat × Ival)) : State := sub (fun y => { y with c := 0, k := 3 }) (inCtx (fun x => { x with
      status := .resident, edges := [edge1 0 (.sink 3) []], sinks := [⟨3, pend, [], [], 0, w, []⟩] }) { State.reset with
        host := { State.reset.host with queues := [q, [], [], []] } })
    let sk (s : State) : Sink := ((s.ctx 0).sinks.find? fun y => y.k = 3).getD default
    let red (d : OpDesc) : State := sub (fun y => { y with edge := .frame 0 }) (served d (ops0 [] [] [] false 0 []) fun x =>
      { x with edges := [{ edge1 0 (.sink 3) [] with dreg := ⟨[], none, 1, [⟨2, 5⟩]⟩ }, { edge1 1 (.op 0 0) [] with dreg := ⟨[], none, 1, []⟩ }] })
    let v : Ival := ⟨8, 9⟩
    let un (origin : Option Int) (valid : Bool) (t : Int) (lands : List Int) : Bool :=
      let s := served (desc0 2 none origin) (ops0 [] [] [v] valid t lands)
      (s.ctx 0).ops.all fun st => st.serving = none && nextServed st.stime st.queue = some v && decide (st.valid = valid ∧ st.stime = t ∧ st.landings = lands)
    let src (live : List LiveTag) (tags : BitVec 16) : State := served (desc0 1 none none) (ops0 [⟨4, 6⟩] [] [] false 0 []) fun x => { x with live := live, tagSet := tags }
    let clone (busy fullP quiet : Nat) (cl : List Copy) (want : Bool) : State := served (desc0 0 none none) { ops0 [] [] [] false 0 [] with busy := busy, quiet := quiet, clones := cl, want := want } fun x =>
      { x with
        ops := x.ops ++ [{ ops0 [] [] [] false 0 [] with full := fullP }]
        image := { x.image with ops := x.image.ops ++ [desc0 0 none none] }
        edges := [⟨1, 0, .op 0 0, 0, 1, [], false, ⟨[], none, 1, []⟩, []⟩, edge1 0 (.sink 3) []] }
    let copy (n : Nat) (leaving : Bool) : Copy := ⟨.element n, [], leaving⟩
    let grow := clone 983040 (2 ^ 18) 0 [] true
    let calm := clone 0 0 3 [copy 1 false] false
    let seven := clone 0 0 0 ((List.range 7).map fun i => copy (i + 100) false) true
    let goes := clone 0 0 4 [copy 1 true] false
    let late (s : State) : State := { s with clock := ⟨2 ^ 20, 0, 0⟩ }
    let split : State := sub (fun y => { y with edge := .frame 0 }) (served (desc0 1 none none) { ops0 [] [] [] false 0 [] with clones := [copy 1 false] } fun x =>
      { x with edges := [{ edge1 0 (.sink 3) [] with dreg := ⟨[], none, 1, [⟨3, 3⟩]⟩ }, { edge1 1 (.op 0 0) [] with dreg := ⟨[], none, 1, []⟩ }] })
    let lim : State := sub (fun y => { y with c := 0 }) (inCtx (fun x => { x with storeLim := 8 }) { State.reset with clock := ⟨4096, 0, 0⟩ })
    allOf [(snk [⟨0, 4095⟩] [⟨0, 0⟩] []).host.queues.getD 0 [] = [] && (sk (snk [⟨0, 4095⟩] [⟨0, 0⟩] [])).base = some 0,
      (sk (snk [⟨0, 4096⟩] [⟨0, 0⟩] [])).base = some 0, (snk [] [] [(3, v)]).resident 0,
      ((red (desc0 2 none none)).ctx 0).producer? (.frame 0) = some 0 && (((red (desc0 2 none none)).ctx 0).dreg? (.frame 0)).any fun r => r.arrivals = [⟨2, 5⟩],
      ((red (desc0 1 none none)).ctx 0).inputsOf 0 ≠ [] && ((red (desc0 1 none none)).ctx 0).image.ops.all fun d => !d.unbounded && d.rtfBlock = none &&
        (d.rewrite ⟨2, 5⟩).lo ≤ (d.rewrite ⟨2, 5⟩).hi,
      (served (desc0 1 (some 0) none) (ops0 [] [v] [] false 0 [])).ctx 0 |>.ops.all fun st => st.rtfQueue = [v],
      un (some 0) true 8 [], un none false 0 [0, 8, 16], un (some 8) false 0 [9], un (some 9) false 0 [9], un none false 0 [9],
      nextIssue [⟨4, 6⟩] ((src [] 9).issued 0 0) = some 4 && !(((src [] 9).ctx 0).issuing 0) && ((src [] 9).ctx 0).isSource 0 && ((src [] 9).ctx 0).live.length < ((src [] 9).ctx 0).tagEff,
      ((src [⟨1, true, 0, false⟩] 1).ctx 0).tagEff ≤ ((src [⟨1, true, 0, false⟩] 1).ctx 0).live.length,
      (lim.ctx 0).storeLim ≠ 0xFFFF && (lim.ctx 0).storeAt + 4096 ≤ lim.clock.steps && lim.allFrames 0 = [], State.reset.clock.steps < (State.reset.ctx 0).storeAt + 4096,
      (grow.ctx 0).bottleneck 0 && (grow.ctx 0).frameOnly 0, (late grow).clock.steps = 2 ^ 20 && ((late grow).ctx 0).windowAt = 0,
      ((late calm).ctx 0).ops.any fun st => st.quiet = 3 && st.clones = [copy 1 false], !((calm.ctx 0).bottleneck 0),
      grow.clock.steps < (grow.ctx 0).windowAt + 2 ^ 20 && grow.cloneSites 0 0 ≠ [] && !(grow.opRuns 0 0) && (grow.ctx 0).ops.any fun st => st.want && st.clones = [],
      (seven.ctx 0).ops.any fun st => st.want && st.clones.length = 7 && st.clones.all fun y => !y.leaving, (calm.ctx 0).ops.any fun st => !st.want,
      (goes.ctx 0).ops.any fun st => !st.want && st.clones.any fun y => y.leaving && y.regs = [] && (goes.allFrames 0).all fun w => w.unit ≠ y.unit,
      (split.ctx 0).clonesOf 0 ≠ [] && (split.ctx 0).producer? (.frame 0) = some 0 && (((split.ctx 0).dreg? (.frame 0)).map fun r => ((({ r with arrivals := [] } : DReg).reduce ⟨3, 3⟩).2)) = some [⟨3, 3⟩] &&
        runsOf ⟨3, 3⟩ ((split.ctx 0).granule 0) = [⟨3, 3⟩] && (let q := (split.ctx 0).copyReg 0 ((split.ctx 0).copyFor 0 1 3) true 0; q.pend = [] && q.done = none),
      runsOf ⟨2, 5⟩ 4 = [⟨2, 3⟩, ⟨4, 5⟩]] = true := by
  decide +kernel

theorem witness_PowerAndHeat :
    let temps (n : Nat) : State := sub (fun y => { y with temps := (List.replicate 63 0x0100) ++ [BitVec.ofNat 16 n] }) { State.reset with clock := ⟨0, 10000, 0⟩ }
    let hall (x : Hall) : Bool := x.uv
    let p (f : Power → Power) (ns : Nat) : State := { State.reset with power := f State.reset.power, clock := ⟨0, ns, 0⟩ }
    let r := State.reset
    let lim : State := sub (fun y => { y with c := 0 }) (inCtx (fun x => { x with pwrLim := 8 }) { State.reset with clock := ⟨4096, 0, 0⟩ })
    let b : State := { r with fab := { r.fab with sets := [(0, { MacroSet.empty with bursts := [(4, 0), (8, 9)] })] } }
    allOf [(temps 0).power.sampledAt + 10000 ≤ (temps 0).clock.ns, r.clock.ns < r.power.sampledAt + 10000, (p id 1000).power.tickedAt + 1000 ≤ 1000, r.clock.ns < r.power.tickedAt + 1000,
      !Hall.reset.erred, ({ Hall.reset with erred := true } : Hall).uv, (r.ctx 0).pwrAt = none, r.fab.halls.length = 64 && (temps 0x07CF).sched.subject.temps.length = 64 && (temps 0x07CF).sched.subject.temps.all fun y => y.toNat < 0x07D0,
      (temps 0x07D0).sched.subject.temps.any fun y => 0x07D0 ≤ y.toNat, !(hall { Hall.reset with uv := false }),
      hall Hall.reset && 2 * ({ Hall.reset with mv := 799 } : Hall).cetgt.toNat < 9 && ({ Hall.reset with mv := 799 } : Hall).mv.toNat < 800,
      hall Hall.reset && 3 < Hall.reset.cetgt.toNat && Hall.reset.floor.toNat + 5 ≤ Hall.reset.mv.toNat, Hall.reset.cetgt.toNat ≤ 4 && 4 ≤ 2 * Hall.reset.cetgt.toNat,
      (p (fun y => { y with aboveAt := some 0 }) 40000).power.aboveAt = some 0 && !(p id 40000).power.expired, r.power.aboveAt = none,
      (p id 15999).clock.ns < (p id 15999).power.kpAt + 16000, (p (fun y => { y with pressure := true }) 64000).power.since + 64000 ≤ 64000,
      (p (fun y => { y with pressure := true }) 63999).clock.ns < (p id 0).power.since + 64000, (p (fun y => { y with kp := 1 }) 16000).power.kpAt + 16000 ≤ 16000,
      (lim.ctx 0).pwrLim ≠ 0xFFFF && !lim.power.pressure && (lim.ctx 0).pwrUp + 4096 ≤ lim.clock.steps, r.clock.steps < (r.ctx 0).pwrUp + 4096,
      0 < sumNat (((b.macroSet 0).bursts.filter fun y => y.2 ≤ b.clock.ns).map (·.1))] = true := by
  decide +kernel

theorem witness_SchedulingAndNewelEvents :
    let w : Waiting := { frame1 (.element 0) 7 [⟨some (sc 1), none, 0⟩] with tag := 5 }
    let ready (k : Nat) : State := sub (fun y => { y with u := .element 0 }) (inCtx (fun x => { x with
      status := .resident, prio := 3, part := 1, place := [.element 0], waiting := [w]
      image := { x.image with blocks := [⟨0x80, 0, 0, 0, ⟨0x80, 1, 1, 1, 0, [], [], []⟩⟩], ops := [⟨0, 1, none, false, false, 0, none, none, none, 1, 0, 0, 1, 0⟩] } })
      { State.reset with fab := { State.reset.fab with halls := { Hall.reset with ksw := k } :: List.replicate 63 Hall.reset } })
    let s := ready 0
    let chosen (x : Waiting) (s : State) : State := s.putCell (.element 0) { s.cell (.element 0) with chosen := some x }
    let nw (q : List (Nat × BitVec 32 × Course)) (fly : List EventTok := [⟨0, 1, 0, 9, none⟩]) (k : Nat := 0) : State := sub (fun y => { y with k := k }) (inCtx (fun x => { x with status := .resident })
      { State.reset with newels := [{ Newel.reset with evt := 0 :: (1#64 : Word) :: List.replicate 30 0, queued := q }], fab := { State.reset.fab with evFly := fly } })
    let gone : State := inCtx (fun x => { x with status := .evicting }) s
    allOf [State.reset.readyOn (.element 0) = [], s.readyOn (.element 0) = [(0, w)] && s.act (.element 0) = none && (s.cell (.element 0)).chosen = none && !(s.suppressed (.element 0)) &&
        1 ≤ (s.ctx 0).level w && (w.birth - 0).toNat < 2 ^ 31, (ready 15).suppressed (.element 0),
      ((chosen w s).cell (.element 0)).chosen = some w && ((chosen w s).cell (.element 0)).kept = [] && got ((chosen w s).fetchBlock (.element 0) 0 0x80 default) = none,
      (s.ctx 0).block? 0 |>.isSome, !(s.tagnWaits (.element 0) 0 0x80) && s.issueReason 0 0 (((s.ctx 0).block? 0).getD default) = [] && w.counts,
      (let b := { w with ptr := 0x180 }
       let y : State := chosen b { mapped leaf0 s with mem := Memory.store (mapped leaf0 s).mem 0x6000 block1 }
       (y.cell (.element 0)).chosen = some b && y.act (.element 0) = none && (got (y.fetchBlock (.element 0) 0 0x180 y.sched.subject.ext)).isSome),
      (getKey ((s.ctx 0).elem (.element 0)).stall 0 (List.replicate 6 0)).length = 6,
      gone.readyOn (.element 0) = [(0, w)] && gone.candOn (.element 0) = [] && !(gone.suppressed (.element 0)) && s.candOn (.element 0) = [(0, w)],
      (s.ctx 0).ready w && ((s.ctx 0).block? 0).any fun b => !((s.ctx 0).parkedRing b),
      (nw []).fab.evFly[0]? = some ⟨0, 1, 0, 9, none⟩ && (nw []).newels.all fun x => (x.queued.filter fun q => q.1 = 1).length < 8,
      (nw (List.replicate 8 (1, 0, 9))).newels.all fun x => 8 ≤ (x.queued.filter fun q => q.1 = 1).length,
      (let l : List EventTok := [⟨0, 1, 0, 9, some (.element 0)⟩, ⟨0, 2, 0, 9, some (.element 0)⟩]
       (nw [] l 1).fab.evFly[1]? = some ⟨0, 2, 0, 9, some (.element 0)⟩ && l.take 1 = [⟨0, 1, 0, 9, some (.element 0)⟩]),
      (nw [(1, 0, 9)]).act (.newel 0) = none && (nw [(1, 0, 9)]).newels.all (fun x => x.saved.length < 4 && x.evt[1]? = some 1 &&
        x.queued.find? (fun q => q.1 = 1) = some (1, 0, 9) && bit (x.evt.getD 0 0) 0 = false) && bit (1 : Word) 0 && (nw [(1, 0, 9)]).resident (slice (1 : Word) 2 2).toNat,
      (let h := Waiting.fresh (.handler 3 true) 64 (.newel 0) 0 0 0 [] 0
       (((nw []).putCell (.newel 0) { (nw []).cell (.newel 0) with chosen := some h }).cell (.newel 0)).chosen = some h),
      (let y : Cell := { (nw []).cell (.element 0) with ahead := some (0, { (default : Block) with ptr := 9 }) }
       y.ahead.any fun k => k.1 = 0 && k.2.ptr = 9)] = true := by
  decide +kernel

/-! ### For the clauses on ties, held loads, arrivals and windows -/

/-- Records 0 and 1 of element 0 both fault in the step, and record 1's firing comes first: its move does nothing but begin (08 R143).
Alone, or with the lower one in a later step, it faults. -/
theorem witness_StepRunsTheInstruction_tie :
    let r : Rec := { rec0 with lit := 7 }
    let a : Act := { act1 (.element 0) .trap r (sc 0) (sc 0) (sc 0) with
      blk := ⟨64, 1, 4, 16, 0xFFFF, [Op.trap.encode r, Op.trap.encode r], [0, 0], []⟩
      recs := [⟨.idle, some (sc 0), some (sc 0), none, none, []⟩, ⟨.idle, some (sc 0), some (sc 0), none, none, []⟩] }
    let m : Move := ⟨1, 1, .fire (.element 0) 1⟩
    let m2 (n : Nat) : Move := ⟨n, n, .fire (.element 0) 0⟩
    let s (l : List Move) : State := { State.reset.putAct (.element 0) a with sched := { State.reset.sched with agenda := m :: l } }
    let ended (x : Host.Outcome State Fault Refusal) : Bool := match x with
      | .next t => (t.act (.element 0)).isNone
      | _ => false
    let b (l : List Move) : State := (s l).begin m l
    allOf [tied (b [m2 0]) m.kind, !(tied (b []) m.kind), !(tied (b [m2 1]) m.kind),
      ended (runMove (b [m2 0]) m.kind), ended (runMove ((b [m2 0]).begin (m2 0) []) (m2 0).kind), ended (step (s [])),
      (s [m2 0]).act (.element 0) = some a && a.blk.nodes[1]? = some (Op.trap.encode r)] = true := by decide +kernel

/-- A load of element 0 is held, and the record that fires next; MERGE with both tokens, the one of port b first, in one step and
not; a token given to a slot that had none, that had one of port b from this step and an earlier one, and one of port a. -/
theorem witness_RecordsFire_merge :
    let a := act1 (.element 0) .add rec0 (sc 1) (sc 2) (sc 0)
    let h (s : State) : State := { s with net := { s.net with reqs := [{ req1 0 64 (.load 8 false) with st := .held 3 1 }] } }
    let m (x : Option (Bool × Nat)) : Act := { act1 (.element 0) .mergeOp rec0 (sc 1) (sc 2) (sc 9) with
      recs := [⟨.fired, none, none, none, none, []⟩, ⟨.idle, some (sc 5), some (sc 6), none, x, []⟩] }
    let slot (x : Option (Bool × Nat)) : RecSlot := ⟨.idle, none, some (sc 6), none, x, []⟩
    allOf [(h (state1 (.element 0) a)).firing = some (.element 0, 1, a) && (h (state1 (.element 0) a)).loadHeld (.element 0),
      !((state1 (.element 0) a).loadHeld (.element 0)),
      gate (state1 (.element 0) (m (some (true, 4)))) (.element 0) (m (some (true, 4))) 1 .mergeOp rec0 = .go ⟨.element 0, 1, 0, rec0, sc 5, sc 6⟩,
      gate (state1 (.element 0) (m (some (false, 4)))) (.element 0) (m (some (false, 4))) 1 .mergeOp rec0 = .go ⟨.element 0, 1, 0, rec0, sc 6, sc 6⟩,
      (slot none).first = none && ((slot (some (false, 4))).give 4 [] .a (sc 5)).first = some (true, 4) &&
        ((slot (some (false, 4))).give 5 [] .a (sc 5)).first = some (false, 4) && (slot (some (true, 4))).first = some (true, 4)] = true := by
  decide +kernel

theorem witness_Courses_stored_raw :
    let bad : Val := ⟨.course, 0x2A, false⟩
    let rw (A : Val) (p : Firing → Bool) : Bool := hit .rwr recV A (sc 0) p (g := stream0 0 1)
    let own : Ring := ringOf 0 .stream [lev1, lev1, lev1] 2 2
    let a : Act := { act1 (.element 0) .rrd rec0 (sc 0) (sc 0) (sc 0) with
      recs := [⟨.fired, none, none, none, none, []⟩, ⟨.idle, some (sc 0), some (sc 0), none, none, [(.a, 0)]⟩], rwrites := [⟨0, 0, 1, sc 8⟩] }
    allOf [rw lev1 fun f => checkTyped f.r.ty f.A.bits = 99 && (f.x.ring? 0).any fun g => f.gone 0 false + f.B.word.toNat + 1 ≤ g.give,
      rw bad fun f => checkTyped f.r.ty f.A.bits ≠ 99,
      hit .fsts recV lev1 (sc 5) fun f => checkTyped f.r.ty f.A.bits = 99, hit .fsts recV bad (sc 5) fun f => checkTyped f.r.ty f.A.bits ≠ 99,
      hit .ddone rec0 (sc (2 ^ 47 - 1)) (sc 0) fun f => timeB (timeOf f.A.word) && timeB (timeOf f.B.word),
      hit .ddone rec0 (sc 0) (sc (2 ^ 47)) fun f => !(timeB (timeOf f.B.word)),
      (a.past false 1).contains 0 && ownEntry own a false 1 1 = sc 8 && ownEntry own a false 1 0 = lev1 && !((a.past false 0).contains 0)] = true := by
  decide +kernel

theorem witness_Reductions_and_tiles :
    let ins (f : Firing) (p : List FNum → Bool) : Bool := ((oA f).map fun a => p a.nums) = some true
    let ic (l : List Nat) : Val := ⟨.course, mkCourse (fmtCode .i8) 127 0 8 l, false⟩
    let ri : Rec := { recV with ty := .i8 }
    let z := Val.zero .course
    let at_ (o : Op) (lit : Nat) (strict : Bool) (tile : List Val) (p : Except Nat Nat → Firing → Bool) : Bool :=
      hit o { recV with lit := BitVec.ofNat 32 lit } z z (g := moveRings tile) fun f =>
        ((got (f.from_ 2)).map fun l => p (haarTile .f32 1 strict l) f) = some true
    allOf [hit .vsum recV (cs [0x7F800000, 0xFF800000]) (sc 0) fun f => ins f fun l => l.all (!·.isNan) && l.contains (.inf false) && l.contains (.inf true),
      hit .vdot ri (ic [1]) (ic [2]) fun f => (got (readCourse f.r.ty f.B.bits)).isSome && (oA f).isSome,
      at_ .hinv 0x1201 false tile2 fun x f => got x = some (f.lit 9 3) && ringSpot f.x f.found f.j (f.lit 0 4) (f.lit 4 5) 2 = .at_ 0,
      at_ .hfwd 0x1201 false odd2 fun x _ => got x = none, at_ .hrec 0x101 true odd2 fun x _ => got x = none] = true := by decide +kernel

/-- A seed written meanwhile: the unit's generator is not the one that the activation began with. -/
theorem witness_CommitMoment_seed :
    let a := doneAct 2 0 [0] [1]
    let s := inCtx (fun x => { x with elems := [(.element 0, ⟨0, 0, 0, 9, [], []⟩)] }) (endState a)
    ((inCtx (fun x => { x with seeds := 1 }) s).ctx 0).seeds ≠ a.seeded ∧ ((endState a).ctx 0).seeds = a.seeded := by decide +kernel

/-- An edge that is not yet blocked and has no room, and a token offered again with room and without. -/
theorem witness_TokensAreMatched_room :
    let t := tok1 (sc 9) none
    let many := List.replicate 256 (Waiting.fresh .frame 0xC0 (.newel 0) 5 7 0 [] 0)
    let off (l : List Waiting) : State := sub (fun y => { y with c := 0, e := 1 })
      (inCtx (fun x => { x with offered := [(0x80, .newel 0, 1, t)] }) (matchState (.newel 0) 2 1 t l))
    allOf [(((matchState (.newel 0) 2 1 t many).ctx 0).edges.all fun e => !e.blocked) && (matchState (.newel 0) 2 1 t many).framePlace 0 (.newel 0) 3 = none,
      ((off []).ctx 0).offered[0]? = some (0x80, .newel 0, 1, t) && (((off []).ctx 0).blockAt 0x80).any (fun b => 1 < b.blk.inputs) && (off []).resident 0 &&
        (off []).findFrame 0 (.newel 0) 0x80 5 = none && (off []).framePlace 0 (.newel 0) 3 = some false,
      (off many).findFrame 0 (.newel 0) 0x80 5 = none && (off many).framePlace 0 (.newel 0) 3 = none] = true := by decide +kernel

theorem witness_Requests_leave :
    let masked (leaf : Word) : Req := req1 0 64 (.store (.masked .f32 1 lev1.bits)) leaf
    let takes (q : Req) : Bool := let s := reqS q { State.reset with mem := Memory.store [] 64 (courseBytes lev1.bits) }
      ripeB s q && !(s.outside q) && (s.spot q 64).any fun x => s.storeRefusal 0 (.masked .f32 1 lev1.bits) 64 x = none
    let two (st : ReqState) : State := { State.reset with net := { State.reset.net with reqs := [{ req1 0 64 .release with id := 6, st := st }, req1 0 64 .release] } }
    let q := req1 0 64 (.load 8 false)
    let r : Req := { q with sent := some ⟨4, [(0, 4, true)]⟩ }
    let win (l : List (Nat × Bool)) (s : State) : State :=
      sub (fun y => { y with port := q.port, k := 0, id := 4 }) { s with net := { s.net with wins := [⟨q.port, 0, 2, 0, 5, 0, l⟩] } }
    let a := loadAct .ld rec0 (sc 0) (sc 0)
    let ac := { loadAct .acq rec0 (sc 0) (sc 0) with stores := [⟨0, 0, 64, .bytes [1]⟩] }
    allOf [takes (masked leaf0), takes (masked leafT),
      !((two .waiting).headOf (req1 0 64 .release)), (two .queued).headOf (req1 0 64 .release), (two (.held 3 1)).headOf { req1 0 64 .release with id := 6 },
      (reqS q).dests q = [(0, (reqS q).home 64)] && q.sent = none && (reqS q).mayPerform q,
      ((win [(4, true)] State.reset).window q.port 0).out = [(4, true)] && ((win [] State.reset).window q.port 0).out = [],
      (win [(4, true)] (reqS r)).net.reqs = [r],
      a.seenBy q = a && ac.seenBy q = { ac with stores := [] }] = true := by decide +kernel

/-! ### For clauses on sums, tiles, loads and stores, fibres and the device -/

/-- Record 1 is a MERGE whose token on port b came in this step; record 0, whose move of the same step follows, brings that of port a. -/
theorem witness_StepRunsTheInstruction_merge :
    let ra : Rec := { rec0 with d0 := .node 1 .a }
    let a (n : Nat) : Act := { act1 (.element 0) .mergeOp rec0 (sc 0) (sc 0) (sc 0) with
      blk := ⟨64, 1, 4, 16, 0xFFFF, [Op.add.encode ra, Op.mergeOp.encode rec0], [0, 0], []⟩
      recs := [⟨.idle, some (sc 1), some (sc 2), none, none, []⟩, ⟨.idle, none, some (sc 6), none, some (false, n), []⟩] }
    let s (n : Nat) (l : List Move) : State := { State.reset.putAct (.element 0) (a n) with sched := { State.reset.sched with agenda := l } }
    allOf [tied (s 0 [⟨0, 0, .fire (.element 0) 0⟩]) (.fire (.element 0) 1), !(tied (s 0 []) (.fire (.element 0) 1)),
      !(tied (s 1 [⟨0, 0, .fire (.element 0) 0⟩]) (.fire (.element 0) 1)), !(tied (s 0 [⟨1, 1, .fire (.element 0) 0⟩]) (.fire (.element 0) 1)),
      ((a 0).slot 1).a = none && ((a 0).slot 1).first = some (false, 0)] = true := by decide +kernel

/-- Lanes whose sum is zero, with a NaN, with one infinity; a greatest lane beside infinities, of value zero, and none. -/
theorem witness_LaneReductions_ends :
    let vs (l : List Nat) (p : List FNum → Bool) : Bool := hit .vsum recV (cs l) (sc 0) fun f => ((oA f).map fun a => p a.nums) = some true
    let vm (l : List Nat) (p : List FNum → Bool) : Bool := hit .vrmax recV (cs l) (sc 0) fun f => ((rA f).map fun c => p c.nums) = some true
    let negs : List Nat := List.replicate 15 0x80000000
    let dot (r : Rec) (A B : Val) (g : State → State) (p : COp → COp → Bool) : Bool := hit .vdot r A B (g := g) fun f => both f p
    allOf [vs [0x3F800000, 0xBF800000] fun l => l.all isFin && sumOf l = 0, vs negs fun l => l.all fun y => y.isZero && y.neg?,
      vs [0x7FC00000, 0x7F800000] fun l => l.any (·.isNan), vs [0xFF800000] fun l => l.contains (.inf true) && !(l.contains (.inf false)) && l.all (!·.isNan),
      vm [0x7FC00000] fun l => l.any (·.isNan), vm [0x7F800000] fun l => l.all (!·.isNan) && l.contains (.inf false),
      vm (List.replicate 15 0xFF800000) fun l => l.all (· = .inf true), vm ([0xFF800000] ++ negs) fun l => l.all (fun y => y = .inf true || (isFin y && valueOf y ≤ 0)),
      vm negs fun l => l.all fun y => y.isZero && y.neg?,
      dot recV (cs [0x7F800000]) (cs [0]) id fun a b => (List.zipWith mulNum a.nums b.nums).any fun y => y.1.isNan,
      dot recV (cs [0x7F800000, 0xFF800000]) (cs [0x3F800000, 0x3F800000]) id fun a b =>
        let l := (List.zipWith mulNum a.nums b.nums).map (·.1); l.contains (.inf true) && l.contains (.inf false) && a.l = 0] = true := by
  decide +kernel

/-- Thirty lanes of F16 make two courses of F32; at level 1 they make none. -/
theorem witness_ConversionsAndFunctions_counts :
    let half (tail : BitVec 16) : Val := ⟨.course, mkCourse (fmtCode .f16) 127 tail 16 [0x3C00], false⟩
    let z : Val := cs [0x3F800000]
    let go (c : Val) (l : Nat) : Bool := hit .vcvt { recV with a := .ring, lit := 0x1201 } c z (g := withRings [ringOf 0 .const [c] 0 0, ringOf 1 .stream [z, z] 2 0]) fun f =>
      f.lit 9 4 = Ty.f16.code.toNat && Nat.lcm Ty.f16.count f.r.ty.count = 30 &&
        got (ringEntries f.x f.found f.j (slice f.r.ax 0 4).toNat (slice f.r.ax 8 5).toNat 1) = some [c.bits] &&
        (got (readCourse .f16 c.bits)).any (fun o => o.l = l) && ringSpot f.x f.found f.j (f.lit 0 4) (f.lit 4 5) 2 = .at_ 0
    allOf [go (half 0) 0, go (half (tailOf 1 0 false)) 1] = true := by decide +kernel

/-- Sums and differences of 1.5 and -0.5, and a pair of lanes. -/
theorem witness_HaarForms_steps :
    let x : Lane := (0x3FC00000, 0)
    let y : Lane := (0xBF000000, 0)
    isFin (readFmt f32 x.1) = true ∧ isFin (readFmt f32 y.1) = true ∧ valueOf (.fin false 1 0) = valueOf (readFmt f32 x.1) + valueOf (readFmt f32 y.1) ∧
    valueOf (.fin false 2 0) = valueOf (readFmt f32 x.1) - valueOf (readFmt f32 y.1) ∧ valueOf (.fin false 1 0) ≠ 0 ∧
    [x][0]? = some x ∧ [x, y][2 * 0 + 1]? = some y := by decide +kernel

/-- SENDT of courses, TAGN past a live tag, and loads and stores that their checks stop. -/
theorem witness_Accesses_stopped :
    let bad : Val := ⟨.course, 0x2A, false⟩
    let acc (f : Firing) (p : Pair) (t : Bool) (sp : List Nat) (perm x n : Nat) (al : Nat) (st : Bool) : Bool := accB f p t sp perm x n st && x % al ≠ 0
    let stOk (f : Firing) : Bool := accB f f.pb f.tb (dataSpaces f.r) (permIn f.pb 0x002) (f.at_ f.pb) (bytesOf f.r) true
    let elem (f : Firing) : Bool := f.r.sh = .scalar && (List.range f.r.ty.count).any fun i => f.at_ f.pb % 64 = 2 + i * (f.r.ty.width / 8)
    let queued : State → State := inCtx fun x => { x with part := 0x01000000, place := [.element 0], nodes := [⟨0, 3, 2, 17, false, 2, 17, false, [], [], 0, [], []⟩] }
    let m : Rec := { recV with ax := 8, b := .port }
    let r32 : Rec := { rec0 with ty := .i32 }
    allOf [hit .sendt recV bad (sc 0) fun f => f.r.sh = .course && checkTyped f.r.ty f.A.bits ≠ 99, hit .sendt recV lev1 (sc 0) fun f => checkTyped f.r.ty f.A.bits = 99,
      hit .ldc recV (wide 1 1 64) (sc 0) (fun f => accB f f.pa f.ta [1] 0x001 (f.at_ f.pa) 64 false && f.at_ f.pa % 64 = 0) (g := withPad),
      hit .ldc recV (wide 0 1 32) (sc 0) fun f => acc f f.pa f.ta [0, 1, 3, 4] 0x001 (f.at_ f.pa) 64 64 false,
      hit .lds rec0 (wide 2 1 4) (sc 0) fun f => acc f f.pa f.ta [2] 0x001 (f.at_ f.pa) 8 8 false,
      hit .acq rec0 (wide 0 0x21 4) (sc 0) fun f => acc f f.pa f.ta [0] 0x021 (capCursor f.pa) 8 8 false,
      hit .ldx recV (wide 0 1 66) (idx [0]) fun f => checkTyped .i32 f.B.bits = 99 && acc f f.pa f.ta [0, 1, 3, 4] 0x001 66 4 4 false &&
        (indexLanes f.r.ty (capCursor f.pa) f.B.bits).map (·.2) = [66],
      hit .ldx recV (small 0 1 64 8) (idx [0, 1, 2]) fun f => (indexLanes f.r.ty (capCursor f.pa) f.B.bits).map (·.2) = [64, 68, 72] &&
        capAccess f.pa f.ta 0x1B 0x001 72 4 0 = 8 && accB f f.pa f.ta [0, 1, 3, 4] 0x001 68 4 false,
      hit .st m bad (wide 0 2 64) fun f => bit f.r.ax 3 && checkTyped f.r.ty f.A.bits ≠ 99,
      hit .st rec0 (sc 5) (wide 0 2 4) fun f => stOk f && f.at_ f.pb % bytesOf f.r ≠ 0 && !(elem f),
      hit .st r32 (sc 5) (wide 1 2 66) (fun f => stOk f && f.at_ f.pb % bytesOf f.r ≠ 0 && elem f && capSpace f.pb = 1) (g := withPad),
      hit .st r32 (sc 5) (wide 0 2 66) fun f => stOk f && f.at_ f.pb % bytesOf f.r ≠ 0 && elem f && capSpace f.pb ≠ 1,
      hit .st rec0 (sc 5) (wide 1 2 32760) (fun f => accB f f.pb f.tb [1] 0x002 (f.at_ f.pb) (bytesOf f.r) false && f.x.inQueue (f.at_ f.pb) (bytesOf f.r)) (g := queued)] = true := by
  decide +kernel

/-- Two fibres that pass one entry each before their common coordinate. -/
theorem witness_SparseForms_passed :
    let fib (l : List (Nat × Nat)) : List Val := l.map fun x => fibreTok x.1 x.2
    let ring (q : Nat) (l : List (Nat × Nat)) : Ring := { ringOf q .fibre (fib l) l.length l.length with data := none }
    let x : Ctx := { Ctx.reset with rings := [ring 0 [(1, 7), (4, 9), (0xFFFFFFF0, 0)], ring 1 [(2, 7), (4, 8), (0xFFFFFFF0, 0)]] }
    let a : Act := { act1 (.element 0) .xsect rec0 (sc 0) (sc 0) (sc 0) with views := [⟨0, 0, 0, 3, 0⟩, ⟨1, 0, 0, 3, 0⟩] }
    let reads (q n : Nat) (v : Val) : Bool := match ringRead x a 1 q n with | .val u => u = v | _ => false
    (match xsectLoop 8194 x a 1 0 1 0 0 none none with | .out _ n m => n == 2 && m == 2 | _ => false) = true ∧
      reads 0 0 (fibreTok 1 7) = true ∧ reads 1 1 (fibreTok 4 8) = true ∧ x.rings.all (fun g => g.kind = .fibre) = true := by
  decide +kernel

/-- KVAPP on a typed page, on an untyped one and on a course of no narrow type; an access that is to leave again and a younger one;
TLBI entries whose requests have stopped; a unit's generator of every activation. -/
theorem witness_Requests_again :
    let kv (leaf : Word) : Req := req1 0 64 (.kvapp 3 [1]) leaf
    let t8 : Course := mkCourse (fmtCode .t8) 127 0 8 [1]
    let on (leaf : Word) (c : Course) (p : State → Spot → Bool) : Bool :=
      let s := reqS (kv leaf) { State.reset with mem := Memory.store [] 64 (courseBytes c) }
      ripeB s (kv leaf) && !(s.outside (kv leaf)) && ((List.range 1).mapM fun i => s.spot (kv leaf) (64 + 64 * i)).any fun l => l.all (p s)
    let two : State := { State.reset with net := { State.reset.net with reqs := [{ req1 0 64 .release with id := 6, st := .again }, req1 0 64 .release] } }
    allOf [on leafT t8 fun s x => x.typed && kvCode (s.courseAt x.key) = 99 && !(s.deferredIn x.key 64) && !(s.poisonIn x.key 64),
      on leaf0 t8 fun _ x => !x.typed, on leafT (mkCourse (fmtCode .t8) 255 0 8 [1]) fun s x => x.typed && kvCode (s.courseAt x.key) = 21,
      two.net.reqs.all fun q => q.id = 7 || (q.id < 7 && sameStream q (req1 0 64 .release) && q.st = .again)] = true := by decide +kernel

/-- Reads of BAR 2; flits without credits, here and on the way; rows whose slices change at reset and not. -/
theorem witness_HostAndLinks_more :
    let at_ (off : Nat) (h : HostSide → HostSide) : State := sub (fun y => { y with off := off }) { State.reset with host := h State.reset.host }
    let op : HostSide → HostSide := fun h => { h with opened := true }
    let ch : Chunk := ⟨9, 0, 2, 4, 0, 1, 1, 0, false, [], [1, 2, 3, 4]⟩
    let link (n : Nat) (w : Bool) : State := { State.reset with
      net := { State.reset.net with heldChunk := List.replicate n (0, ch) }
      links := { State.reset.links with ports := [⟨0, 0, false, 0, 9, 5, [], true, w⟩], locals := [99, 0], id := 0 } }
    let f (dst : BitVec 22) : Flit := ⟨true, 2, dst, 0, 0, 9, 0⟩
    let dead : Fabric := { Fabric.reset with
      halls := { Hall.reset with failed := true } :: List.replicate 63 Hall.reset
      dies := Fabric.reset.dies.map fun d => { d with spareRow := true } }
    let gone (f : Fabric) (wing : Nat) : Nat := (f.dead.filter fun h => wingOfHall h = wing).length
    allOf [(at_ (0x140 + 8 * 3) op).host.opened, (at_ 0x1018 op).sched.subject.off % 8 = 0, (at_ 0 op).sched.subject.off < 0x100, (let s := at_ 0 fun h => { h with opened := false }; !s.host.opened && !s.host.halted),
      65536 < (link 1024 false).heldBytes 0 + 64 && (link 1024 false).noCredit 0 (f 0), !((link 0 false).noCredit 0 (f 0)), (link 0 true).noCredit 0 (f 1) && (link 0 true).route 1 = some 0,
      (link 0 false).route 2 = none, gone (dead.afterReset ⟨0, 0, 0⟩) 0 ≠ gone dead 0, gone (dead.afterReset ⟨0, 0, 0⟩) 1 = gone dead 1] = true := by decide +kernel

/-- Spares that wait and not; a unit aged without a spare; clones that are over behind a merge node that holds a token, and not; a chosen
activation of a context that is replayed; a hall due for a check with and without an error; windows as the counters find them. -/
theorem witness_Hardware_and_more :
    let u : UnitId := .element 0
    let busy : State := inCtx (fun x => { x with status := .resident, place := [u], loadSeq := 3 }) State.reset
    let d (l : List (Nat × Nat)) (aged : List (UnitId × Option Nat × Nat)) (s : State) : State := { s with
      fab := { s.fab with dies := [⟨[0, 1, 2, 3], false, none, l, aged⟩], sets := [(0, { MacroSet.empty with spares := [(5, 32)] })] } }
    let p (f : Hall → Hall) : Hall := f Hall.reset
    let copy : Copy := ⟨.element 1, [], true⟩
    let held (l : List Token) (seen : Option Ival) : State := inCtx (fun x => { x with
      status := .resident, edges := [{ edge1 0 (.sink 3) l with dreg := ⟨[⟨⟨4, 9⟩, 0⟩], seen, 1, []⟩ }], ops := [⟨[], [], [], none, [], [], none, false, 0, [], 0, [copy], [], false, 0, 0, 0⟩] }) State.reset
    let w : Waiting := Waiting.fresh .frame 0x80 u 5 7 0 [] 0
    let again : State := (inCtx (fun x => { x with replay := true }) State.reset).putCell u { State.reset.cell u with chosen := some { w with tag := 5 } }
    allOf [(d [(0, 8)] [(u, none, 5)] busy).spareWaits u none, !((d [(0, 8)] [] busy).spareWaits u none), (d [(0, 8)] [(u, none, 5)] busy).fab.dies.any fun y => y.elems.any fun z => z.1 / 8 = 0,
      (d [] [(u, some 5, 5)] busy).spareWaits u (some 5), !((d [] [] busy).spareWaits u (some 5)),
      ((held [] none).ctx 0).merged 0, !(((held [⟨sc 1, 5, 7, 0, none, ⟨[], []⟩⟩] none).ctx 0).merged 0),
      copy.leaving && copy.regs = [] && ((held [] none).allFrames 0).all fun y => y.unit ≠ copy.unit,
      (again.cell u).chosen.any fun y => (again.ctx (tagCtx y.tag)).replay,
      (p id).checkedAt + 100000000 ≤ 100000000 && !((p id).checkedAt + 100000000 ≤ 99999999), (p fun h => { h with erred := true }).erred,
      (State.reset.fab.epochFrom = 0 && State.reset.fab.countedAt = 0)] = true := by decide +kernel

end Sys2Proof.Tests
end

section
/-! SUPPORT. What a form delivers or traps once its meaning is known, whatever the form. -/
namespace Sys2Proof.Claims
open Sys2Proof.Machine

/-! ### From a meaning to a claim (02 R33; 03 R60) -/

/-- What the meaning of a record sees when it fires. -/
def Firing.view (f : Firing) : View := ⟨f.u, f.j, f.a.ctx, f.r, f.A, f.B⟩

/-- A single raised flag whose trap bit is 1 is the lowest trapped flag. -/
theorem lowestFlag_of_trapped : ∀ (k : Fin 6) (trap : BitVec 6), bit trap k = true →
    (1#6 <<< k.val) &&& trap ≠ 0 ∧ lowestFlag ((1#6 <<< k.val) &&& trap) = k := by decide

/-- A completion with a trapped flag faults the activation with the number of its lowest trapped flag. -/
theorem settle_trapped {s : State} {u : UnitId} {a b : Act} {j : Nat} {r : Rec} {fl : BitVec 6} {d0 d1 : Option Val}
    (h : fl &&& a.trap ≠ 0) :
    settle s u a j r (.done b fl d0 d1) = s.takeFault u b j 5 (lowestFlag (fl &&& a.trap)) 0 0 := by
  simp only [settle, if_pos h]

/-- A form whose meaning, wherever P holds, gives one value with some flags delivers it. -/
theorem delivers_of_gives {i : Rec → Instr} {o : Op} {m : State → Act → View → Fired} {P : Firing → Prop} {v : Firing → Val}
    {fl : Firing → BitVec 6} (hexec : ∀ r s, exec (i r) s = fire o r s m)
    (hm : ∀ f, P f → m f.s f.found f.view = give f.found (fl f) (v f)) : Delivers i o P v fl := by
  intro f ⟨hfiring, hgate⟩ hP htrap
  rw [hexec]
  exact fire_done hfiring hgate (hm f hP) htrap

/-- A form whose meaning, wherever P holds, gives a value with the one flag k, which is trapped, faults with class 5 and code k. -/
theorem faults_of_gives_trapped {i : Rec → Instr} {o : Op} {m : State → Act → View → Fired} {P : Firing → Prop}
    {v : Firing → Val} {fl : Firing → BitVec 6} (k : Fin 6) (hexec : ∀ r s, exec (i r) s = fire o r s m)
    (hm : ∀ f, P f → m f.s f.found f.view = give f.found (fl f) (v f))
    (hk : ∀ f, P f → fl f = 1#6 <<< k.val ∧ bit f.found.trap k = true) : Faults i o P (fun _ => (5, k, 0, 0)) := by
  intro f ⟨hfiring, hgate⟩ hP
  obtain ⟨hfl, htrap⟩ := hk f hP
  obtain ⟨hne, hlow⟩ := lowestFlag_of_trapped k f.found.trap htrap
  calc exec (i f.r) f.s
      = .next (settle f.s f.u f.found f.j f.r (m f.s f.found f.view)) := by rw [hexec]; exact fire_go hfiring hgate
    _ = .next (f.s.takeFault f.u f.found f.j 5 k 0 0) := by
      rw [hm f hP, hfl, give, settle_trapped hne, hlow]

end Sys2Proof.Claims
end

section
/-! SUPPORT. The model's integers, kept as Nat and Int, are the bit vectors of the statements (08 R152). -/
namespace Sys2Proof.Claims
open Sys2Proof.Machine

/-! ### Widths -/

theorem width_pos (t : Ty) : 0 < t.width := by cases t <;> decide

/-! ### Operands -/

/-- A bit vector read as signed is negative where it reaches half its range. -/
theorem toInt_eq_ite_half {w : Nat} (x : BitVec w) :
    x.toInt = if 2 ^ (w - 1) ≤ x.toNat then (x.toNat : Int) - 2 ^ w else x.toNat := by
  rw [BitVec.toInt_eq_msb_cond, BitVec.msb_eq_decide]
  simp

theorem rawInt_eq_toNat_low (t : Ty) (x : Word) : rawInt t x = (low t x).toNat := (BitVec.toNat_setWidth ..).symm

theorem readInt_eq_number (t : Ty) (x : Word) : readInt t x = number t x := by
  have hlow : x.toNat % 2 ^ t.width = (low t x).toNat := rawInt_eq_toNat_low t x
  unfold readInt number
  rw [hlow, toInt_eq_ite_half]
  cases t.signed <;> simp

/-- The w bits of a number read by a type are the w bits it was read from. -/
@[simp] theorem ofInt_number (t : Ty) (x : Word) : BitVec.ofInt t.width (number t x) = low t x := by
  unfold number
  split
  · exact BitVec.ofInt_toInt
  · rw [BitVec.ofInt_natCast, BitVec.ofNat_toNat, BitVec.setWidth_eq]

theorem number_nonneg_of_unsigned {t : Ty} (h : t.signed = false) (x : Word) : 0 ≤ number t x := by
  simp [number, h]

/-! ### Ranges -/

theorem intMin_eq_least (t : Ty) : intMin t = least t := by
  unfold intMin least
  rw [BitVec.toInt_intMin_of_pos (width_pos t)]

theorem intMax_eq_greatest (t : Ty) : intMax t = greatest t := by
  have hpow : 1 ≤ 2 ^ t.width := Nat.one_le_two_pow
  unfold intMax greatest
  rw [BitVec.toInt_intMax, BitVec.toNat_allOnes]
  push_cast [hpow]
  rfl

/-! ### Results -/

theorem extInt_eq_extended (t : Ty) (v : Int) : extInt t v = extended t (BitVec.ofInt t.width v) := by
  have hbits : (v % 2 ^ t.width).toNat = (BitVec.ofInt t.width v).toNat := by
    rw [BitVec.toNat_ofInt]
    push_cast
    rfl
  unfold extInt extended
  rw [hbits, BitVec.signExtend, toInt_eq_ite_half, ← BitVec.ofNat_toNat 64]
  cases t.signed <;> simp only [Bool.false_and, Bool.true_and, decide_eq_true_eq]
  · rfl
  · split
    · rfl
    · exact (BitVec.ofInt_natCast ..).symm

theorem ofWord_extInt (t : Ty) (v : Int) : Val.ofWord (extInt t v) = scalarOfBits t (BitVec.ofInt t.width v) := by
  rw [extInt_eq_extended]
  rfl

/-- The same of a result that the model holds as the number of w bits. -/
theorem ofWord_extInt_toNat (t : Ty) (x : BitVec t.width) : Val.ofWord (extInt t x.toNat) = scalarOfBits t x := by
  rw [ofWord_extInt, BitVec.ofInt_natCast, BitVec.ofNat_toNat, BitVec.setWidth_eq]

theorem scalarOfBits_zero (t : Ty) : scalarOfBits t 0 = scalarOf 0 := by
  simp [scalarOfBits, scalarOf, extended, Val.ofNat, BitVec.signExtend]

end Sys2Proof.Claims
end

section
/-! O16: DIV and REM (08 R153, R155). -/
namespace Sys2Proof.Claims
open Sys2Proof.Machine

/-! ### Quotient, remainder and flags, case by case -/

/-- Quotient, remainder and flags of the operands of a firing. -/
def Firing.divRem (f : Firing) : Int × Int × BitVec 6 := Machine.divRem f.r.ty f.na f.nb

/-- The division that overflows: the least number by -1 (08 R155). -/
def Firing.overflows (f : Firing) : Prop := f.r.ty.signed = true ∧ f.na = least f.r.ty ∧ f.nb = -1

theorem divRem_of_regular {f : Firing} (hb : f.nb ≠ 0) (hc : ¬f.overflows) :
    f.divRem = (f.na.tdiv f.nb, f.na.tmod f.nb, noFlags) := by
  have hcorner : ¬((f.r.ty.signed && f.na = intMin f.r.ty && f.nb = -1) = true) := by
    simpa [intMin_eq_least, and_assoc, Firing.overflows] using hc
  rw [Firing.divRem, Machine.divRem, if_neg hb, if_neg hcorner, Int.tmod_def]

theorem divRem_of_zero_nonneg {f : Firing} (hb : f.nb = 0) (ha : 0 ≤ f.na) : f.divRem = (greatest f.r.ty, f.na, flagDz) := by
  simp [Firing.divRem, Machine.divRem, hb, ha, intMax_eq_greatest]

/-- A negative dividend is of a signed type, so its quotient by 0 is the least number. -/
theorem divRem_of_zero_neg {f : Firing} (hb : f.nb = 0) (ha : f.na < 0) : f.divRem = (least f.r.ty, f.na, flagDz) := by
  have hs : f.r.ty.signed = true := by
    by_contra hs
    exact absurd (number_nonneg_of_unsigned (by simpa using hs) f.A.word) (not_le.mpr ha)
  simp [Firing.divRem, Machine.divRem, hb, hs, not_le.mpr ha, intMin_eq_least]

/-- The remainder by 0 and the flag are the same for dividends of either sign. -/
theorem divRem_snd_of_zero {f : Firing} (hb : f.nb = 0) : f.divRem.2 = (f.na, flagDz) := by
  simp [Firing.divRem, Machine.divRem, hb]

theorem divRem_of_overflows {f : Firing} (h : f.overflows) : f.divRem = (least f.r.ty, 0, flagOf) := by
  obtain ⟨hs, ha, hb⟩ := h
  simp [Firing.divRem, Machine.divRem, hs, ha, hb, intMin_eq_least]

/-! ### The form -/

section
variable {i : Rec → Instr} {o : Op} {g : Int × Int × BitVec 6 → Int} {P : Firing → Prop}

theorem divForm_gives (f : Firing) : divForm g f.s f.found f.view =
    give f.found f.divRem.2.2 (scalarOfBits f.r.ty (BitVec.ofInt f.r.ty.width (g f.divRem))) := by
  simp only [divForm, Firing.view, readInt_eq_number, ofWord_extInt]
  rfl

theorem delivers_divForm {v : Firing → Val} {fl : Firing → BitVec 6} (hexec : ∀ r s, exec (i r) s = fire o r s (divForm g))
    (hv : ∀ f, P f → scalarOfBits f.r.ty (BitVec.ofInt f.r.ty.width (g f.divRem)) = v f ∧ f.divRem.2.2 = fl f) :
    Delivers i o P v fl := by
  refine delivers_of_gives hexec fun f hP => ?_
  obtain ⟨hval, hfl⟩ := hv f hP
  rw [divForm_gives, hval, hfl]

theorem faults_divForm (k : Fin 6) (hexec : ∀ r s, exec (i r) s = fire o r s (divForm g))
    (hk : ∀ f, P f → f.divRem.2.2 = 1#6 <<< k.val ∧ bit f.found.trap k = true) : Faults i o P (fun _ => (5, k, 0, 0)) :=
  faults_of_gives_trapped k hexec (fun f _ => divForm_gives f) hk

end

/-- Settles O16: each clause is one case of divRem, delivered or trapped by the form that DIV and REM share. -/
theorem divisionAndItsCorners : Obligations.DivisionAndItsCorners := by
  have hdiv : ∀ r s, exec (.div r) s = fire .div r s (divForm fun x => x.1) := fun _ _ => rfl
  have hrem : ∀ r s, exec (.rem r) s = fire .rem r s (divForm fun x => x.2.1) := fun _ _ => rfl
  have hdz {f : Firing} (hb : f.nb = 0) : f.divRem.2.2 = flagDz := by rw [divRem_snd_of_zero hb]
  have hof {f : Firing} (h : f.overflows) : f.divRem.2.2 = flagOf := by rw [divRem_of_overflows h]
  refine ⟨?_, ?_, ?_, ?_, ?_, ?_, ?_, ?_, ?_, ?_, ?_⟩
  · refine delivers_divForm hdiv fun f ⟨_, hb, hc⟩ => ?_
    rw [divRem_of_regular hb hc]
    exact ⟨rfl, rfl⟩
  · refine delivers_divForm hrem fun f ⟨_, hb, hc⟩ => ?_
    rw [divRem_of_regular hb hc]
    exact ⟨rfl, rfl⟩
  · refine delivers_divForm hdiv fun f ⟨_, hb, ha⟩ => ?_
    rw [divRem_of_zero_nonneg hb ha]
    exact ⟨rfl, rfl⟩
  · refine delivers_divForm hdiv fun f ⟨_, hb, ha⟩ => ?_
    rw [divRem_of_zero_neg hb ha]
    exact ⟨rfl, rfl⟩
  · refine delivers_divForm hrem fun f ⟨_, hb⟩ => ?_
    rw [divRem_snd_of_zero hb, Firing.na, ofInt_number]
    exact ⟨rfl, rfl⟩
  · refine delivers_divForm hdiv fun f ⟨_, h⟩ => ?_
    rw [divRem_of_overflows h]
    exact ⟨rfl, rfl⟩
  · refine delivers_divForm hrem fun f ⟨_, h⟩ => ?_
    rw [divRem_of_overflows h]
    exact ⟨scalarOfBits_zero f.r.ty, rfl⟩
  · exact faults_divForm 1 hdiv fun f ⟨_, hb, htrap⟩ => ⟨hdz hb, htrap⟩
  · exact faults_divForm 1 hrem fun f ⟨_, hb, htrap⟩ => ⟨hdz hb, htrap⟩
  · exact faults_divForm 2 hdiv fun f ⟨_, h, htrap⟩ => ⟨hof h, htrap⟩
  · exact faults_divForm 2 hrem fun f ⟨_, h, htrap⟩ => ⟨hof h, htrap⟩

end Sys2Proof.Claims
end

section
/-! O17: SHR (08 R156). -/
namespace Sys2Proof.Claims
open Sys2Proof.Machine

/-! ### The raw bits shifted -/

/-- A count above w shifts every bit out, as a count of w does. -/
theorem div_two_pow_min {w x : Nat} (hx : x < 2 ^ w) (n : Nat) : x / 2 ^ min n w = x >>> n := by
  rw [Nat.shiftRight_eq_div_pow]
  rcases le_total n w with h | h
  · rw [min_eq_left h]
  · rw [min_eq_right h, Nat.div_eq_of_lt hx, Nat.div_eq_of_lt (hx.trans_le (Nat.pow_le_pow_right two_pos h))]

theorem shrBits_logical {w : Nat} (x : BitVec w) (n : Nat) : shrBits w false x.toNat n = (x >>> n).toNat := by
  rw [BitVec.toNat_ushiftRight, ← div_two_pow_min x.isLt]
  rfl

/-- The bits above the shifted ones are copies of bit w - 1: where it is 1 the complement is shifted, filled with zeros. -/
theorem shrBits_arithmetic {w : Nat} (x : BitVec w) (n : Nat) : shrBits w true x.toNat n = (x.sshiftRight n).toNat := by
  have hcompl : 2 ^ w - 1 - x.toNat < 2 ^ w := by
    have := x.isLt
    omega
  rw [BitVec.toNat_sshiftRight, BitVec.msb_eq_decide, ← div_two_pow_min x.isLt, ← div_two_pow_min hcompl]
  rfl

/-! ### The form -/

theorem shrForm_gives (f : Firing) {y : BitVec f.r.ty.width}
    (hy : shrBits f.r.ty.width (f.r.fn = 1) (low f.r.ty f.A.word).toNat f.B.word.toNat = y.toNat) :
    shrForm f.s f.found f.view = give f.found noFlags (scalarOfBits f.r.ty y) := by
  rw [← rawInt_eq_toNat_low] at hy
  calc shrForm f.s f.found f.view
      = give f.found noFlags (Val.ofWord (extInt f.r.ty
          (shrBits f.r.ty.width (f.r.fn = 1) (rawInt f.r.ty f.A.word) f.B.word.toNat))) := rfl
    _ = give f.found noFlags (scalarOfBits f.r.ty y) := by rw [hy, ofWord_extInt_toNat]

/-- Settles O17: the model's quotients by powers of 2 are the shifts of the w bits, for every count. -/
theorem shiftRight : Obligations.ShiftRight := by
  have hshr : ∀ r s, exec (.shr r) s = fire .shr r s shrForm := fun _ _ => rfl
  refine ⟨delivers_of_gives hshr fun f ⟨_, hfn⟩ => shrForm_gives f ?_,
    delivers_of_gives hshr fun f ⟨_, hfn⟩ => shrForm_gives f ?_⟩
  · simpa [hfn] using shrBits_logical (low f.r.ty f.A.word) f.B.word.toNat
  · simpa [hfn] using shrBits_arithmetic (low f.r.ty f.A.word) f.B.word.toNat

end Sys2Proof.Claims
end

section
/-! O39: the access check (08 R164). -/
namespace Sys2Proof.Claims
open Sys2Proof.Machine

/-- The access check with its conditions as R164 says them, each the one that has to hold: the first that fails decides. -/
theorem capAccess_eq (p : Pair) (tagged : Bool) (spaces : BitVec 8) (q x n limit : Nat) :
    capAccess p tagged spaces q x n limit =
      if ¬tagged = true then 1
      else if ¬capOtype p = 0 then 2
      else if ¬(capSpace p ≤ 5 ∧ bit spaces (capSpace p) = true) then 9
      else if ¬(capPerm p &&& BitVec.ofNat 12 q = BitVec.ofNat 12 q) then 5
      else if ¬(capBase p ≤ x ∧ x + n ≤ capTop p ∧ (capSpace p = 1 → x + n ≤ limit)) then 8
      else 99 := by
  have hspace : (5 < capSpace p || !bit spaces (capSpace p)) = true ↔
      ¬(capSpace p ≤ 5 ∧ bit spaces (capSpace p) = true) := by
    rw [not_and_or, not_le, Bool.not_eq_true]
    simp only [Bool.or_eq_true, decide_eq_true_eq, Bool.not_eq_true']
  have hbounds : (x < capBase p || capTop p < x + n || (capSpace p = 1 && decide (limit < x + n))) = true ↔
      ¬(capBase p ≤ x ∧ x + n ≤ capTop p ∧ (capSpace p = 1 → x + n ≤ limit)) := by
    simp only [Bool.or_eq_true, Bool.and_eq_true, decide_eq_true_eq]
    omega
  simp only [capAccess, hspace, hbounds, capHasPerm, Bool.not_eq_true', decide_eq_false_iff_not, Bool.not_eq_true]

/-- Settles O39: each clause follows the tests of the check down to the one that decides. -/
theorem accessChecksInOrder : Obligations.AccessChecksInOrder := by
  intro p tagged spaces q x n limit k unsealed spaceOk permOk inside
  have hk : k = if ¬tagged = true then 1 else if ¬capOtype p = 0 then 2 else if ¬spaceOk then 9 else if ¬permOk then 5
      else if ¬inside then 8 else 99 := capAccess_eq p tagged spaces q x n limit
  refine ⟨?_, ?_, ?_, ?_, ?_, ?_⟩
  · intro ht
    simp [hk, ht]
  · intro ht ho
    simp [hk, ht, ho]
  · intro ⟨ht, ho⟩ hs
    simp [hk, ht, ho, hs]
  · intro ⟨ht, ho⟩ hs hp
    simp [hk, ht, ho, hs, hp]
  · intro ⟨ht, ho⟩ hs hp hi
    simp [hk, ht, ho, hs, hp, hi]
  · intro ⟨ht, ho⟩ hs hp hi
    simp [hk, ht, ho, hs, hp, hi]

end Sys2Proof.Claims
end

section
/-! SUPPORT. What the scalar float forms deliver once the number that they round is known (09 R170, R171). -/
namespace Sys2Proof.Claims
open Sys2Proof.Machine

/-! ### The kinds of numbers -/

theorem isNan_iff {x : FNum} : x.isNan = true ↔ ∃ s, x = .nan s := by
  cases x <;> simp [FNum.isNan]

theorem isInf_iff {x : FNum} : x.isInf = true ↔ ∃ n, x = .inf n := by
  cases x <;> simp [FNum.isInf]

theorem isZero_iff {x : FNum} : x.isZero = true ↔ ∃ n e, x = .fin n 0 e := by
  cases x <;> simp [FNum.isZero]

theorem isNan_of_isZero {x : FNum} (h : x.isZero = true) : x.isNan = false := by
  obtain ⟨n, e, rfl⟩ := isZero_iff.mp h
  rfl

theorem isNan_of_isInf {x : FNum} (h : x.isInf = true) : x.isNan = false := by
  obtain ⟨n, rfl⟩ := isInf_iff.mp h
  rfl

@[simp] theorem isNan_negate (x : FNum) : x.negate.isNan = x.isNan := by cases x <;> rfl
@[simp] theorem isSig_negate (x : FNum) : x.negate.isSig = x.isSig := by cases x <;> rfl

/-! ### The form -/

theorem modOut_eq_negated (f : Firing) (p : Nat) : modOut f.fmt f.r.fn p = negated f p := by
  simp [modOut, negated]

/-- The canonical NaN has no sign for neg to turn (09 R171). -/
@[simp] theorem negated_nanBits (f : Firing) : negated f f.fmt.nanBits = f.fmt.nanBits :=
  if_neg fun h => h.2 rfl

@[simp] theorem roundFmt_quietNaN (fm : Fmt) (rm : Nat) : roundFmt fm rm (.nan false) = (fm.nanBits, 0) := rfl
@[simp] theorem roundFmt_inf (fm : Fmt) (rm : Nat) (n : Bool) : roundFmt fm rm (.inf n) = (fm.sign n + fm.infBits, 0) := rfl
@[simp] theorem roundFmt_zero (fm : Fmt) (rm : Nat) (n : Bool) (e : Int) : roundFmt fm rm (.fin n 0 e) = (fm.sign n, 0) := rfl

section
variable {i : Rec → Instr} {o : Op} {g : Nat → FNum → FNum → FNum → FNum × BitVec 6} {P : Firing → Prop}

theorem floatForm_gives (f : Firing) : floatForm g f.s f.found f.view =
    give f.found ((g f.rm f.fa f.fb f.fk).2 ||| (roundFmt f.fmt f.rm (g f.rm f.fa f.fb f.fk).1).2)
      (scalarOf (negated f (roundFmt f.fmt f.rm (g f.rm f.fa f.fb f.fk).1).1)) := by
  rw [← modOut_eq_negated]
  rfl

theorem givesNaN_floatForm {fl : Firing → BitVec 6} (hexec : ∀ r s, exec (i r) s = fire o r s (floatForm g))
    (hg : ∀ f, P f → g f.rm f.fa f.fb f.fk = (.nan false, fl f)) : GivesNaN i o P fl := by
  refine delivers_of_gives hexec fun f ⟨_, hP⟩ => ?_
  simp [floatForm_gives, hg f hP]

theorem givesBits_floatForm {p : Firing → Nat} {fl : BitVec 6} (hexec : ∀ r s, exec (i r) s = fire o r s (floatForm g))
    (hg : ∀ f, P f → ∃ x, g f.rm f.fa f.fb f.fk = (x, fl) ∧ roundFmt f.fmt f.rm x = (p f, 0)) : GivesBits i o P p fl := by
  refine delivers_of_gives hexec fun f ⟨_, hP⟩ => ?_
  obtain ⟨x, hx, hround⟩ := hg f hP
  simp [floatForm_gives, hx, hround]

end

/-! ### Comparison of numbers (09 R173) -/

theorem ltNum_asymm {x y : FNum} (h : ltNum x y = true) : ltNum y x = false := by
  cases x with
  | nan s => cases h
  | inf n =>
    cases y with
    | nan t => cases h
    | inf k =>
      obtain ⟨rfl, hk⟩ := (Bool.and_eq_true _ _).mp h
      exact Bool.and_false k
    | fin k p g =>
      obtain rfl : n = true := h
      rfl
  | fin n m e =>
    cases y with
    | nan t => cases h
    | inf k =>
      obtain rfl : k = false := Bool.not_eq_true' k |>.mp h
      rfl
    | fin k p g =>
      simp only [ltNum, decide_eq_true_eq, decide_eq_false_iff_not, min_comm g e] at h ⊢
      exact h.not_gt

theorem eqNum_of_noNaN {x y : FNum} (hx : x.isNan = false) (hy : y.isNan = false) :
    eqNum x y = (!ltNum x y && !ltNum y x) := by
  cases x with
  | nan s => cases hx
  | inf n => cases y with
    | nan t => cases hy
    | inf k => rfl
    | fin k p g => rfl
  | fin n m e => cases y with
    | nan t => cases hy
    | inf k => rfl
    | fin k p g => rfl

theorem ltNum_of_isZero {x y : FNum} (hx : x.isZero = true) (hy : y.isZero = true) : ltNum x y = false := by
  obtain ⟨n, e, rfl⟩ := isZero_iff.mp hx
  obtain ⟨k, g, rfl⟩ := isZero_iff.mp hy
  simp [ltNum, FNum.mantAt]

/-- -0 and +0 compare equal (09 R173). -/
theorem eqNum_of_isZero {x y : FNum} (hx : x.isZero = true) (hy : y.isZero = true) : eqNum x y = true := by
  rw [eqNum_of_noNaN (isNan_of_isZero hx) (isNan_of_isZero hy), ltNum_of_isZero hx hy, ltNum_of_isZero hy hx]
  rfl

end Sys2Proof.Claims
end

section
/-! O25: the special cases of the scalar float forms (09 R172). -/
namespace Sys2Proof.Claims
open Sys2Proof.Machine

/-! ### A NaN operand -/

section
variable {x y : FNum}

theorem addNum_of_isNan (rm : Nat) (h : x.isNan = true ∨ y.isNan = true) : addNum rm x y = nanOf (x.isSig || y.isSig) := by
  rcases h with h | h <;> obtain ⟨s, rfl⟩ := isNan_iff.mp h
  · cases y <;> simp [addNum, FNum.isSig]
  · cases x <;> simp [addNum, FNum.isSig]

theorem mulNum_of_isNan (h : x.isNan = true ∨ y.isNan = true) : mulNum x y = nanOf (x.isSig || y.isSig) := by
  rcases h with h | h <;> obtain ⟨s, rfl⟩ := isNan_iff.mp h
  · cases y <;> simp [mulNum, FNum.isSig]
  · cases x <;> simp [mulNum, FNum.isSig]

theorem divNum_of_isNan (h : x.isNan = true ∨ y.isNan = true) : divNum x y = nanOf (x.isSig || y.isSig) := by
  rcases h with h | h <;> obtain ⟨s, rfl⟩ := isNan_iff.mp h
  · cases y <;> simp [divNum, FNum.isSig]
  · cases x <;> simp [divNum, FNum.isSig]

theorem minNum_of_isNan (h : x.isNan = true ∨ y.isNan = true) : minNum x y = nanOf (x.isSig || y.isSig) :=
  if_pos (Bool.or_eq_true _ _ |>.mpr h)

theorem maxNum_of_isNan (h : x.isNan = true ∨ y.isNan = true) : maxNum x y = nanOf (x.isSig || y.isSig) :=
  if_pos (Bool.or_eq_true _ _ |>.mpr h)

theorem sqrtNum_of_isNan (h : x.isNan = true) : sqrtNum x = nanOf x.isSig := by
  obtain ⟨s, rfl⟩ := isNan_iff.mp h
  rfl

theorem rsqNum_of_isNan (h : x.isNan = true) : rsqNum x = nanOf x.isSig := by
  obtain ⟨s, rfl⟩ := isNan_iff.mp h
  rfl

/-! ### Zeros and infinities -/

/-- The two pairs of factors that have no product. -/
def ZeroTimesInf (x y : FNum) : Prop := x.isZero = true ∧ y.isInf = true ∨ x.isInf = true ∧ y.isZero = true

theorem mulNum_of_zeroTimesInf (h : ZeroTimesInf x y) : mulNum x y = (.nan false, flagNv) := by
  rcases h with ⟨hx, hy⟩ | ⟨hx, hy⟩
  · obtain ⟨n, e, rfl⟩ := isZero_iff.mp hx
    obtain ⟨k, rfl⟩ := isInf_iff.mp hy
    rfl
  · obtain ⟨n, rfl⟩ := isInf_iff.mp hx
    obtain ⟨k, e, rfl⟩ := isZero_iff.mp hy
    rfl

theorem isNan_of_zeroTimesInf (h : ZeroTimesInf x y) : x.isNan = false ∧ y.isNan = false := by
  rcases h with ⟨hx, hy⟩ | ⟨hx, hy⟩
  · exact ⟨isNan_of_isZero hx, isNan_of_isInf hy⟩
  · exact ⟨isNan_of_isInf hx, isNan_of_isZero hy⟩

/-- A product is a NaN only where a factor is one or the factors are a zero and an infinity. -/
theorem mulNum_isNan (h : (mulNum x y).1.isNan = true) : (x.isNan = true ∨ y.isNan = true) ∨ ZeroTimesInf x y := by
  cases x with
  | nan s => exact .inl (.inl rfl)
  | inf n =>
    by_cases hy : y.isZero = true
    · exact .inr (.inr ⟨rfl, hy⟩)
    · cases y with
      | nan t => exact .inl (.inr rfl)
      | inf k => cases h
      | fin k p g => simp [mulNum, hy, FNum.isNan] at h
  | fin n m e =>
    cases y with
    | nan t => exact .inl (.inr rfl)
    | inf k =>
      by_cases hx : (FNum.fin n m e).isZero = true
      · exact .inr (.inl ⟨hx, rfl⟩)
      · simp [mulNum, hx, FNum.isNan] at h
    | fin k p g => cases h

theorem addNum_inf_inf_not (rm : Nat) (n : Bool) : addNum rm (.inf n) (.inf !n) = (.nan false, flagNv) := by
  cases n <;> rfl

theorem divNum_zero_zero (hx : x.isZero = true) (hy : y.isZero = true) : divNum x y = (.nan false, flagNv) := by
  obtain ⟨n, e, rfl⟩ := isZero_iff.mp hx
  obtain ⟨k, g, rfl⟩ := isZero_iff.mp hy
  rfl

theorem divNum_inf_inf (hx : x.isInf = true) (hy : y.isInf = true) : divNum x y = (.nan false, flagNv) := by
  obtain ⟨n, rfl⟩ := isInf_iff.mp hx
  obtain ⟨k, rfl⟩ := isInf_iff.mp hy
  rfl

theorem divNum_by_zero (hx : finite x) (hx0 : x.isZero = false) (hy : y.isZero = true) :
    divNum x y = (.inf (x.neg? ^^ y.neg?), flagDz) := by
  obtain ⟨n, m, e, rfl⟩ := hx
  obtain ⟨k, g, rfl⟩ := isZero_iff.mp hy
  have hm : m ≠ 0 := by simpa [FNum.isZero] using hx0
  simp [divNum, hm, FNum.neg?]

theorem sqrtNum_of_isZero (h : x.isZero = true) : sqrtNum x = (.fin x.neg? 0 0, 0) := by
  obtain ⟨n, e, rfl⟩ := isZero_iff.mp h
  rfl

theorem rsqNum_of_isZero (h : x.isZero = true) : rsqNum x = (.inf x.neg?, flagDz) := by
  obtain ⟨n, e, rfl⟩ := isZero_iff.mp h
  rfl

theorem sqrtNum_of_negative (hn : x.isNan = false) (h0 : x.isZero = false) (h : x.neg? = true) :
    sqrtNum x = (.nan false, flagNv) := by
  cases x with
  | nan s => cases hn
  | inf n =>
    obtain rfl : n = true := h
    rfl
  | fin n m e =>
    obtain rfl : n = true := h
    have hm : m ≠ 0 := by simpa [FNum.isZero] using h0
    simp [sqrtNum, hm]

theorem rsqNum_of_negative (hn : x.isNan = false) (h0 : x.isZero = false) (h : x.neg? = true) :
    rsqNum x = (.nan false, flagNv) := by
  cases x with
  | nan s => cases hn
  | inf n =>
    obtain rfl : n = true := h
    rfl
  | fin n m e =>
    obtain rfl : n = true := h
    have hm : m ≠ 0 := by simpa [FNum.isZero] using h0
    simp [rsqNum, hm]

/-- Of two zeros the lesser is -0 where there is one: the first where it is -0, else the second. -/
theorem minNum_zeros (hx : x.isZero = true) (hy : y.isZero = true) : minNum x y = (if x.neg? then x else y, 0) := by
  simp only [minNum, isNan_of_isZero hx, isNan_of_isZero hy, ltNum_of_isZero hx hy, eqNum_of_isZero hx hy]
  cases x.neg? <;> rfl

/-- Of two zeros the greater is +0 where there is one: the first where it is +0, else the second. -/
theorem maxNum_zeros (hx : x.isZero = true) (hy : y.isZero = true) : maxNum x y = (if x.neg? then y else x, 0) := by
  simp only [maxNum, isNan_of_isZero hx, isNan_of_isZero hy, ltNum_of_isZero hy hx, eqNum_of_isZero hx hy]
  cases x.neg? <;> rfl

theorem roundFmt_of_isZero (fm : Fmt) (rm : Nat) (h : x.isZero = true) : roundFmt fm rm x = (fm.sign x.neg?, 0) := by
  obtain ⟨n, e, rfl⟩ := isZero_iff.mp h
  rfl

/-! ### a * b + c -/

variable {z : FNum}

theorem fmaNum_of_isNan (rm : Nat)
    (h : (x.isNan = true ∨ y.isNan = true) ∨ (z.isNan = true ∧ ¬ZeroTimesInf x y)) :
    fmaNum rm x y z = nanOf (x.isSig || y.isSig || z.isSig) := by
  have hany : (x.isNan || y.isNan || z.isNan) = true := by
    rcases h with h | ⟨h, _⟩ <;> simp [h]
  have hprod : ((mulNum x y).1.isNan && !(x.isNan || y.isNan)) = false := by
    rcases h with h | ⟨_, h⟩
    · have hxy : (x.isNan || y.isNan) = true := Bool.or_eq_true _ _ |>.mpr h
      simp [hxy]
    · by_contra hp
      simp only [Bool.not_eq_false, Bool.and_eq_true, Bool.not_eq_true', Bool.or_eq_false_iff] at hp
      obtain ⟨hp, hx, hy⟩ := hp
      simpa [hx, hy, h] using mulNum_isNan hp
  simp only [fmaNum, hany, hprod, Bool.or_false, if_true, nanOf]

theorem fmaNum_of_zeroTimesInf (rm : Nat) (h : ZeroTimesInf x y) : fmaNum rm x y z = (.nan false, flagNv) := by
  obtain ⟨hx, hy⟩ := isNan_of_zeroTimesInf h
  have hp : (FNum.nan false).isNan = true := rfl
  simp [fmaNum, mulNum_of_zeroTimesInf h, hx, hy, hp, flagIf]

theorem fmaNum_of_inf_sub_inf (rm : Nat) {n : Bool} (hp : (mulNum x y).1 = .inf n) (hz : z = .inf !n) :
    fmaNum rm x y z = (.nan false, flagNv) := by
  have hxy : ¬(x.isNan = true ∨ y.isNan = true) := fun h => by
    rw [mulNum_of_isNan h] at hp
    cases hp
  obtain ⟨hx, hy⟩ := not_or.mp hxy
  simp only [Bool.not_eq_true] at hx hy
  have hnan : ∀ k, (FNum.inf k).isNan = false := fun _ => rfl
  simp only [fmaNum, hx, hy, hz, hp, hnan, addNum_inf_inf_not]
  rfl

end

/-! ### FRND and FCVT, which do not share the form -/

theorem frndForm_of_isNan {f : Firing} (h : (readFmt f.fmt f.bitsA).isNan = true) :
    frndForm f.s f.found f.view =
      give f.found (if (readFmt f.fmt f.bitsA).isSig then flagNv else 0) (scalarOf f.fmt.nanBits) := by
  obtain ⟨s, hs⟩ := isNan_iff.mp h
  have hint : integral f.rm (readFmt f.fmt f.bitsA) = nanOf s := by rw [hs]; rfl
  calc frndForm f.s f.found f.view
      = give f.found (integral f.rm (readFmt f.fmt f.bitsA)).2
          (scalarOf (roundFmt f.fmt 0 (integral f.rm (readFmt f.fmt f.bitsA)).1).1) := rfl
    _ = _ := by rw [hint, hs]; rfl

/-- The source of FCVT by a code of a float type (09 R175). -/
theorem convIn_of_float : ∀ t ∈ [(8, Ty.f32), (9, .f16), (10, .b16)], ∀ w : Word,
    convIn t.1 w = readFmt (fmtOf t.2) (w.toNat % 2 ^ t.2.width) := by
  simp [convIn, floatIn]

/-- FCVT to a float raises nv once, by the rounding and by the form. -/
theorem fcvtForm_of_nan {f : Firing} {s : Bool} (hty : floatTyped f) (h : convIn (f.lit 0 4) f.A.word = .nan s) :
    fcvtForm f.s f.found f.view = give f.found (if s then flagNv else 0) (scalarOf f.fmt.nanBits) := by
  have he8 : f.r.ty ≠ .e8 := by
    rcases hty with h | h | h <;> simp [h]
  calc fcvtForm f.s f.found f.view
      = give f.found ((if f.r.ty = .e8 then toE8 (convIn (f.lit 0 4) f.A.word)
            else roundFmt f.fmt f.rm (convIn (f.lit 0 4) f.A.word)).2 ||| flagIf (convIn (f.lit 0 4) f.A.word).isSig flagNv)
          (scalarOf (if f.r.ty = .e8 then toE8 (convIn (f.lit 0 4) f.A.word)
            else roundFmt f.fmt f.rm (convIn (f.lit 0 4) f.A.word)).1) := rfl
    _ = give f.found (flagIf s flagNv ||| flagIf s flagNv) (scalarOf f.fmt.nanBits) := by
      rw [if_neg he8, h]
      rfl
    _ = _ := by rw [BitVec.or_self]; rfl

/-! ### The forms by their operations -/

theorem exec_fadd (r : Rec) (s : State) : exec (.fadd r) s = fire .fadd r s (floatForm fun rm x y _ => addNum rm x y) := rfl
theorem exec_fsub (r : Rec) (s : State) : exec (.fsub r) s = fire .fsub r s (floatForm fun rm x y _ => addNum rm x y.negate) := rfl
theorem exec_fmul (r : Rec) (s : State) : exec (.fmul r) s = fire .fmul r s (floatForm fun _ x y _ => mulNum x y) := rfl
theorem exec_ffma (r : Rec) (s : State) : exec (.ffma r) s = fire .ffma r s (floatForm fun rm x y z => fmaNum rm x y z) := rfl
theorem exec_fdiv (r : Rec) (s : State) : exec (.fdiv r) s = fire .fdiv r s (floatForm fun _ x y _ => divNum x y) := rfl
theorem exec_fsqrt (r : Rec) (s : State) : exec (.fsqrt r) s = fire .fsqrt r s (floatForm fun _ x _ _ => sqrtNum x) := rfl
theorem exec_frsq (r : Rec) (s : State) : exec (.frsq r) s = fire .frsq r s (floatForm fun _ x _ _ => rsqNum x) := rfl
theorem exec_fmin (r : Rec) (s : State) : exec (.fmin r) s = fire .fmin r s (floatForm fun _ x y _ => minNum x y) := rfl
theorem exec_fmax (r : Rec) (s : State) : exec (.fmax r) s = fire .fmax r s (floatForm fun _ x y _ => maxNum x y) := rfl

/-- Settles O25: each case of R172 is one fact about the operation on numbers; the form rounds what it gives. -/
theorem floatSpecialCases : Obligations.FloatSpecialCases := by
  refine ⟨?nanTwo, ?nanFma, ?nanRoot, ?nanRnd, ?nanCvt, ?addInf, ?subInf, ?fmaInf, ?zeroInf, ?divNaN, ?divZero, ?sqrtZero,
    ?rootNeg, ?rsqZero, ?rsqInf, ?minZero, ?maxZero⟩
  case nanTwo =>
    simp only [List.forall_mem_cons, List.not_mem_nil, false_imp_iff, implies_true, and_true]
    refine ⟨?_, ?_, ?_, ?_, ?_, ?_⟩
    · exact givesNaN_floatForm exec_fadd fun f h => addNum_of_isNan f.rm h
    · refine givesNaN_floatForm exec_fsub fun f h => ?_
      rw [← isNan_negate f.fb] at h
      rw [addNum_of_isNan f.rm h, isSig_negate]
      rfl
    · exact givesNaN_floatForm exec_fmul fun f h => mulNum_of_isNan h
    · exact givesNaN_floatForm exec_fdiv fun f h => divNum_of_isNan h
    · exact givesNaN_floatForm exec_fmin fun f h => minNum_of_isNan h
    · exact givesNaN_floatForm exec_fmax fun f h => maxNum_of_isNan h
  case nanFma =>
    exact givesNaN_floatForm exec_ffma fun f h =>
      fmaNum_of_isNan f.rm (h.imp_right fun ⟨hk, hzi, hiz⟩ => ⟨hk, not_or.mpr ⟨hzi, hiz⟩⟩)
  case nanRoot =>
    rw [List.forall_mem_cons, List.forall_mem_singleton]
    exact ⟨givesNaN_floatForm exec_fsqrt fun f h => sqrtNum_of_isNan h, givesNaN_floatForm exec_frsq fun f h => rsqNum_of_isNan h⟩
  case nanRnd =>
    exact delivers_of_gives (fun _ _ => rfl) fun f ⟨_, h⟩ => frndForm_of_isNan h
  case nanCvt =>
    intro t ht
    refine delivers_of_gives (fun _ _ => rfl) fun f ⟨hty, hlit, h⟩ => ?_
    obtain ⟨s, hs⟩ := isNan_iff.mp h
    rw [hs, fcvtForm_of_nan hty (by rw [hlit, convIn_of_float t ht, hs])]
    rfl
  case addInf =>
    refine givesNaN_floatForm exec_fadd fun f ⟨n, ha, hb⟩ => ?_
    rw [ha, hb, addNum_inf_inf_not]
  case subInf =>
    refine givesNaN_floatForm exec_fsub fun f ⟨n, ha, hb⟩ => ?_
    rw [ha, hb]
    exact addNum_inf_inf_not f.rm n
  case fmaInf =>
    exact givesNaN_floatForm exec_ffma fun f ⟨n, hp, hk⟩ => fmaNum_of_inf_sub_inf f.rm hp hk
  case zeroInf =>
    rw [List.forall_mem_cons, List.forall_mem_singleton]
    exact ⟨givesNaN_floatForm exec_fmul fun f h => mulNum_of_zeroTimesInf h,
      givesNaN_floatForm exec_ffma fun f h => fmaNum_of_zeroTimesInf f.rm h⟩
  case divNaN =>
    exact givesNaN_floatForm exec_fdiv fun f h => h.elim (fun ⟨ha, hb⟩ => divNum_zero_zero ha hb) fun ⟨ha, hb⟩ => divNum_inf_inf ha hb
  case divZero =>
    exact givesBits_floatForm exec_fdiv fun f ⟨ha, ha0, hb⟩ => ⟨_, divNum_by_zero ha ha0 hb, roundFmt_inf ..⟩
  case sqrtZero =>
    exact givesBits_floatForm exec_fsqrt fun f h => ⟨_, sqrtNum_of_isZero h, roundFmt_zero ..⟩
  case rootNeg =>
    rw [List.forall_mem_cons, List.forall_mem_singleton]
    exact ⟨givesNaN_floatForm exec_fsqrt fun f ⟨hn, h0, h⟩ => sqrtNum_of_negative hn h0 h,
      givesNaN_floatForm exec_frsq fun f ⟨hn, h0, h⟩ => rsqNum_of_negative hn h0 h⟩
  case rsqZero =>
    exact givesBits_floatForm exec_frsq fun f h => ⟨_, rsqNum_of_isZero h, roundFmt_inf ..⟩
  case rsqInf =>
    exact givesBits_floatForm exec_frsq fun f h => ⟨.fin false 0 0, by rw [h]; rfl, roundFmt_zero ..⟩
  case minZero =>
    refine givesBits_floatForm exec_fmin fun f ⟨ha, hb⟩ => ⟨_, minNum_zeros ha hb, ?_⟩
    cases hneg : f.fa.neg? <;> simp [roundFmt_of_isZero, ha, hb, hneg]
  case maxZero =>
    refine givesBits_floatForm exec_fmax fun f ⟨ha, hb⟩ => ⟨_, maxNum_zeros ha hb, ?_⟩
    cases hneg : f.fa.neg? <;> simp [roundFmt_of_isZero, ha, hb, hneg]

end Sys2Proof.Claims
end

section
/-! O26: FCMP and FCLS (09 R173, R174). -/
namespace Sys2Proof.Claims
open Sys2Proof.Machine

/-! ### Comparison is that of the values -/

/-- A finite number as an integer at a common exponent. -/
theorem valueOf_fin (n : Bool) (m : Nat) {e e0 : Int} (h : e0 ≤ e) :
    valueOf (.fin n m e) = (FNum.mantAt n m e e0 : ℚ) * 2 ^ e0 := by
  have hpow : (2 : ℚ) ^ e = 2 ^ (e - e0).toNat * 2 ^ e0 := by
    rw [← zpow_natCast, Int.toNat_of_nonneg (sub_nonneg.mpr h), ← zpow_add₀ two_ne_zero, sub_add_cancel]
  cases n <;> simp [valueOf, FNum.mantAt, hpow] <;> ring

theorem ltNum_iff_valueOf_lt {x y : FNum} (hx : finite x) (hy : finite y) : ltNum x y = true ↔ valueOf x < valueOf y := by
  obtain ⟨n, m, e, rfl⟩ := hx
  obtain ⟨k, p, g, rfl⟩ := hy
  rw [valueOf_fin n m (min_le_left e g), valueOf_fin k p (min_le_right e g),
    mul_lt_mul_iff_left₀ (zpow_pos two_pos _), Int.cast_lt]
  exact decide_eq_true_iff

theorem isNan_of_finite {x : FNum} (h : finite x) : x.isNan = false := by
  obtain ⟨n, m, e, rfl⟩ := h
  rfl

theorem eqNum_iff_valueOf_eq {x y : FNum} (hx : finite x) (hy : finite y) : eqNum x y = true ↔ valueOf x = valueOf y := by
  rw [eqNum_of_noNaN (isNan_of_finite hx) (isNan_of_finite hy), Bool.and_eq_true, Bool.not_eq_true', Bool.not_eq_true',
    ← Bool.not_eq_true, ← Bool.not_eq_true, ltNum_iff_valueOf_lt hx hy, ltNum_iff_valueOf_lt hy hx, not_lt, not_lt,
    and_comm, ← le_antisymm_iff]

/-- The infinities are beyond all finite numbers. -/
theorem compare_inf_finite {x : FNum} (h : finite x) :
    ltNum (.inf true) x = true ∧ ltNum x (.inf false) = true ∧ ltNum (.inf false) x = false ∧ ltNum x (.inf true) = false ∧
      ∀ n, eqNum (.inf n) x = false ∧ eqNum x (.inf n) = false := by
  obtain ⟨k, m, e, rfl⟩ := h
  refine ⟨rfl, rfl, rfl, rfl, fun n => ?_⟩
  cases n <;> exact ⟨rfl, rfl⟩

theorem compare_inf_inf (n k : Bool) :
    ltNum (.inf n) (.inf k) = (n && !k) ∧ eqNum (.inf n) (.inf k) = decide (n = k) := by
  refine ⟨rfl, ?_⟩
  cases n <;> cases k <;> rfl

/-! ### FCMP -/

/-- The seven conditions of FCMP (09 R173). -/
theorem conditions_of_le {fn : BitVec 4} (h : fn.toNat ≤ 6) :
    fn = 0 ∨ fn = 1 ∨ fn = 2 ∨ fn = 3 ∨ fn = 4 ∨ fn = 5 ∨ fn = 6 := by
  revert fn
  decide

theorem fcmpForm_gives (f : Firing) :
    let x := cmpNum f.r.fn.toNat (readFmt f.fmt f.bitsA) (readFmt f.fmt (f.B.word.toNat % 2 ^ f.r.ty.width))
    fcmpForm f.s f.found f.view = give f.found x.2 (scalarOf (if x.1 then 1 else 0)) := rfl

theorem isSig_of_not_isNan {x : FNum} (h : x.isNan = false) : x.isSig = false := by
  cases x with
  | nan s => cases h
  | inf n => rfl
  | fin n m e => rfl

theorem noNaN_pair {x y : FNum} : noNaN [x, y] ↔ x.isNan = false ∧ y.isNan = false := by
  simp [noNaN]

section
variable {fn : BitVec 4} {x y : FNum}

theorem cmpNum_flags_of_noNaN (h : noNaN [x, y]) : (cmpNum fn.toNat x y).2 = 0 := by
  obtain ⟨hx, hy⟩ := noNaN_pair.mp h
  simp [cmpNum, hx, hy, isSig_of_not_isNan hx, isSig_of_not_isNan hy, flagIf, noFlags]

/-- gt and ge, which the model has as the complements of le and lt, are lt and le of the operands exchanged. -/
theorem cmpNum_holds_iff (hfn : fn.toNat ≤ 6) (h : noNaN [x, y]) : (cmpNum fn.toNat x y).1 = true ↔
    (fn = 0 ∧ eqNum x y = true) ∨ (fn = 1 ∧ eqNum x y = false) ∨ (fn = 2 ∧ ltNum x y = true) ∨
      (fn = 3 ∧ (ltNum x y = true ∨ eqNum x y = true)) ∨ (fn = 4 ∧ ltNum y x = true) ∨
      (fn = 5 ∧ (ltNum y x = true ∨ eqNum x y = true)) := by
  obtain ⟨hx, hy⟩ := noNaN_pair.mp h
  have heq := eqNum_of_noNaN hx hy
  have hgt : (!(ltNum x y || eqNum x y)) = ltNum y x := by
    rw [heq]
    cases hlt : ltNum x y with
    | true => simp [ltNum_asymm hlt]
    | false => simp
  have hge : (!ltNum x y) = (ltNum y x || eqNum x y) := by
    rw [heq]
    cases hlt : ltNum x y with
    | true => simp [ltNum_asymm hlt]
    | false => cases ltNum y x <;> rfl
  rcases conditions_of_le hfn with rfl | rfl | rfl | rfl | rfl | rfl | rfl <;> simp [cmpNum, hx, hy, hgt, hge]

theorem cmpNum_of_nan (hfn : fn.toNat ≤ 6) (h : ¬noNaN [x, y]) : cmpNum fn.toNat x y =
    (decide (fn = 1 ∨ fn = 6), if (2 ≤ fn.toNat ∧ fn.toNat ≤ 5) ∨ x.isSig ∨ y.isSig then flagNv else 0) := by
  have hun : (x.isNan || y.isNan) = true := by
    by_contra hno
    exact h (noNaN_pair.mpr (by simpa using hno))
  rcases conditions_of_le hfn with rfl | rfl | rfl | rfl | rfl | rfl | rfl <;> simp [cmpNum, hun, flagIf, noFlags]

end

theorem firstCode_cons_none {b : Bool} {k : Nat} {l : List (Bool × Nat)} (hk : k ≠ 99) :
    firstCode ((b, k) :: l) = 99 ↔ b = false ∧ firstCode l = 99 := by
  cases b <;> simp [firstCode, hk]

/-- A record that passes the checks at fetch has an FN of its form's entry (06 R112, R120). -/
theorem fn_admitted {env : FetchEnv} {o : Op} {r : Rec} (h : fieldFault env o r = 99) : bit o.form.fns r.fn.toNat = true := by
  obtain ⟨_, h⟩ := (firstCode_cons_none (by decide)).mp h
  obtain ⟨hfn, _⟩ := (firstCode_cons_none (by decide)).mp h
  simpa using (Bool.or_eq_false_iff.mp hfn).1

theorem fcmp_fn_le {env : FetchEnv} {r : Rec} (h : fieldFault env .fcmp r = 99) : r.fn.toNat ≤ 6 := by
  have hall : ∀ fn : BitVec 4, bit (0x7F : BitVec 16) fn.toNat = true → fn.toNat ≤ 6 := by decide
  exact hall r.fn (fn_admitted h)

/-! ### FCLS -/

/-- The class of a number by the sign, the exponent field and the fraction of its pattern (09 R174). -/
def fieldsClass (fm : Fmt) (neg : Bool) (ex fr : Nat) : Nat :=
  if ex = 2 ^ fm.eb - 1 then
    if fr = 0 then (if neg then 2 else 9) else if fr < 2 ^ (fm.fb - 1) then 0 else 1
  else if ex = 0 then
    if fr = 0 then (if neg then 5 else 6) else (if neg then 4 else 7)
  else if neg then 3 else 8

/-- A fraction without the hidden bit is below the least normal number. -/
theorem subnormal_below_emin (fm : Fmt) {fr : Nat} (h0 : fr ≠ 0) (h : fr < 2 ^ fm.fb) :
    floorLog2 fr (fm.emin - fm.fb) < fm.emin := by
  have hlog : Nat.log2 fr < fm.fb := (Nat.log2_lt h0).mpr h
  unfold floorLog2
  omega

/-- With the hidden bit the exponent is that of the field. -/
theorem floorLog2_normal (fm : Fmt) {fr : Nat} (ex : Nat) (h : fr < 2 ^ fm.fb) :
    floorLog2 (2 ^ fm.fb + fr) ((ex : Int) - fm.bias - fm.fb) = ex - fm.bias := by
  have hlog : Nat.log2 (2 ^ fm.fb + fr) = fm.fb :=
    (Nat.log2_eq_iff (by positivity)).mpr ⟨Nat.le_add_right .., by rw [pow_succ]; omega⟩
  unfold floorLog2
  rw [hlog]
  omega

theorem classBit_readFmt (fm : Fmt) (p : Nat) : classBit fm (readFmt fm p) =
    fieldsClass fm (decide (p / 2 ^ (fm.eb + fm.fb) % 2 = 1)) (p / 2 ^ fm.fb % 2 ^ fm.eb) (p % 2 ^ fm.fb) := by
  have hfr : p % 2 ^ fm.fb < 2 ^ fm.fb := Nat.mod_lt _ (by positivity)
  unfold readFmt fieldsClass
  generalize p / 2 ^ fm.fb % 2 ^ fm.eb = ex
  generalize p % 2 ^ fm.fb = fr at hfr ⊢
  by_cases htop : ex = 2 ^ fm.eb - 1
  · by_cases h0 : fr = 0
    · simp [htop, h0, classBit]
    · simp [htop, h0, classBit, Nat.div_eq_zero_iff]
  by_cases hex : ex = 0
  · by_cases h0 : fr = 0
    · simp [hex, h0, classBit, hex ▸ htop]
    · simp [hex, h0, classBit, hex ▸ htop, subnormal_below_emin fm h0 hfr]
  · have hnormal : ¬floorLog2 (2 ^ fm.fb + fr) ((ex : Int) - fm.bias - fm.fb) < fm.emin := by
      rw [floorLog2_normal fm ex hfr, Fmt.emin]
      omega
    simp [htop, hex, classBit, hnormal]

section
variable {fm : Fmt} {neg : Bool} {ex fr : Nat}

theorem fieldsClass_top : fieldsClass fm neg (2 ^ fm.eb - 1) fr =
    if fr = 0 then (if neg then 2 else 9) else if fr < 2 ^ (fm.fb - 1) then 0 else 1 := if_pos rfl

theorem fieldsClass_zero (htop : 0 < 2 ^ fm.eb - 1) : fieldsClass fm neg 0 fr =
    if fr = 0 then (if neg then 5 else 6) else (if neg then 4 else 7) := by
  rw [fieldsClass, if_neg htop.ne, if_pos rfl]

theorem fieldsClass_normal (hpos : 0 < ex) (hlt : ex < 2 ^ fm.eb - 1) : fieldsClass fm neg ex fr = if neg then 3 else 8 := by
  rw [fieldsClass, if_neg hlt.ne, if_neg hpos.ne']

end

/-- An exponent field of a type's format has room between zeros and infinities. -/
theorem top_pos (f : Firing) : 0 < 2 ^ f.fmt.eb - 1 := by
  unfold Firing.fmt
  cases f.r.ty <;> decide

theorem exec_fcls (r : Rec) (s : State) : exec (.fcls r) s = fire .fcls r s fun _ a v =>
    give a noFlags (Val.ofNat (2 ^ classBit (fmtOf v.r.ty) (floatIn v.r.ty v.a.word))) := rfl

theorem classifies_of_fieldsClass {k : Nat} {P : Firing → Bool → Nat → Nat → Prop}
    (h : ∀ f n e x, P f n e x → fieldsClass f.fmt n e x = k) : Classifies k P := by
  refine delivers_of_gives exec_fcls fun f ⟨_, hP⟩ => ?_
  have hclass : classBit f.fmt (readFmt f.fmt f.bitsA) = k := (classBit_readFmt ..).trans (h f _ _ _ hP)
  rw [← hclass]
  rfl

/-- Settles O26: FCMP by its seven conditions, the comparison by the values, FCLS by the fields of the pattern. -/
theorem floatCompareAndClassify : Obligations.FloatCompareAndClassify := by
  refine ⟨delivers_of_gives (fun _ _ => rfl) fun f ⟨_, hfn, h⟩ => ?ordered,
    delivers_of_gives (fun _ _ => rfl) fun f ⟨_, hfn, h⟩ => ?unordered,
    fun x y => ⟨fun hx hy => ⟨ltNum_iff_valueOf_lt hx hy, eqNum_iff_valueOf_eq hx hy⟩, compare_inf_finite,
      fun hx hy => ⟨eqNum_of_isZero hx hy, ltNum_of_isZero hx hy⟩⟩,
    compare_inf_inf, fun _ _ => fcmp_fn_le, ?sNaN, ?qNaN, ?negInf, ?negNormal, ?negSubnormal, ?negZero,
    ?posZero, ?posSubnormal, ?posNormal, ?posInf⟩
  case ordered =>
    rw [fcmpForm_gives, cmpNum_flags_of_noNaN h]
    simp only [cmpNum_holds_iff hfn h]
  case unordered =>
    rw [fcmpForm_gives, cmpNum_of_nan hfn h]
    simp only [decide_eq_true_eq]
  case sNaN =>
    refine classifies_of_fieldsClass fun f n e x ⟨he, hx, hlt⟩ => ?_
    rw [he, fieldsClass_top, if_neg hx, if_pos hlt]
  case qNaN =>
    refine classifies_of_fieldsClass fun f n e x ⟨he, hle⟩ => ?_
    have hx : x ≠ 0 := (Nat.two_pow_pos _ |>.trans_le hle).ne'
    rw [he, fieldsClass_top, if_neg hx, if_neg hle.not_gt]
  case negInf =>
    refine classifies_of_fieldsClass fun f n e x ⟨hn, he, hx⟩ => ?_
    rw [he, fieldsClass_top, if_pos hx, if_pos hn]
  case negNormal =>
    refine classifies_of_fieldsClass fun f n e x ⟨hn, hpos, hlt⟩ => ?_
    rw [fieldsClass_normal hpos hlt, if_pos hn]
  case negSubnormal =>
    refine classifies_of_fieldsClass fun f n e x ⟨hn, he, hx⟩ => ?_
    rw [he, fieldsClass_zero (top_pos f), if_neg hx, if_pos hn]
  case negZero =>
    refine classifies_of_fieldsClass fun f n e x ⟨hn, he, hx⟩ => ?_
    rw [he, fieldsClass_zero (top_pos f), if_pos hx, if_pos hn]
  case posZero =>
    refine classifies_of_fieldsClass fun f n e x ⟨hn, he, hx⟩ => ?_
    simp [he, fieldsClass_zero (top_pos f), hx, hn]
  case posSubnormal =>
    refine classifies_of_fieldsClass fun f n e x ⟨hn, he, hx⟩ => ?_
    simp [he, fieldsClass_zero (top_pos f), hx, hn]
  case posNormal =>
    refine classifies_of_fieldsClass fun f n e x ⟨hn, hpos, hlt⟩ => ?_
    simp [fieldsClass_normal hpos hlt, hn]
  case posInf =>
    refine classifies_of_fieldsClass fun f n e x ⟨hn, he, hx⟩ => ?_
    simp [he, fieldsClass_top, hx, hn]

end Sys2Proof.Claims
end
